-- ==== Sys2Proof/Word.lean ====
section
/-! DEFINITION. The word types of the Q32 model and nothing else: bytes, 48-bit physical addresses, 64-bit registers. -/

namespace Sys2Proof

/-- A byte. -/
abbrev Byte := BitVec 8

/-- A 64-bit register or memory word (00_scope.md, "Register access types"). -/
abbrev U64 := BitVec 64

/-- A 32-bit word. -/
abbrev U32 := BitVec 32

/-- A 48-bit physical address (02_address_space.md R40). -/
abbrev Addr := BitVec 48

end Sys2Proof
end

