-- ==== Sys2Proof/Config.lean ====
section
/-! DEFINITION. What one device fixes and what the manual leaves open. Every constant here is opaque: nothing in Lean can
evaluate it, so a statement about it holds whatever its value is.
Log entries: 8 DESIGN CHOICE, 9 DESIGN CHOICE, 10 DESIGN CHOICE, 66 DESIGN CHOICE. -/

namespace Sys2Proof

/-- The fused grade of the device (00_scope.md R1, R2): 0 = PK, 1 = CH, 2 = DR. -/
opaque Config.grade : Fin 3

/-- A fresh value that the manual leaves open, by the number the step reads from `State.fresh`. -/
opaque Config.free : Nat → BitVec 64

/-- The results that the vector unit gives for the transcendental operations 6 to 11 on an FP32 operand, by operation: bit-identical
on every device (R189). The manual bounds them (within 2 ulp, R155) and does not state them; `Machine.elemFn` takes this value where
the bound holds of it. -/
opaque Config.elemFn : Nat → BitVec 32 → BitVec 32

/-- The level that SEAL_OUT drives in the first half period after POR_N rises (R606). -/
opaque Config.sealStart : Bool

/-- The bytes that the neighbouring chip streams through the West Quay at a boot load, by the load's number and offset
(Tables 6-10 and 7-3). -/
opaque Config.streamByte : Nat → Nat → BitVec 8

/-- The die revision in the IDCODE (R656). -/
opaque Config.dieRev : Fin 16

/-- The size in bytes of the flash device on a chip select, as its SFDP table gives it (R652). -/
opaque Config.flashSize : Fin 2 → Nat

/-- The bytes that a program or erase operation that did not run to its end leaves (R284), for the event with a number. -/
opaque Config.cutByte : Nat → Nat → BitVec 8

/-- The bytes of the Boot ROM (Table 2-2), by offset. -/
opaque Config.bootRom : Nat → BitVec 8

/-- Whether a Berth of another chip belongs to a critical partition, or its Wharfinger or Dredger serves one (R48): a board-window request
carries the unit and not its class. -/
opaque Config.remoteCritical : BitVec 8 → BitVec 8 → BitVec 6 → Bool

/-- The partition of a Berth of another chip, as the Dredger knows it (R420). -/
opaque Config.remotePartition : BitVec 8 → BitVec 8 → BitVec 6 → BitVec 4

/-- What comes back for a request that a block of this chip other than a Crane sends to another chip, when this chip's router does not
answer it: 0 OK, 1 POISON, 2 DOWN, 3 LINK_LOST (R55), and the bytes of a read or an atomic, for the request with a number. -/
opaque Config.remoteStatus : Nat → Fin 4
opaque Config.remoteByte : Nat → Nat → BitVec 8

end Sys2Proof
end

