-- ==== Sys2Proof/Machine/Regs.lean ====
section
/-! DEFINITION. The register directory: every register kind of the manual with its slots, offset, instances and field
access types (the "Registers" section of each chapter, and 19_register_map.md Tables 19-4 to 19-8), and every field
under its own name. A key numbers one register of one slot. -/

namespace Sys2Proof.Machine

/-- The register kinds, under the manual's names. An indexed family (MSG_Qq, LH_CFGi ...) is one kind. -/
inductive Reg where
  | BLK_ID | BLK_STAT | BLK_FAULT | BLK_FMASK | BLK_REACT | BLK_GRACE | BLK_ACK | BLK_INJ | BLK_PWR | BLK_IRQ
  | BASIN_RET | BASIN_SCRUB | BASIN_ECC | BASIN_ERR | MC_CFG | MC_ECC | MC_ERR | BERTH_CFG | BERTH_STAT
  | BERTH_MISM | BERTH_MISM_T | CRANE_CNT | HOLD_ECC | HOLD_ERR | SEQ_CFG | SEQ_CTL | SEQ_STAT | SEQ_FLT
  | WO_ERR | WO_SEQ | FMT_CNT | FMC_CNT | BERTH_CG | MSG_Q | MSG_QSTAT | MSG_CFG | MSG_SFLOW | MSG_STAT
  | MSG_ERR | PILOT_BOOT | PILOT_CMD | PILOT_SRC | PILOT_LEN | PILOT_STAT | PILOT_FIT | PILOT_RES
  | PILOT_DIGEST | PILOT_CHART_ID | PILOT_PART | HM_STATE | HM_STRAP | HM_SLEEP | HM_WAKE_EN | HM_WAKE_SRC
  | HM_DOM_WAKE | HM_DOM_STAT | HM_RESET | HM_SVC | HM_CLK | HM_HU_CFG0 | HM_HU_CFG1 | HM_HU_MEAS
  | HM_BOOTREC | HM_SC_STAT | HM_SC_CORE | HM_SC_BERTH | HM_SC_LH | HM_SC_GRACE | HM_MISM | HM_CLKMON
  | HM_REGPAR | HM_SAFE | HM_SAFE_STAT | HM_SAFE_T | PRES_STAT | PRES_CFG | WAKE_POL | WAKE_STUCK | IN_STAT
  | IN_CNT | ESTOP_STAT | ESTOP_T | TOUCH_CFG | TOUCH_STAT | TOUCH_PAD | TIDE_NOW | TIDE_SET | TIDE_ALARM
  | TIDE_CFG | TIDE_STAT | LOG_STAT | LOG_RD_IDX | LOG_RD | LOG_MIR | LOG_NV | LOG_CTL | LOG_CLEAR
  | LOG_MSTAT | QUAY_CFG | QUAY_VC | QUAY_STAT | QUAY_CNT | QUAY_CTL | QUAY_LOSS | MESH_ORIGIN | ROUTE_DOM
  | ROUTE_STAT | ROUTE_REG | LT_STAT | LT_RELEASE | LT_CNT | LT_POOL_BASE | LT_POOL_GEO | LT_RDONE | LH_FIRED
  | LH_ARMED | LH_UNUSABLE | LH_CFG | LH_LIM | LH_STAMP | LH_ARRIVE | LH_STAT | SO_CFG | SO_CMD | SO_STAT
  | SO_REQ | RX_CFG | RX_STAT | STREAM_CFG | STREAM_SHAPE | STREAM_RING | STREAM_CONS | STREAM_STAT
  | STREAM_CNT | STREAM_CLAIM | STREAM_FILT | FSYNC_START | FSYNC_PER | STREAM_REL | KV_CFG | KV_STAT
  | KV_HCMD0 | KV_HCMD1 | KV_HRESP | KV_CNT | KV_ERR | KV_POOL_CFG | KV_POOL_QUANT | KV_POOL_MEM
  | KV_POOL_PAGES | KV_POOL_SEQ | KV_POOL_NV | KV_POOL_STAT | DRG_STAT | DRG_HCMD0 | DRG_HCMD1 | DRG_HRESP
  | DRG_CNT | DRG_ERR | DRG_SLOT_CFG | DRG_SLOT_TEMP | DRG_SLOT_TMIN | DRG_SLOT_OFF | DRG_SLOT_STAT
  | DRG_SLOT_DESC | HOST_CFG | HOST_WIN | HOST_STAT | HOST_ERR | HOST_CNT | HOST_DBG | CAN_CFG | CAN_NBT
  | CAN_DBT | CAN_STAT | CAN_FULL | CAN_PEND | ETH_CFG | ETH_ADDR | ETH_RX | ETH_TX | ETH_KICK | ETH_STAT
  | ETH_MDIO | XSPI_CFG | XSPI_CMD0 | XSPI_CMD1 | XSPI_LEN | XSPI_STAT | SPIC_CFG | SPIC_TX | SPIC_RX
  | SPIC_TRIG | SPIC_STAT | UART_CFG | UART_DATA | UART_STAT | GPIO_DIR | GPIO_OUT | GPIO_IN
  deriving DecidableEq, Repr

/-- What the manual's register tables say of one kind: its first and last slot, offset of instance 0, number of
instances and stride, the bits of each access type (Table 0-4) and the reset value of the defined bits. -/
structure RegInfo where
  slotLo : Nat
  slotHi : Nat
  off : Nat
  count : Nat
  stride : Nat
  ro : Nat
  rw : Nat
  rwl : Nat
  rwp : Nat
  w1c : Nat
  wo : Nat
  reset : Nat
  deriving DecidableEq, Repr

/-- A field: its kind of register and its bit range. -/
structure Fld where
  reg : Reg
  hi : Nat
  lo : Nat
  deriving DecidableEq, Repr

/-- The directory. -/
def Reg.info : Reg → RegInfo
  | .BLK_ID => ⟨0, 0x3F, 0, 1, 8, 0xFFFFFF00FFFFFF, 0, 0, 0, 0, 0, 0⟩  -- 19_register_map.md Table 19-5, R664
  | .BLK_STAT => ⟨0, 0x3F, 8, 1, 8, 0x7F7, 0, 0, 0, 0, 0, 0⟩  -- 19_register_map.md Table 19-6
  | .BLK_FAULT => ⟨0, 0x3F, 0x10, 1, 8, 0, 0, 0, 0, 0xFFFFFFFF, 0, 0⟩  -- 19_register_map.md Table 19-4, R560
  | .BLK_FMASK => ⟨0, 0x3F, 0x18, 1, 8, 0, 0xFFFFFFFF, 0, 0, 0, 0, 0⟩  -- 19_register_map.md Table 19-4, R665
  | .BLK_REACT => ⟨0, 0x3F, 0x20, 1, 8, 0, 0, 0xFFFFFFFFFFFFFFFF, 0, 0, 0, 0⟩  -- 19_register_map.md Table 19-4, R247
  | .BLK_GRACE => ⟨0, 0x3F, 0x28, 1, 8, 0, 0, 0xFFFFF, 0, 0, 0, 0x2710⟩  -- 19_register_map.md Table 19-4, R567
  | .BLK_ACK => ⟨0, 0x3F, 0x30, 1, 8, 0, 0, 0, 0, 0, 1, 0⟩  -- 19_register_map.md Table 19-4, R568
  | .BLK_INJ => ⟨0, 0x3F, 0x38, 1, 8, 0x8300000000000000, 0, 0, 0xFF0F, 0, 0, 0⟩  -- 08_start_check.md Table 8-10
  | .BLK_PWR => ⟨0, 0x3F, 0x40, 1, 8, 0xFF00, 2, 1, 0, 0, 0, 0⟩  -- 19_register_map.md Table 19-7
  | .BLK_IRQ => ⟨0, 0x3F, 0x48, 1, 8, 0, 0xF7F, 0, 0, 0, 0, 0⟩  -- 19_register_map.md Table 19-8
  | .BASIN_RET => ⟨0xC, 0xC, 0x80, 1, 8, 0, 0, 0xFFFFFFFF, 0, 0, 0, 0⟩  -- 02_address_space.md Table 2-6
  | .BASIN_SCRUB => ⟨0xC, 0xC, 0x88, 1, 8, 0, 0, 0xFFFFF, 0, 0, 0, 0⟩  -- 02_address_space.md Table 2-7
  | .BASIN_ECC => ⟨0xC, 0xC, 0x90, 1, 8, 0x4000FFFFFFFFFFFF, 0, 0, 0, 0, 0x8000000000000000, 0⟩  -- 02_address_space.md Table 2-8
  | .BASIN_ERR => ⟨0xC, 0xC, 0x98, 1, 8, 0x8000FFFF00FFFFFF, 0, 0, 0, 0, 0, 0⟩  -- 02_address_space.md Table 2-9
  | .MC_CFG => ⟨0xA, 0xB, 0x80, 1, 8, 0xFFFFFFFFFF07, 0, 0x10, 0, 0, 0, 0⟩  -- 02_address_space.md Table 2-10
  | .MC_ECC => ⟨0xA, 0xB, 0x88, 1, 8, 0xFFFFFFFFFFFF, 0, 0, 0, 0, 0x8000000000000000, 0⟩  -- 02_address_space.md Table 2-11
  | .MC_ERR => ⟨0xA, 0xB, 0x90, 1, 8, 0x800000FFFFFFFFFF, 0, 0, 0, 0, 0, 0⟩  -- 02_address_space.md Table 2-12
  | .BERTH_CFG => ⟨0x20, 0x3F, 0x80, 1, 8, 0, 0, 0x7F018F, 0, 0, 0, 0⟩  -- 03_berth_pairs.md Table 3-6
  | .BERTH_STAT => ⟨0x20, 0x3F, 0x88, 1, 8, 0x71FF7F07, 0, 0, 0, 0, 0, 0⟩  -- 03_berth_pairs.md Table 3-7
  | .BERTH_MISM => ⟨0x20, 0x3F, 0x90, 1, 8, 0xF00000000000003F, 0, 0, 0, 0, 0, 0⟩  -- 03_berth_pairs.md Table 3-8
  | .BERTH_MISM_T => ⟨0x20, 0x3F, 0x98, 1, 8, 0xFFFFFFFFFFFFFFFF, 0, 0, 0, 0, 0, 0⟩  -- 03_berth_pairs.md Table 3-9
  | .CRANE_CNT => ⟨0x20, 0x3F, 0xA0, 1, 8, 0xFFFFFFFFFFFF, 0, 0, 0, 0, 0x8000000000000000, 0⟩  -- 03_berth_pairs.md Table 3-10
  | .HOLD_ECC => ⟨0x20, 0x3F, 0xA8, 1, 8, 0xFFFFFFFFFFFF, 0, 0, 0, 0, 0x8000000000000000, 0⟩  -- 03_berth_pairs.md Table 3-11
  | .HOLD_ERR => ⟨0x20, 0x3F, 0xB0, 1, 8, 0xC0000000000FFFFF, 0, 0, 0, 0, 0, 0⟩  -- 03_berth_pairs.md Table 3-12
  | .SEQ_CFG => ⟨0x20, 0x3F, 0x100, 1, 8, 0, 0, 0xFFFFFFFF, 0, 0, 0, 0⟩  -- 04_sequencer_work_orders.md Table 4-16
  | .SEQ_CTL => ⟨0x20, 0x3F, 0x108, 1, 8, 0, 0, 0, 3, 0, 0, 0⟩  -- 04_sequencer_work_orders.md Table 4-17
  | .SEQ_STAT => ⟨0x20, 0x3F, 0x110, 1, 8, 0x7FFFF0000FF07, 0, 0, 0, 0x10000, 0, 0⟩  -- 04_sequencer_work_orders.md Table 4-18
  | .SEQ_FLT => ⟨0x20, 0x3F, 0x118, 1, 8, 0x8FFFFFFFFFFFFFFF, 0, 0, 0, 0, 0, 0⟩  -- 04_sequencer_work_orders.md Table 4-19
  | .WO_ERR => ⟨0x20, 0x3F, 0x120, 1, 8, 0x80FF0000000FFFFF, 0, 0, 0, 0, 0, 0⟩  -- 04_sequencer_work_orders.md Table 4-20
  | .WO_SEQ => ⟨0x20, 0x3F, 0x128, 1, 8, 0xFFFFFFFF, 0, 0, 0, 0, 0, 0⟩  -- 04_sequencer_work_orders.md Table 4-21
  | .FMT_CNT => ⟨0x20, 0x3F, 0x180, 1, 8, 0xFFFFFFFFFFFFFF, 0, 0, 0, 0, 0x8000000000000000, 0⟩  -- 05_number_formats.md Table 5-7
  | .FMC_CNT => ⟨0x20, 0x3F, 0x188, 1, 8, 0xFFFFFFFFFFFFFF, 0, 0, 0, 0, 0x8000000000000000, 0⟩  -- 10_image_operators.md Table 10-7
  | .BERTH_CG => ⟨0x20, 0x3F, 0x1C0, 1, 8, 0xEFFFEFFFEFFFEFFF, 0, 0, 0, 0, 0, 0⟩  -- 09_sensor_intake_commit.md Table 9-12
  | .MSG_Q => ⟨0x20, 0x3F, 0x200, 4, 8, 0, 0, 0x1FFDFFFF07FF7FFF, 0, 0, 0, 0⟩  -- 13_manifests_buoys.md Table 13-13
  | .MSG_QSTAT => ⟨0x20, 0x3F, 0x220, 4, 8, 0x7FF07FF07FF, 0, 0, 0, 0, 0, 0⟩  -- 13_manifests_buoys.md Table 13-12
  | .MSG_CFG => ⟨0x20, 0x3F, 0x240, 1, 8, 0, 0, 0x3FFF, 0, 0, 0, 0x64⟩  -- 13_manifests_buoys.md Table 13-12
  | .MSG_SFLOW => ⟨0x20, 0x3F, 0x280, 16, 8, 0x3007F00000000, 0, 0xFFFFFFFF, 0, 0, 0, 0⟩  -- 13_manifests_buoys.md Table 13-14
  | .MSG_STAT => ⟨0x20, 0x3F, 0x300, 1, 8, 0xFFFF0000FFFFFFFF, 0, 0, 0, 0xF00000000, 0, 0⟩  -- 13_manifests_buoys.md Table 13-15
  | .MSG_ERR => ⟨0x20, 0x3F, 0x308, 1, 8, 0x8FFFFFFFFFFFFF00, 0, 0, 0, 0, 0, 0⟩  -- 13_manifests_buoys.md Table 13-12
  | .PILOT_BOOT => ⟨1, 1, 0x80, 1, 8, 0, 0, 0, 0, 0, 1, 0⟩  -- 06_charts.md Table 6-13
  | .PILOT_CMD => ⟨1, 1, 0x88, 1, 8, 0, 0, 0, 0xF0F, 0, 0, 0⟩  -- 06_charts.md Table 6-14
  | .PILOT_SRC => ⟨1, 1, 0x90, 1, 8, 0, 0xFFFFFFFFFFFF, 0, 0, 0, 0, 0⟩  -- 06_charts.md Table 6-13
  | .PILOT_LEN => ⟨1, 1, 0x98, 1, 8, 0, 0xFFFFFFFF, 0, 0, 0, 0, 0⟩  -- 06_charts.md Table 6-13
  | .PILOT_STAT => ⟨1, 1, 0xA0, 1, 8, 0xFF0F0F0F, 0, 0, 0, 0, 0, 0⟩  -- 06_charts.md Table 6-15
  | .PILOT_FIT => ⟨1, 1, 0xA8, 4, 8, 0x80FFFF00FFFFFFFF, 0, 0, 0, 0, 0, 0⟩  -- 06_charts.md Table 6-16
  | .PILOT_RES => ⟨1, 1, 0xC8, 4, 8, 0xFFFFFFFFFFFFFFFF, 0, 0, 0, 0, 0, 0⟩  -- 06_charts.md Table 6-13
  | .PILOT_DIGEST => ⟨1, 1, 0xE8, 4, 8, 0xFFFFFFFFFFFFFFFF, 0, 0, 0, 0, 0, 0⟩  -- 06_charts.md Table 6-13
  | .PILOT_CHART_ID => ⟨1, 1, 0x108, 1, 8, 0xFFFFFFFFFFFFFFFF, 0, 0, 0, 0, 0, 0⟩  -- 06_charts.md Table 6-13
  | .PILOT_PART => ⟨1, 1, 0x140, 16, 8, 0, 0, 0xFFFF0000FFFF, 0, 0, 0, 0⟩  -- 06_charts.md Table 6-17
  | .HM_STATE => ⟨0, 0, 0x80, 1, 8, 0xFFFFFFFFFFFFFF07, 0, 0, 0, 0, 0, 0⟩  -- 07_sleep_wake_clocks_straps.md Table 7-12
  | .HM_STRAP => ⟨0, 0, 0x88, 1, 8, 0x3FFF, 0, 0, 0, 0, 0, 0⟩  -- 07_sleep_wake_clocks_straps.md Table 7-12, R243
  | .HM_SLEEP => ⟨0, 0, 0x90, 1, 8, 0xF00, 0, 0, 0, 0, 1, 0⟩  -- 07_sleep_wake_clocks_straps.md Table 7-12
  | .HM_WAKE_EN => ⟨0, 0, 0x98, 1, 8, 0x2000, 0x1FDFFF, 0, 0, 0, 0, 0x2000⟩  -- 07_sleep_wake_clocks_straps.md Table 7-12, R263
  | .HM_WAKE_SRC => ⟨0, 0, 0xA0, 1, 8, 0, 0, 0, 0, 0x1FFFFF, 0, 0⟩  -- 07_sleep_wake_clocks_straps.md Table 7-12
  | .HM_DOM_WAKE => ⟨0, 0, 0xA8, 1, 8, 0, 0, 0xFFFFFFFFFFF, 0, 0, 0, 0⟩  -- 07_sleep_wake_clocks_straps.md Table 7-12
  | .HM_DOM_STAT => ⟨0, 0, 0xB0, 1, 8, 0xFFFFFFFFFFF, 0, 0, 0, 0, 0, 0⟩  -- 07_sleep_wake_clocks_straps.md Table 7-12
  | .HM_RESET => ⟨0, 0, 0xB8, 1, 8, 0, 0, 0, 0, 0, 1, 0⟩  -- 07_sleep_wake_clocks_straps.md Table 7-12
  | .HM_SVC => ⟨0, 0, 0xC0, 1, 8, 0, 0, 0, 3, 0, 0, 0⟩  -- 07_sleep_wake_clocks_straps.md Table 7-12
  | .HM_CLK => ⟨0, 0, 0xC8, 1, 8, 0xF01F, 0, 0x3FF0000, 0, 0, 0, 0x300000⟩  -- 07_sleep_wake_clocks_straps.md Table 7-13
  | .HM_HU_CFG0 => ⟨0, 0, 0xD0, 1, 8, 0, 0, 0xFFFFFFFFFFFFFFFF, 0, 0, 0, 0x140000001000000⟩  -- 07_sleep_wake_clocks_straps.md Table 7-14
  | .HM_HU_CFG1 => ⟨0, 0, 0xD8, 1, 8, 0, 0, 0xFFFFFFFFFFFFFFFF, 0, 0, 0, 0x64000A0000000000⟩  -- 07_sleep_wake_clocks_straps.md Table 7-15
  | .HM_HU_MEAS => ⟨0, 0, 0xE0, 1, 8, 0x1FFFFFFFFFFFFF, 0, 0, 0, 0, 0, 0⟩  -- 07_sleep_wake_clocks_straps.md Table 7-12
  | .HM_BOOTREC => ⟨0, 0, 0xE8, 1, 8, 0xFF000B, 0, 0, 0, 0, 0, 0⟩  -- 07_sleep_wake_clocks_straps.md Table 7-12
  | .HM_SC_STAT => ⟨0, 0, 0x100, 1, 8, 0xFFFFFF00F007, 0, 0, 0, 0, 0, 0⟩  -- 08_start_check.md Table 8-7
  | .HM_SC_CORE => ⟨0, 0, 0x108, 1, 8, 0xFFFF, 0, 0, 0, 0, 0, 0⟩  -- 08_start_check.md Table 8-8
  | .HM_SC_BERTH => ⟨0, 0, 0x110, 1, 8, 0xFFFFFFFF, 0, 0, 0, 0, 0, 0⟩  -- 08_start_check.md Table 8-9
  | .HM_SC_LH => ⟨0, 0, 0x118, 1, 8, 0xFFFFFFFFFFFFFFFF, 0, 0, 0, 0, 0, 0⟩  -- 08_start_check.md Table 8-9
  | .HM_SC_GRACE => ⟨0, 0, 0x120, 1, 8, 0xFFFFFFFF000FFFFF, 0, 0, 0, 0, 0, 0⟩  -- 08_start_check.md Table 8-9
  | .HM_MISM => ⟨0, 0, 0x140, 1, 8, 0xF00000000000003F, 0, 0, 0, 0, 0, 0⟩  -- 15_fault_detection.md Table 15-6
  | .HM_CLKMON => ⟨0, 0, 0x148, 1, 8, 0x80000000FFFF0007, 0, 0, 0, 0, 0, 0⟩  -- 15_fault_detection.md Table 15-6
  | .HM_REGPAR => ⟨0, 0, 0x150, 1, 8, 0x800000000000013F, 0, 0, 0, 0, 0, 0⟩  -- 15_fault_detection.md Table 15-6
  | .HM_SAFE => ⟨0, 0, 0x160, 1, 8, 0, 0, 0, 0, 0, 1, 0⟩  -- 16_fault_reaction_logbook.md Table 16-11
  | .HM_SAFE_STAT => ⟨0, 0, 0x168, 1, 8, 0xFFFF03, 0, 0, 0, 0, 0, 0⟩  -- 16_fault_reaction_logbook.md Table 16-11
  | .HM_SAFE_T => ⟨0, 0, 0x170, 1, 8, 0xFFFFFFFFFFFFFFFF, 0, 0, 0, 0, 0, 0⟩  -- 16_fault_reaction_logbook.md Table 16-11
  | .PRES_STAT => ⟨0, 0, 0x180, 1, 8, 0xFFFF0FFF000F, 0, 0, 0, 0, 0, 0⟩  -- 17_person_presence.md Table 17-6
  | .PRES_CFG => ⟨0, 0, 0x188, 1, 8, 0, 0, 0xFFF, 0, 0, 0, 0x258⟩  -- 17_person_presence.md Table 17-6, R603
  | .WAKE_POL => ⟨0, 0, 0x190, 1, 8, 0, 0, 0xF, 0, 0, 0, 0⟩  -- 17_person_presence.md Table 17-6
  | .WAKE_STUCK => ⟨0, 0, 0x198, 1, 8, 0, 0, 0xFFFFFFFFFFFFFFFF, 0, 0, 0, 0⟩  -- 17_person_presence.md Table 17-6
  | .IN_STAT => ⟨0, 0, 0x1A0, 1, 8, 0x1F1F7F, 0, 0, 0, 0, 0, 0⟩  -- 17_person_presence.md Table 17-6
  | .IN_CNT => ⟨0, 0, 0x1A8, 1, 8, 0xFFFFFFFFFF, 0, 0, 0, 0, 0x8000000000000000, 0⟩  -- 17_person_presence.md Table 17-6
  | .ESTOP_STAT => ⟨0, 0, 0x1B0, 1, 8, 0xFFFF0000000F, 0, 0, 0, 0, 0, 0⟩  -- 17_person_presence.md Table 17-6
  | .ESTOP_T => ⟨0, 0, 0x1B8, 1, 8, 0xFFFFFFFFFFFFFFFF, 0, 0, 0, 0, 0, 0⟩  -- 17_person_presence.md Table 17-6
  | .TOUCH_CFG => ⟨0, 0, 0x1C0, 1, 8, 0, 0, 0xFFFFFF00FF, 0, 0, 0, 0⟩  -- 17_person_presence.md Table 17-6
  | .TOUCH_STAT => ⟨0, 0, 0x1C8, 1, 8, 0xFFFF, 0, 0, 0, 0, 0, 0⟩  -- 17_person_presence.md Table 17-6
  | .TOUCH_PAD => ⟨0, 0, 0x200, 8, 8, 0xFFFFFFFFFFFF, 0, 0, 0, 0, 0, 0⟩  -- 17_person_presence.md Table 17-6
  | .TIDE_NOW => ⟨2, 2, 0x80, 1, 8, 0xFFFFFFFFFFFFFFFF, 0, 0, 0, 0, 0, 0⟩  -- 07_sleep_wake_clocks_straps.md Table 7-12
  | .TIDE_SET => ⟨2, 2, 0x88, 1, 8, 0, 0, 0xFFFFFFFFFFFFFFFF, 0, 0, 0, 0⟩  -- 07_sleep_wake_clocks_straps.md Table 7-12, R274
  | .TIDE_ALARM => ⟨2, 2, 0x90, 1, 8, 0, 0xFFFFFFFFFFFFFFFF, 0, 0, 0, 0, 0⟩  -- 07_sleep_wake_clocks_straps.md Table 7-12
  | .TIDE_CFG => ⟨2, 2, 0x98, 1, 8, 0, 0, 1, 0, 0, 0, 0⟩  -- 07_sleep_wake_clocks_straps.md Table 7-12
  | .TIDE_STAT => ⟨2, 2, 0xA0, 1, 8, 0xFFFFFFFF003F0703, 0, 0, 0, 0, 0, 0⟩  -- 07_sleep_wake_clocks_straps.md Table 7-16
  | .LOG_STAT => ⟨3, 3, 0x80, 1, 8, 0xFFFFFFFFFFFFFFFF, 0, 0, 0, 0, 0, 0⟩  -- 16_fault_reaction_logbook.md Table 16-12
  | .LOG_RD_IDX => ⟨3, 3, 0x88, 1, 8, 0, 0x107FF, 0, 0, 0, 0, 0⟩  -- 16_fault_reaction_logbook.md Table 16-12
  | .LOG_RD => ⟨3, 3, 0x90, 4, 8, 0xFFFFFFFFFFFFFFFF, 0, 0, 0, 0, 0, 0⟩  -- 16_fault_reaction_logbook.md Table 16-12
  | .LOG_MIR => ⟨3, 3, 0xB0, 1, 8, 0, 0, 0xFFFFFFFF, 0, 0, 0, 0⟩  -- 16_fault_reaction_logbook.md Table 16-12
  | .LOG_NV => ⟨3, 3, 0xB8, 1, 8, 0, 0, 0xFFFFFFFFFFFFFFFF, 0, 0, 0, 0⟩  -- 16_fault_reaction_logbook.md Table 16-12
  | .LOG_CTL => ⟨3, 3, 0xC0, 1, 8, 0, 0, 0, 0, 0, 1, 0⟩  -- 16_fault_reaction_logbook.md Table 16-12
  | .LOG_CLEAR => ⟨3, 3, 0xC8, 1, 8, 0, 0, 0, 1, 0, 0, 0⟩  -- 16_fault_reaction_logbook.md Table 16-12, R586
  | .LOG_MSTAT => ⟨3, 3, 0xD0, 1, 8, 0x1FFFFFFFFF, 0, 0, 0, 0, 0, 0⟩  -- 16_fault_reaction_logbook.md Table 16-12
  | .QUAY_CFG => ⟨4, 7, 0x80, 1, 8, 0, 0, 0x7F, 0, 0, 0, 0⟩  -- 14_zenier_mesh.md Table 14-12
  | .QUAY_VC => ⟨4, 7, 0x88, 1, 8, 0, 0, 0xFFFFFFFFFFFF, 0, 0, 0, 0x103030301010⟩  -- 14_zenier_mesh.md Table 14-12, R489
  | .QUAY_STAT => ⟨4, 7, 0x90, 1, 8, 0x1FFFFFFFF03FF, 0, 0, 0, 0, 0, 0⟩  -- 14_zenier_mesh.md Table 14-12
  | .QUAY_CNT => ⟨4, 7, 0x98, 1, 8, 0xFFFFFFFFFFFFFFFF, 0, 0, 0, 0, 0, 0⟩  -- 14_zenier_mesh.md Table 14-12
  | .QUAY_CTL => ⟨4, 7, 0xA0, 1, 8, 0, 0, 0, 0, 0, 7, 0⟩  -- 14_zenier_mesh.md Table 14-12
  | .QUAY_LOSS => ⟨4, 7, 0xA8, 1, 8, 0xFFFFFFFFFFFFFFFF, 0, 0, 0, 0, 0, 0⟩  -- 14_zenier_mesh.md Table 14-12
  | .MESH_ORIGIN => ⟨9, 9, 0x80, 1, 8, 0, 0, 0x7FFF, 0, 0, 0, 0⟩  -- 14_zenier_mesh.md Table 14-13
  | .ROUTE_DOM => ⟨9, 9, 0x88, 1, 8, 0, 0xFFFFFFFFFFFFFFFF, 0, 0, 0, 0, 0⟩  -- 14_zenier_mesh.md Table 14-13
  | .ROUTE_STAT => ⟨9, 9, 0x90, 1, 8, 0xFFFFFFFFFFFF7FFF, 0, 0, 0, 0, 0, 0⟩  -- 14_zenier_mesh.md Table 14-13
  | .ROUTE_REG => ⟨9, 9, 0x100, 16, 8, 0, 0x80000001FFFFFFFF, 0, 0, 0, 0, 0⟩  -- 14_zenier_mesh.md Table 14-13
  | .LT_STAT => ⟨8, 8, 0x80, 1, 8, 0xF7F77F, 0, 0, 0, 0, 0, 0⟩  -- 14_zenier_mesh.md Table 14-14
  | .LT_RELEASE => ⟨8, 8, 0x88, 1, 8, 0, 0, 0, 0, 0, 0xFFFFFFFFFFFF, 0⟩  -- 14_zenier_mesh.md Table 14-14, R519
  | .LT_CNT => ⟨8, 8, 0x90, 1, 8, 0xFFFFFFFFFFFFFFFF, 0, 0, 0, 0, 0, 0⟩  -- 14_zenier_mesh.md Table 14-14
  | .LT_POOL_BASE => ⟨8, 8, 0x100, 4, 0x10, 0, 0, 0xFFFFFFFFFFFF, 0, 0, 0, 0⟩  -- 14_zenier_mesh.md Table 14-14
  | .LT_POOL_GEO => ⟨8, 8, 0x108, 4, 0x10, 0xFFFF00000000, 0, 0x800000000FFF001F, 0, 0, 0, 0⟩  -- 14_zenier_mesh.md Table 14-14
  | .LT_RDONE => ⟨8, 8, 0x400, 37, 8, 0xFFFFFFFF, 0, 0, 0, 0, 0, 0⟩  -- 14_zenier_mesh.md Table 14-14
  | .LH_FIRED => ⟨0x12, 0x12, 0x80, 1, 8, 0, 0, 0, 0, 0xFFFFFFFFFFFFFFFF, 0, 0⟩  -- 15_fault_detection.md Table 15-6
  | .LH_ARMED => ⟨0x12, 0x12, 0x88, 1, 8, 0xFFFFFFFFFFFFFFFF, 0, 0, 0, 0, 0, 0⟩  -- 15_fault_detection.md Table 15-6
  | .LH_UNUSABLE => ⟨0x12, 0x12, 0x90, 1, 8, 0xFFFFFFFFFFFFFFFF, 0, 0, 0, 0, 0, 0⟩  -- 15_fault_detection.md Table 15-6
  | .LH_CFG => ⟨0x12, 0x12, 0x100, 64, 0x40, 0, 0, 0xCF00FFFFFFFFFFFF, 0, 0, 0, 0⟩  -- 15_fault_detection.md Table 15-7
  | .LH_LIM => ⟨0x12, 0x12, 0x108, 64, 0x40, 0, 0, 0xFFFFFFFFFFFFFFFF, 0, 0, 0, 0⟩  -- 15_fault_detection.md Table 15-8
  | .LH_STAMP => ⟨0x12, 0x12, 0x110, 64, 0x40, 0xFFFFFFFFFFFFFFFF, 0, 0, 0, 0, 0, 0⟩  -- 15_fault_detection.md Table 15-6
  | .LH_ARRIVE => ⟨0x12, 0x12, 0x118, 64, 0x40, 0xFFFFFFFFFFFFFFFF, 0, 0, 0, 0, 0, 0⟩  -- 15_fault_detection.md Table 15-6
  | .LH_STAT => ⟨0x12, 0x12, 0x120, 64, 0x40, 0xFFFF0277, 0, 0, 0, 0x100, 0, 0⟩  -- 15_fault_detection.md Table 15-9
  | .SO_CFG => ⟨0x13, 0x13, 0x80, 1, 8, 0, 0, 0x1F03FF, 0, 0, 0, 0⟩  -- 16_fault_reaction_logbook.md Table 16-10
  | .SO_CMD => ⟨0x13, 0x13, 0x88, 1, 8, 0, 0xF, 0, 0, 0, 0, 0⟩  -- 16_fault_reaction_logbook.md Table 16-10
  | .SO_STAT => ⟨0x13, 0x13, 0x90, 1, 8, 0xFFFF, 0, 0, 0, 0, 0, 0⟩  -- 16_fault_reaction_logbook.md Table 16-10
  | .SO_REQ => ⟨0x13, 0x13, 0x98, 1, 8, 0xFFFFFFFF003FFFFF, 0, 0, 0, 0, 0, 0⟩  -- 16_fault_reaction_logbook.md Table 16-10
  | .RX_CFG => ⟨0xD, 0xD, 0x80, 8, 8, 0, 0, 0xFFF0007, 0, 0, 0, 0⟩  -- 09_sensor_intake_commit.md Table 9-9
  | .RX_STAT => ⟨0xD, 0xD, 0xC0, 8, 8, 0xFFFFFFFFFFFFFFFF, 0, 0, 0, 0, 0, 0⟩  -- 09_sensor_intake_commit.md Table 9-9
  | .STREAM_CFG => ⟨0xD, 0xD, 0x100, 16, 0x40, 0, 0, 0xFFFFE3FF00000000, 0, 0, 0, 0⟩  -- 09_sensor_intake_commit.md Table 9-10
  | .STREAM_SHAPE => ⟨0xD, 0xD, 0x108, 16, 0x40, 0, 0, 0xFFFFFFFFFF, 0, 0, 0, 0⟩  -- 09_sensor_intake_commit.md Table 9-9
  | .STREAM_RING => ⟨0xD, 0xD, 0x110, 16, 0x40, 0, 0, 0xFF1FFFFFFFFFFFFF, 0, 0, 0, 0⟩  -- 09_sensor_intake_commit.md Table 9-9
  | .STREAM_CONS => ⟨0xD, 0xD, 0x118, 16, 0x40, 0, 0, 0x3FFFFFFFF, 0, 0, 0, 0⟩  -- 09_sensor_intake_commit.md Table 9-9
  | .STREAM_STAT => ⟨0xD, 0xD, 0x120, 16, 0x40, 0xFFFFFFFFFFFFFFFB, 0, 0, 0, 4, 0, 0⟩  -- 09_sensor_intake_commit.md Table 9-11
  | .STREAM_CNT => ⟨0xD, 0xD, 0x128, 16, 0x40, 0xFFFFFFFFFFFFFFFF, 0, 0, 0, 0, 0, 0⟩  -- 09_sensor_intake_commit.md Table 9-9
  | .STREAM_CLAIM => ⟨0xD, 0xD, 0x130, 16, 0x40, 0x800F0000FFFFFFFF, 0, 0, 0, 0, 0, 0⟩  -- 09_sensor_intake_commit.md Table 9-9
  | .STREAM_FILT => ⟨0xD, 0xD, 0x138, 16, 0x40, 0, 0, 0xFFFFFFFFFFFFFFFF, 0, 0, 0, 0⟩  -- 09_sensor_intake_commit.md Table 9-9
  | .FSYNC_START => ⟨0xD, 0xD, 0x500, 8, 0x10, 0, 0xFFFFFFFFFFFFFFFF, 0, 0, 0, 0, 0⟩  -- 09_sensor_intake_commit.md Table 9-9
  | .FSYNC_PER => ⟨0xD, 0xD, 0x508, 8, 0x10, 0, 0xFFFFFFFFFFFFFFFF, 0, 0, 0, 0, 0⟩  -- 09_sensor_intake_commit.md Table 9-9
  | .STREAM_REL => ⟨0xD, 0xD, 0x580, 16, 0x40, 0, 0, 0, 0, 0, 0x800000000000001F, 0⟩  -- 09_sensor_intake_commit.md Table 9-9
  | .KV_CFG => ⟨0xE, 0xE, 0x80, 1, 8, 0, 0, 0x3FFFFFFFFFFFFFF, 0, 0, 0, 0⟩  -- 11_attention_wharfinger.md Table 11-12
  | .KV_STAT => ⟨0xE, 0xE, 0x88, 1, 8, 0x37, 0, 0, 0, 0, 0, 0⟩  -- 11_attention_wharfinger.md Table 11-12
  | .KV_HCMD0 => ⟨0xE, 0xE, 0x90, 1, 8, 0, 0xFFFFFFFFFFFFFFFF, 0, 0, 0, 0, 0⟩  -- 11_attention_wharfinger.md Table 11-12
  | .KV_HCMD1 => ⟨0xE, 0xE, 0x98, 1, 8, 0, 0, 0, 0, 0, 0xFFFFFFFFFFFFFFFF, 0⟩  -- 11_attention_wharfinger.md Table 11-12
  | .KV_HRESP => ⟨0xE, 0xE, 0xA0, 1, 8, 0x800FFFFFFFFFFFFF, 0, 0, 0, 0, 0, 0⟩  -- 11_attention_wharfinger.md Table 11-12
  | .KV_CNT => ⟨0xE, 0xE, 0xA8, 1, 8, 0xFFFFFFFFFFFF, 0, 0, 0, 0, 0x8000000000000000, 0⟩  -- 11_attention_wharfinger.md Table 11-14
  | .KV_ERR => ⟨0xE, 0xE, 0xB0, 1, 8, 0x8F000FFFFFFFFFFF, 0, 0, 0, 0, 0, 0⟩  -- 11_attention_wharfinger.md Table 11-12
  | .KV_POOL_CFG => ⟨0xE, 0xE, 0x100, 4, 0x40, 0, 0, 0xE000000FFFFF0FFF, 0, 0, 0, 0⟩  -- 11_attention_wharfinger.md Table 11-13
  | .KV_POOL_QUANT => ⟨0xE, 0xE, 0x108, 4, 0x40, 0, 0, 0x3FFFFFFFFFFFFF, 0, 0, 0, 0⟩  -- 11_attention_wharfinger.md Table 11-12
  | .KV_POOL_MEM => ⟨0xE, 0xE, 0x110, 4, 0x40, 0, 0, 0xFFFFFFFFFFFF, 0, 0, 0, 0⟩  -- 11_attention_wharfinger.md Table 11-12
  | .KV_POOL_PAGES => ⟨0xE, 0xE, 0x118, 4, 0x40, 0, 0, 0x1FFFFFFFF, 0, 0, 0, 0⟩  -- 11_attention_wharfinger.md Table 11-12
  | .KV_POOL_SEQ => ⟨0xE, 0xE, 0x120, 4, 0x40, 0, 0, 0x7FFFF3FF1FFF0FFF, 0, 0, 0, 0⟩  -- 11_attention_wharfinger.md Table 11-12
  | .KV_POOL_NV => ⟨0xE, 0xE, 0x128, 4, 0x40, 0, 0, 0xFFFFFFFFFFFFFFFF, 0, 0, 0, 0⟩  -- 11_attention_wharfinger.md Table 11-12
  | .KV_POOL_STAT => ⟨0xE, 0xE, 0x130, 4, 0x40, 0xFFFFFFFF8001FFFF, 0, 0, 0, 0, 0, 0⟩  -- 11_attention_wharfinger.md Table 11-12
  | .DRG_STAT => ⟨0xF, 0xF, 0x80, 1, 8, 0xFFFFFFFF0077, 0, 0, 0, 0, 0, 0⟩  -- 12_dredger.md Table 12-11
  | .DRG_HCMD0 => ⟨0xF, 0xF, 0x88, 1, 8, 0, 0xFFFFFFFFFFFFFFFF, 0, 0, 0, 0, 0⟩  -- 12_dredger.md Table 12-11
  | .DRG_HCMD1 => ⟨0xF, 0xF, 0x90, 1, 8, 0, 0, 0, 0, 0, 0xFFFFFFFFFFFFFFFF, 0⟩  -- 12_dredger.md Table 12-11
  | .DRG_HRESP => ⟨0xF, 0xF, 0x98, 1, 8, 0xFFFF0000FFFFFFFF, 0, 0, 0, 0, 0, 0⟩  -- 12_dredger.md Table 12-11
  | .DRG_CNT => ⟨0xF, 0xF, 0xA0, 1, 8, 0xFFFFFFFFFFFFFF, 0, 0, 0, 0, 0x8000000000000000, 0⟩  -- 12_dredger.md Table 12-11
  | .DRG_ERR => ⟨0xF, 0xF, 0xA8, 1, 8, 0xFFFFFFFFFFFFFFFF, 0, 0, 0, 0, 0, 0⟩  -- 12_dredger.md Table 12-11
  | .DRG_SLOT_CFG => ⟨0xF, 0xF, 0x100, 8, 0x40, 0, 0, 0xC000000FFFFFFFFF, 0, 0, 0, 0⟩  -- 12_dredger.md Table 12-11
  | .DRG_SLOT_TEMP => ⟨0xF, 0xF, 0x108, 8, 0x40, 0, 0, 0xFFFFFFFFFFFFFFFF, 0, 0, 0, 0⟩  -- 12_dredger.md Table 12-11
  | .DRG_SLOT_TMIN => ⟨0xF, 0xF, 0x110, 8, 0x40, 0, 0, 0xFFFFFFFFFFFFFFFF, 0, 0, 0, 0⟩  -- 12_dredger.md Table 12-11
  | .DRG_SLOT_OFF => ⟨0xF, 0xF, 0x118, 8, 0x40, 0, 0, 0xFFFFFFFFFFFFFFFF, 0, 0, 0, 0⟩  -- 12_dredger.md Table 12-11
  | .DRG_SLOT_STAT => ⟨0xF, 0xF, 0x120, 8, 0x40, 0xFFFFFFFF000001F7, 0, 0, 0, 0, 0, 0⟩  -- 12_dredger.md Table 12-11
  | .DRG_SLOT_DESC => ⟨0xF, 0xF, 0x128, 8, 0x40, 0xFFFFFFFFFFFF, 0, 0, 0, 0, 0, 0⟩  -- 12_dredger.md Table 12-11
  | .HOST_CFG => ⟨0x10, 0x10, 0x80, 1, 8, 0, 0, 0xF07F7, 0, 0, 0, 0⟩  -- 18_host_field_interfaces.md Table 18-9
  | .HOST_WIN => ⟨0x10, 0x10, 0x88, 1, 8, 0, 0xFFFF, 0, 0, 0, 0, 0⟩  -- 18_host_field_interfaces.md Table 18-9
  | .HOST_STAT => ⟨0x10, 0x10, 0x90, 1, 8, 0x7F0FFF, 0, 0, 0, 0, 0, 0⟩  -- 18_host_field_interfaces.md Table 18-9
  | .HOST_ERR => ⟨0x10, 0x10, 0x98, 1, 8, 0xBF00FFFFFFFFFFFF, 0, 0, 0, 0, 0, 0⟩  -- 18_host_field_interfaces.md Table 18-9
  | .HOST_CNT => ⟨0x10, 0x10, 0xA0, 1, 8, 0xFFFFFFFFFFFFFFFF, 0, 0, 0, 0, 0, 0⟩  -- 18_host_field_interfaces.md Table 18-9
  | .HOST_DBG => ⟨0x10, 0x10, 0xA8, 1, 8, 2, 0, 0, 1, 4, 0, 0⟩  -- 18_host_field_interfaces.md Table 18-9
  | .CAN_CFG => ⟨0x11, 0x11, 0x100, 4, 0x40, 0, 0, 0x1F, 0, 0, 0, 0⟩  -- 18_host_field_interfaces.md Table 18-10
  | .CAN_NBT => ⟨0x11, 0x11, 0x108, 4, 0x40, 0, 0, 0xFFFFFFFF, 0, 0, 0, 0⟩  -- 18_host_field_interfaces.md Table 18-10
  | .CAN_DBT => ⟨0x11, 0x11, 0x110, 4, 0x40, 0, 0, 0x7FFFFFF, 0, 0, 0, 0⟩  -- 18_host_field_interfaces.md Table 18-10
  | .CAN_STAT => ⟨0x11, 0x11, 0x118, 4, 0x40, 0xFFFF00FFFF03, 0, 0, 0, 0, 0, 0⟩  -- 18_host_field_interfaces.md Table 18-10
  | .CAN_FULL => ⟨0x11, 0x11, 0x120, 4, 0x40, 0, 0, 0, 0, 0xFFFFFFFFFFFFFFFF, 0, 0⟩  -- 18_host_field_interfaces.md Table 18-10
  | .CAN_PEND => ⟨0x11, 0x11, 0x128, 4, 0x40, 0, 0xFFFFFFFFFFFFFFFF, 0, 0, 0, 0, 0⟩  -- 18_host_field_interfaces.md Table 18-10
  | .ETH_CFG => ⟨0x11, 0x11, 0x300, 2, 0x40, 0, 0, 0x77, 0, 0, 0, 0⟩  -- 18_host_field_interfaces.md Table 18-10
  | .ETH_ADDR => ⟨0x11, 0x11, 0x308, 2, 0x40, 0, 0, 0xFFFFFFFFFFFF, 0, 0, 0, 0⟩  -- 18_host_field_interfaces.md Table 18-10
  | .ETH_RX => ⟨0x11, 0x11, 0x310, 2, 0x40, 0, 0, 0xFFFFFFFFFFFFFF, 0, 0, 0, 0⟩  -- 18_host_field_interfaces.md Table 18-10
  | .ETH_TX => ⟨0x11, 0x11, 0x318, 2, 0x40, 0, 0, 0xFFFFFFFFFFFFFF, 0, 0, 0, 0⟩  -- 18_host_field_interfaces.md Table 18-10
  | .ETH_KICK => ⟨0x11, 0x11, 0x320, 2, 0x40, 0, 0, 0, 0, 0, 1, 0⟩  -- 18_host_field_interfaces.md Table 18-10
  | .ETH_STAT => ⟨0x11, 0x11, 0x328, 2, 0x40, 0xFFFFFFFF0007, 0, 0, 0, 0, 0, 0⟩  -- 18_host_field_interfaces.md Table 18-10
  | .ETH_MDIO => ⟨0x11, 0x11, 0x330, 2, 0x40, 0, 0xFFFF0FFF, 0, 0, 0, 0, 0⟩  -- 18_host_field_interfaces.md Table 18-10
  | .XSPI_CFG => ⟨0x11, 0x11, 0x600, 1, 8, 0, 0, 0xFF0F, 0, 0, 0, 0⟩  -- 18_host_field_interfaces.md Table 18-10
  | .XSPI_CMD0 => ⟨0x11, 0x11, 0x608, 1, 8, 0, 0xFFFFFFFFF, 0, 0, 0, 0, 0⟩  -- 18_host_field_interfaces.md Table 18-10
  | .XSPI_CMD1 => ⟨0x11, 0x11, 0x610, 1, 8, 0, 0, 0, 0, 0, 0xFFFFFFFFFFFF, 0⟩  -- 18_host_field_interfaces.md Table 18-10
  | .XSPI_LEN => ⟨0x11, 0x11, 0x618, 1, 8, 0, 0x1FFFFFF, 0, 0, 0, 0, 0⟩  -- 18_host_field_interfaces.md Table 18-10
  | .XSPI_STAT => ⟨0x11, 0x11, 0x620, 1, 8, 0xF3, 0, 0, 0, 0, 0, 0⟩  -- 18_host_field_interfaces.md Table 18-10
  | .SPIC_CFG => ⟨0x11, 0x11, 0x700, 4, 0x40, 0, 0, 0x1FF03, 0, 0, 0, 0⟩  -- 18_host_field_interfaces.md Table 18-10
  | .SPIC_TX => ⟨0x11, 0x11, 0x708, 4, 0x40, 0, 0xFFFFFFFFFFFFFFF, 0, 0, 0, 0, 0⟩  -- 18_host_field_interfaces.md Table 18-10
  | .SPIC_RX => ⟨0x11, 0x11, 0x710, 4, 0x40, 0, 0xFFFFFFFFFFFF, 0, 0, 0, 0, 0⟩  -- 18_host_field_interfaces.md Table 18-10
  | .SPIC_TRIG => ⟨0x11, 0x11, 0x718, 4, 0x40, 0, 0xFFFFFFFFFFFFFFFF, 0, 0, 0, 0, 0⟩  -- 18_host_field_interfaces.md Table 18-10
  | .SPIC_STAT => ⟨0x11, 0x11, 0x720, 4, 0x40, 0xFFFFFFFF000000F1, 0, 0, 0, 0, 0, 0⟩  -- 18_host_field_interfaces.md Table 18-10
  | .UART_CFG => ⟨0x11, 0x11, 0x800, 1, 8, 0, 0, 0x3FFFFFF, 0, 0, 0, 0⟩  -- 18_host_field_interfaces.md Table 18-10
  | .UART_DATA => ⟨0x11, 0x11, 0x808, 1, 8, 0x100, 0xFF, 0, 0, 0, 0, 0⟩  -- 18_host_field_interfaces.md Table 18-10
  | .UART_STAT => ⟨0x11, 0x11, 0x810, 1, 8, 0x3FF7F, 0, 0, 0, 0, 0, 0⟩  -- 18_host_field_interfaces.md Table 18-10
  | .GPIO_DIR => ⟨0x11, 0x11, 0x840, 1, 8, 0, 0, 0xFFFF, 0, 0, 0, 0⟩  -- 18_host_field_interfaces.md Table 18-10
  | .GPIO_OUT => ⟨0x11, 0x11, 0x848, 1, 8, 0, 0xFFFF, 0, 0, 0, 0, 0⟩  -- 18_host_field_interfaces.md Table 18-10
  | .GPIO_IN => ⟨0x11, 0x11, 0x850, 1, 8, 0xFFFF, 0, 0, 0, 0, 0, 0⟩  -- 18_host_field_interfaces.md Table 18-10

/-- The register kinds, part 1 of the directory. -/
def Reg.part1 : List Reg := [
  .BLK_ID, .BLK_STAT, .BLK_FAULT, .BLK_FMASK, .BLK_REACT, .BLK_GRACE, .BLK_ACK, .BLK_INJ, .BLK_PWR, .BLK_IRQ,
  .BASIN_RET, .BASIN_SCRUB, .BASIN_ECC, .BASIN_ERR, .MC_CFG, .MC_ECC, .MC_ERR, .BERTH_CFG, .BERTH_STAT,
  .BERTH_MISM, .BERTH_MISM_T, .CRANE_CNT, .HOLD_ECC, .HOLD_ERR, .SEQ_CFG, .SEQ_CTL, .SEQ_STAT, .SEQ_FLT,
  .WO_ERR, .WO_SEQ, .FMT_CNT, .FMC_CNT, .BERTH_CG, .MSG_Q, .MSG_QSTAT, .MSG_CFG, .MSG_SFLOW, .MSG_STAT,
  .MSG_ERR, .PILOT_BOOT]

/-- The register kinds, part 2 of the directory. -/
def Reg.part2 : List Reg := [
  .PILOT_CMD, .PILOT_SRC, .PILOT_LEN, .PILOT_STAT, .PILOT_FIT, .PILOT_RES, .PILOT_DIGEST, .PILOT_CHART_ID,
  .PILOT_PART, .HM_STATE, .HM_STRAP, .HM_SLEEP, .HM_WAKE_EN, .HM_WAKE_SRC, .HM_DOM_WAKE, .HM_DOM_STAT,
  .HM_RESET, .HM_SVC, .HM_CLK, .HM_HU_CFG0, .HM_HU_CFG1, .HM_HU_MEAS, .HM_BOOTREC, .HM_SC_STAT, .HM_SC_CORE,
  .HM_SC_BERTH, .HM_SC_LH, .HM_SC_GRACE, .HM_MISM, .HM_CLKMON, .HM_REGPAR, .HM_SAFE, .HM_SAFE_STAT, .HM_SAFE_T,
  .PRES_STAT, .PRES_CFG, .WAKE_POL, .WAKE_STUCK, .IN_STAT, .IN_CNT]

/-- The register kinds, part 3 of the directory. -/
def Reg.part3 : List Reg := [
  .ESTOP_STAT, .ESTOP_T, .TOUCH_CFG, .TOUCH_STAT, .TOUCH_PAD, .TIDE_NOW, .TIDE_SET, .TIDE_ALARM, .TIDE_CFG,
  .TIDE_STAT, .LOG_STAT, .LOG_RD_IDX, .LOG_RD, .LOG_MIR, .LOG_NV, .LOG_CTL, .LOG_CLEAR, .LOG_MSTAT, .QUAY_CFG,
  .QUAY_VC, .QUAY_STAT, .QUAY_CNT, .QUAY_CTL, .QUAY_LOSS, .MESH_ORIGIN, .ROUTE_DOM, .ROUTE_STAT, .ROUTE_REG,
  .LT_STAT, .LT_RELEASE, .LT_CNT, .LT_POOL_BASE, .LT_POOL_GEO, .LT_RDONE, .LH_FIRED, .LH_ARMED, .LH_UNUSABLE,
  .LH_CFG, .LH_LIM, .LH_STAMP]

/-- The register kinds, part 4 of the directory. -/
def Reg.part4 : List Reg := [
  .LH_ARRIVE, .LH_STAT, .SO_CFG, .SO_CMD, .SO_STAT, .SO_REQ, .RX_CFG, .RX_STAT, .STREAM_CFG, .STREAM_SHAPE,
  .STREAM_RING, .STREAM_CONS, .STREAM_STAT, .STREAM_CNT, .STREAM_CLAIM, .STREAM_FILT, .FSYNC_START, .FSYNC_PER,
  .STREAM_REL, .KV_CFG, .KV_STAT, .KV_HCMD0, .KV_HCMD1, .KV_HRESP, .KV_CNT, .KV_ERR, .KV_POOL_CFG,
  .KV_POOL_QUANT, .KV_POOL_MEM, .KV_POOL_PAGES, .KV_POOL_SEQ, .KV_POOL_NV, .KV_POOL_STAT, .DRG_STAT,
  .DRG_HCMD0, .DRG_HCMD1, .DRG_HRESP, .DRG_CNT, .DRG_ERR, .DRG_SLOT_CFG]

/-- The register kinds, part 5 of the directory. -/
def Reg.part5 : List Reg := [
  .DRG_SLOT_TEMP, .DRG_SLOT_TMIN, .DRG_SLOT_OFF, .DRG_SLOT_STAT, .DRG_SLOT_DESC, .HOST_CFG, .HOST_WIN,
  .HOST_STAT, .HOST_ERR, .HOST_CNT, .HOST_DBG, .CAN_CFG, .CAN_NBT, .CAN_DBT, .CAN_STAT, .CAN_FULL, .CAN_PEND,
  .ETH_CFG, .ETH_ADDR, .ETH_RX, .ETH_TX, .ETH_KICK, .ETH_STAT, .ETH_MDIO, .XSPI_CFG, .XSPI_CMD0, .XSPI_CMD1,
  .XSPI_LEN, .XSPI_STAT, .SPIC_CFG, .SPIC_TX, .SPIC_RX, .SPIC_TRIG, .SPIC_STAT, .UART_CFG, .UART_DATA,
  .UART_STAT, .GPIO_DIR, .GPIO_OUT, .GPIO_IN]

/-- Every register kind. -/
def Reg.all : List Reg :=
  Reg.part1 ++ Reg.part2 ++ Reg.part3 ++ Reg.part4 ++ Reg.part5

namespace F

-- BLK_ID (19_register_map.md Table 19-5, R664)
def BLK_ID_CHIP : Fld := ⟨.BLK_ID, 55, 48⟩
def BLK_ID_DEVICE : Fld := ⟨.BLK_ID, 47, 32⟩
def BLK_ID_VERSION : Fld := ⟨.BLK_ID, 23, 16⟩
def BLK_ID_INSTANCE : Fld := ⟨.BLK_ID, 15, 8⟩
def BLK_ID_TYPE : Fld := ⟨.BLK_ID, 7, 0⟩
-- BLK_STAT (19_register_map.md Table 19-6)
def BLK_STAT_SAFE_REQ : Fld := ⟨.BLK_STAT, 10, 10⟩
def BLK_STAT_PEND : Fld := ⟨.BLK_STAT, 9, 9⟩
def BLK_STAT_IMM : Fld := ⟨.BLK_STAT, 8, 8⟩
def BLK_STAT_GRACE_EXP : Fld := ⟨.BLK_STAT, 7, 7⟩
def BLK_STAT_GRACE_RUN : Fld := ⟨.BLK_STAT, 6, 6⟩
def BLK_STAT_DRAIN : Fld := ⟨.BLK_STAT, 5, 4⟩
def BLK_STAT_STATE : Fld := ⟨.BLK_STAT, 2, 0⟩
-- BLK_FAULT (19_register_map.md Table 19-4, R560)
def BLK_FAULT_BITS : Fld := ⟨.BLK_FAULT, 31, 0⟩
-- BLK_FMASK (19_register_map.md Table 19-4, R665)
def BLK_FMASK_BITS : Fld := ⟨.BLK_FMASK, 31, 0⟩
-- BLK_REACT (19_register_map.md Table 19-4, R247)
def BLK_REACT_GROUPS : Fld := ⟨.BLK_REACT, 63, 0⟩
-- BLK_GRACE (19_register_map.md Table 19-4, R567)
def BLK_GRACE_US : Fld := ⟨.BLK_GRACE, 19, 0⟩
-- BLK_ACK (19_register_map.md Table 19-4, R568)
def BLK_ACK_ACK : Fld := ⟨.BLK_ACK, 0, 0⟩
-- BLK_INJ (08_start_check.md Table 8-10)
def BLK_INJ_BUSY : Fld := ⟨.BLK_INJ, 63, 63⟩
def BLK_INJ_RESULT : Fld := ⟨.BLK_INJ, 57, 56⟩
def BLK_INJ_TARGET : Fld := ⟨.BLK_INJ, 15, 8⟩
def BLK_INJ_KIND : Fld := ⟨.BLK_INJ, 3, 0⟩
-- BLK_PWR (19_register_map.md Table 19-7)
def BLK_PWR_DOMAIN : Fld := ⟨.BLK_PWR, 15, 8⟩
def BLK_PWR_RESET : Fld := ⟨.BLK_PWR, 1, 1⟩
def BLK_PWR_ON : Fld := ⟨.BLK_PWR, 0, 0⟩
-- BLK_IRQ (19_register_map.md Table 19-8)
def BLK_IRQ_PINS : Fld := ⟨.BLK_IRQ, 11, 8⟩
def BLK_IRQ_VECTOR : Fld := ⟨.BLK_IRQ, 6, 0⟩
-- BASIN_RET (02_address_space.md Table 2-6)
def BASIN_RET_GUARD : Fld := ⟨.BASIN_RET, 31, 16⟩
def BASIN_RET_RETAIN : Fld := ⟨.BASIN_RET, 15, 0⟩
-- BASIN_SCRUB (02_address_space.md Table 2-7)
def BASIN_SCRUB_INTERVAL : Fld := ⟨.BASIN_SCRUB, 19, 0⟩
-- BASIN_ECC (02_address_space.md Table 2-8)
def BASIN_ECC_CLR : Fld := ⟨.BASIN_ECC, 63, 63⟩
def BASIN_ECC_SCRUB_DONE : Fld := ⟨.BASIN_ECC, 62, 62⟩
def BASIN_ECC_UE_CNT : Fld := ⟨.BASIN_ECC, 47, 32⟩
def BASIN_ECC_CE_CNT : Fld := ⟨.BASIN_ECC, 31, 0⟩
-- BASIN_ERR (02_address_space.md Table 2-9)
def BASIN_ERR_VALID : Fld := ⟨.BASIN_ERR, 63, 63⟩
def BASIN_ERR_RET_BANKS : Fld := ⟨.BASIN_ERR, 47, 32⟩
def BASIN_ERR_OFFSET : Fld := ⟨.BASIN_ERR, 23, 0⟩
-- MC_CFG (02_address_space.md Table 2-10)
def MC_CFG_USABLE_TOP : Fld := ⟨.MC_CFG, 47, 8⟩
def MC_CFG_SR_SLEEP : Fld := ⟨.MC_CFG, 4, 4⟩
def MC_CFG_CAP : Fld := ⟨.MC_CFG, 2, 0⟩
-- MC_ECC (02_address_space.md Table 2-11)
def MC_ECC_CLR : Fld := ⟨.MC_ECC, 63, 63⟩
def MC_ECC_UE_CNT : Fld := ⟨.MC_ECC, 47, 32⟩
def MC_ECC_CE_CNT : Fld := ⟨.MC_ECC, 31, 0⟩
-- MC_ERR (02_address_space.md Table 2-12)
def MC_ERR_VALID : Fld := ⟨.MC_ERR, 63, 63⟩
def MC_ERR_OFFSET : Fld := ⟨.MC_ERR, 39, 0⟩
-- BERTH_CFG (03_berth_pairs.md Table 3-6)
def BERTH_CFG_SHADOW_SIZE : Fld := ⟨.BERTH_CFG, 22, 20⟩
def BERTH_CFG_SHADOW_BASE : Fld := ⟨.BERTH_CFG, 19, 16⟩
def BERTH_CFG_CRIT : Fld := ⟨.BERTH_CFG, 8, 8⟩
def BERTH_CFG_MEMBER : Fld := ⟨.BERTH_CFG, 7, 7⟩
def BERTH_CFG_PART : Fld := ⟨.BERTH_CFG, 3, 0⟩
-- BERTH_STAT (03_berth_pairs.md Table 3-7)
def BERTH_STAT_CG_OUT : Fld := ⟨.BERTH_STAT, 30, 28⟩
def BERTH_STAT_TAGS_OUT : Fld := ⟨.BERTH_STAT, 24, 16⟩
def BERTH_STAT_WO_LEVEL : Fld := ⟨.BERTH_STAT, 14, 8⟩
def BERTH_STAT_STATE : Fld := ⟨.BERTH_STAT, 2, 0⟩
-- BERTH_MISM (03_berth_pairs.md Table 3-8)
def BERTH_MISM_VALID : Fld := ⟨.BERTH_MISM, 63, 63⟩
def BERTH_MISM_COMP : Fld := ⟨.BERTH_MISM, 62, 61⟩
def BERTH_MISM_DIVERGE : Fld := ⟨.BERTH_MISM, 60, 60⟩
def BERTH_MISM_BUSES : Fld := ⟨.BERTH_MISM, 5, 0⟩
-- BERTH_MISM_T (03_berth_pairs.md Table 3-9)
def BERTH_MISM_T_TIDE : Fld := ⟨.BERTH_MISM_T, 63, 0⟩
-- CRANE_CNT (03_berth_pairs.md Table 3-10)
def CRANE_CNT_CLR : Fld := ⟨.CRANE_CNT, 63, 63⟩
def CRANE_CNT_LATE : Fld := ⟨.CRANE_CNT, 47, 32⟩
def CRANE_CNT_TIMEOUT : Fld := ⟨.CRANE_CNT, 31, 0⟩
-- HOLD_ECC (03_berth_pairs.md Table 3-11)
def HOLD_ECC_CLR : Fld := ⟨.HOLD_ECC, 63, 63⟩
def HOLD_ECC_UE_CNT : Fld := ⟨.HOLD_ECC, 47, 32⟩
def HOLD_ECC_CE_CNT : Fld := ⟨.HOLD_ECC, 31, 0⟩
-- HOLD_ERR (03_berth_pairs.md Table 3-12)
def HOLD_ERR_VALID : Fld := ⟨.HOLD_ERR, 63, 63⟩
def HOLD_ERR_HALF : Fld := ⟨.HOLD_ERR, 62, 62⟩
def HOLD_ERR_OFFSET : Fld := ⟨.HOLD_ERR, 19, 0⟩
-- SEQ_CFG (04_sequencer_work_orders.md Table 4-16)
def SEQ_CFG_ENTRY : Fld := ⟨.SEQ_CFG, 31, 16⟩
def SEQ_CFG_PROG_SIZE : Fld := ⟨.SEQ_CFG, 15, 8⟩
def SEQ_CFG_PROG_BASE : Fld := ⟨.SEQ_CFG, 7, 0⟩
-- SEQ_CTL (04_sequencer_work_orders.md Table 4-17)
def SEQ_CTL_STOP : Fld := ⟨.SEQ_CTL, 1, 1⟩
def SEQ_CTL_RESUME : Fld := ⟨.SEQ_CTL, 0, 0⟩
-- SEQ_STAT (04_sequencer_work_orders.md Table 4-18)
def SEQ_STAT_LOOP_DEPTH : Fld := ⟨.SEQ_STAT, 50, 48⟩
def SEQ_STAT_PC : Fld := ⟨.SEQ_STAT, 47, 32⟩
def SEQ_STAT_WO_IRQ : Fld := ⟨.SEQ_STAT, 16, 16⟩
def SEQ_STAT_WAIT_CAUSE : Fld := ⟨.SEQ_STAT, 15, 8⟩
def SEQ_STAT_STATE : Fld := ⟨.SEQ_STAT, 2, 0⟩
-- SEQ_FLT (04_sequencer_work_orders.md Table 4-19)
def SEQ_FLT_VALID : Fld := ⟨.SEQ_FLT, 63, 63⟩
def SEQ_FLT_GROUP : Fld := ⟨.SEQ_FLT, 59, 56⟩
def SEQ_FLT_CAUSE : Fld := ⟨.SEQ_FLT, 55, 48⟩
def SEQ_FLT_PC : Fld := ⟨.SEQ_FLT, 47, 32⟩
def SEQ_FLT_INSTR : Fld := ⟨.SEQ_FLT, 31, 0⟩
-- WO_ERR (04_sequencer_work_orders.md Table 4-20)
def WO_ERR_VALID : Fld := ⟨.WO_ERR, 63, 63⟩
def WO_ERR_REASON : Fld := ⟨.WO_ERR, 55, 48⟩
def WO_ERR_OFFSET : Fld := ⟨.WO_ERR, 19, 0⟩
-- WO_SEQ (04_sequencer_work_orders.md Table 4-21)
def WO_SEQ_NEXT : Fld := ⟨.WO_SEQ, 31, 0⟩
-- FMT_CNT (05_number_formats.md Table 5-7)
def FMT_CNT_CLR : Fld := ⟨.FMT_CNT, 63, 63⟩
def FMT_CNT_BADCODE : Fld := ⟨.FMT_CNT, 55, 48⟩
def FMT_CNT_SAT : Fld := ⟨.FMT_CNT, 47, 32⟩
def FMT_CNT_FLUSH : Fld := ⟨.FMT_CNT, 31, 0⟩
-- FMC_CNT (10_image_operators.md Table 10-7)
def FMC_CNT_CLR : Fld := ⟨.FMC_CNT, 63, 63⟩
def FMC_CNT_BADCODE : Fld := ⟨.FMC_CNT, 55, 48⟩
def FMC_CNT_NAN : Fld := ⟨.FMC_CNT, 47, 32⟩
def FMC_CNT_CLAMP : Fld := ⟨.FMC_CNT, 31, 0⟩
-- BERTH_CG (09_sensor_intake_commit.md Table 9-12)
def BERTH_CG_VALID3 : Fld := ⟨.BERTH_CG, 63, 63⟩
def BERTH_CG_STATE3 : Fld := ⟨.BERTH_CG, 62, 61⟩
def BERTH_CG_CG3 : Fld := ⟨.BERTH_CG, 59, 48⟩
def BERTH_CG_VALID2 : Fld := ⟨.BERTH_CG, 47, 47⟩
def BERTH_CG_STATE2 : Fld := ⟨.BERTH_CG, 46, 45⟩
def BERTH_CG_CG2 : Fld := ⟨.BERTH_CG, 43, 32⟩
def BERTH_CG_VALID1 : Fld := ⟨.BERTH_CG, 31, 31⟩
def BERTH_CG_STATE1 : Fld := ⟨.BERTH_CG, 30, 29⟩
def BERTH_CG_CG1 : Fld := ⟨.BERTH_CG, 27, 16⟩
def BERTH_CG_VALID0 : Fld := ⟨.BERTH_CG, 15, 15⟩
def BERTH_CG_STATE0 : Fld := ⟨.BERTH_CG, 14, 13⟩
def BERTH_CG_CG0 : Fld := ⟨.BERTH_CG, 11, 0⟩
-- MSG_Q (13_manifests_buoys.md Table 13-13)
def MSG_Q_RES_S : Fld := ⟨.MSG_Q, 60, 50⟩
def MSG_Q_BUOY : Fld := ⟨.MSG_Q, 48, 32⟩
def MSG_Q_DEPTH : Fld := ⟨.MSG_Q, 26, 16⟩
def MSG_Q_BASE : Fld := ⟨.MSG_Q, 14, 0⟩
-- MSG_QSTAT (13_manifests_buoys.md Table 13-12)
def MSG_QSTAT_OLDEST : Fld := ⟨.MSG_QSTAT, 42, 32⟩
def MSG_QSTAT_OCC_AD : Fld := ⟨.MSG_QSTAT, 26, 16⟩
def MSG_QSTAT_OCC_S : Fld := ⟨.MSG_QSTAT, 10, 0⟩
-- MSG_CFG (13_manifests_buoys.md Table 13-12)
def MSG_CFG_MOOR : Fld := ⟨.MSG_CFG, 13, 0⟩
-- MSG_SFLOW (13_manifests_buoys.md Table 13-14)
def MSG_SFLOW_LAST : Fld := ⟨.MSG_SFLOW, 49, 48⟩
def MSG_SFLOW_AVAIL : Fld := ⟨.MSG_SFLOW, 38, 32⟩
def MSG_SFLOW_EN : Fld := ⟨.MSG_SFLOW, 31, 31⟩
def MSG_SFLOW_CREDITS : Fld := ⟨.MSG_SFLOW, 30, 24⟩
def MSG_SFLOW_QUEUE : Fld := ⟨.MSG_SFLOW, 23, 22⟩
def MSG_SFLOW_TARGET : Fld := ⟨.MSG_SFLOW, 21, 16⟩
def MSG_SFLOW_DEST_Y : Fld := ⟨.MSG_SFLOW, 15, 8⟩
def MSG_SFLOW_DEST_X : Fld := ⟨.MSG_SFLOW, 7, 0⟩
-- MSG_STAT (13_manifests_buoys.md Table 13-15)
def MSG_STAT_SEQ_NEXT : Fld := ⟨.MSG_STAT, 63, 48⟩
def MSG_STAT_QIRQ : Fld := ⟨.MSG_STAT, 35, 32⟩
def MSG_STAT_STALLED : Fld := ⟨.MSG_STAT, 31, 16⟩
def MSG_STAT_CRC_DROP : Fld := ⟨.MSG_STAT, 15, 0⟩
-- MSG_ERR (13_manifests_buoys.md Table 13-12)
def MSG_ERR_VALID : Fld := ⟨.MSG_ERR, 63, 63⟩
def MSG_ERR_GROUP : Fld := ⟨.MSG_ERR, 59, 56⟩
def MSG_ERR_REASON : Fld := ⟨.MSG_ERR, 55, 48⟩
def MSG_ERR_TAG : Fld := ⟨.MSG_ERR, 47, 32⟩
def MSG_ERR_BYTE2 : Fld := ⟨.MSG_ERR, 31, 24⟩
def MSG_ERR_DEST_Y : Fld := ⟨.MSG_ERR, 23, 16⟩
def MSG_ERR_DEST_X : Fld := ⟨.MSG_ERR, 15, 8⟩
-- PILOT_BOOT (06_charts.md Table 6-13)
def PILOT_BOOT_GO : Fld := ⟨.PILOT_BOOT, 0, 0⟩
-- PILOT_CMD (06_charts.md Table 6-14)
def PILOT_CMD_PART : Fld := ⟨.PILOT_CMD, 11, 8⟩
def PILOT_CMD_CMD : Fld := ⟨.PILOT_CMD, 3, 0⟩
-- PILOT_SRC (06_charts.md Table 6-13)
def PILOT_SRC_ADDR : Fld := ⟨.PILOT_SRC, 47, 0⟩
-- PILOT_LEN (06_charts.md Table 6-13)
def PILOT_LEN_LEN : Fld := ⟨.PILOT_LEN, 31, 0⟩
-- PILOT_STAT (06_charts.md Table 6-15)
def PILOT_STAT_REASON : Fld := ⟨.PILOT_STAT, 31, 24⟩
def PILOT_STAT_LAST_STATUS : Fld := ⟨.PILOT_STAT, 19, 16⟩
def PILOT_STAT_SLOT : Fld := ⟨.PILOT_STAT, 11, 11⟩
def PILOT_STAT_FALLBACK : Fld := ⟨.PILOT_STAT, 10, 10⟩
def PILOT_STAT_PLACE : Fld := ⟨.PILOT_STAT, 9, 8⟩
def PILOT_STAT_STORING : Fld := ⟨.PILOT_STAT, 3, 3⟩
def PILOT_STAT_STATE : Fld := ⟨.PILOT_STAT, 2, 0⟩
-- PILOT_FIT (06_charts.md Table 6-16)
def PILOT_FIT_VALID : Fld := ⟨.PILOT_FIT, 63, 63⟩
def PILOT_FIT_CHECK : Fld := ⟨.PILOT_FIT, 55, 48⟩
def PILOT_FIT_CHIP : Fld := ⟨.PILOT_FIT, 47, 40⟩
def PILOT_FIT_SHORT : Fld := ⟨.PILOT_FIT, 31, 0⟩
-- PILOT_RES (06_charts.md Table 6-13)
def PILOT_RES_BYTES : Fld := ⟨.PILOT_RES, 63, 0⟩
-- PILOT_DIGEST (06_charts.md Table 6-13)
def PILOT_DIGEST_BYTES : Fld := ⟨.PILOT_DIGEST, 63, 0⟩
-- PILOT_CHART_ID (06_charts.md Table 6-13)
def PILOT_CHART_ID_ID : Fld := ⟨.PILOT_CHART_ID, 63, 0⟩
-- PILOT_PART (06_charts.md Table 6-17)
def PILOT_PART_SIZE_MIB : Fld := ⟨.PILOT_PART, 47, 32⟩
def PILOT_PART_BASE_MIB : Fld := ⟨.PILOT_PART, 15, 0⟩
-- HM_STATE (07_sleep_wake_clocks_straps.md Table 7-12)
def HM_STATE_TIDE : Fld := ⟨.HM_STATE, 63, 16⟩
def HM_STATE_CAUSE : Fld := ⟨.HM_STATE, 15, 8⟩
def HM_STATE_STATE : Fld := ⟨.HM_STATE, 2, 0⟩
-- HM_STRAP (07_sleep_wake_clocks_straps.md Table 7-12, R243)
def HM_STRAP_GPIO : Fld := ⟨.HM_STRAP, 13, 0⟩
-- HM_SLEEP (07_sleep_wake_clocks_straps.md Table 7-12)
def HM_SLEEP_REFUSED : Fld := ⟨.HM_SLEEP, 11, 8⟩
def HM_SLEEP_REQ : Fld := ⟨.HM_SLEEP, 0, 0⟩
-- HM_WAKE_EN (07_sleep_wake_clocks_straps.md Table 7-12, R263)
def HM_WAKE_EN_EN_HI : Fld := ⟨.HM_WAKE_EN, 20, 14⟩
def HM_WAKE_EN_ESTOP : Fld := ⟨.HM_WAKE_EN, 13, 13⟩
def HM_WAKE_EN_EN_LO : Fld := ⟨.HM_WAKE_EN, 12, 0⟩
-- HM_WAKE_SRC (07_sleep_wake_clocks_straps.md Table 7-12)
def HM_WAKE_SRC_SRC : Fld := ⟨.HM_WAKE_SRC, 20, 0⟩
-- HM_DOM_WAKE (07_sleep_wake_clocks_straps.md Table 7-12)
def HM_DOM_WAKE_DOMS : Fld := ⟨.HM_DOM_WAKE, 43, 0⟩
-- HM_DOM_STAT (07_sleep_wake_clocks_straps.md Table 7-12)
def HM_DOM_STAT_DOMS : Fld := ⟨.HM_DOM_STAT, 43, 0⟩
-- HM_RESET (07_sleep_wake_clocks_straps.md Table 7-12)
def HM_RESET_WARM : Fld := ⟨.HM_RESET, 0, 0⟩
-- HM_SVC (07_sleep_wake_clocks_straps.md Table 7-12)
def HM_SVC_LEAVE : Fld := ⟨.HM_SVC, 1, 1⟩
def HM_SVC_ENTER : Fld := ⟨.HM_SVC, 0, 0⟩
-- HM_CLK (07_sleep_wake_clocks_straps.md Table 7-13)
def HM_CLK_XO_WAIT : Fld := ⟨.HM_CLK, 25, 16⟩
def HM_CLK_FAILED : Fld := ⟨.HM_CLK, 15, 12⟩
def HM_CLK_XO_OK : Fld := ⟨.HM_CLK, 4, 4⟩
def HM_CLK_LOCKED : Fld := ⟨.HM_CLK, 3, 0⟩
-- HM_HU_CFG0 (07_sleep_wake_clocks_straps.md Table 7-14)
def HM_HU_CFG0_MARGIN : Fld := ⟨.HM_HU_CFG0, 63, 48⟩
def HM_HU_CFG0_VMIN_MV : Fld := ⟨.HM_HU_CFG0, 47, 32⟩
def HM_HU_CFG0_RATIO : Fld := ⟨.HM_HU_CFG0, 31, 16⟩
def HM_HU_CFG0_C_UF : Fld := ⟨.HM_HU_CFG0, 15, 0⟩
-- HM_HU_CFG1 (07_sleep_wake_clocks_straps.md Table 7-15)
def HM_HU_CFG1_HU_TRIES : Fld := ⟨.HM_HU_CFG1, 63, 56⟩
def HM_HU_CFG1_HU_RETRY : Fld := ⟨.HM_HU_CFG1, 55, 40⟩
def HM_HU_CFG1_PER_BYTE : Fld := ⟨.HM_HU_CFG1, 39, 20⟩
def HM_HU_CFG1_FIXED : Fld := ⟨.HM_HU_CFG1, 19, 0⟩
-- HM_HU_MEAS (07_sleep_wake_clocks_straps.md Table 7-12)
def HM_HU_MEAS_GRANTED : Fld := ⟨.HM_HU_MEAS, 52, 52⟩
def HM_HU_MEAS_NEED : Fld := ⟨.HM_HU_MEAS, 51, 32⟩
def HM_HU_MEAS_ENERGY : Fld := ⟨.HM_HU_MEAS, 31, 12⟩
def HM_HU_MEAS_CODE : Fld := ⟨.HM_HU_MEAS, 11, 0⟩
-- HM_BOOTREC (07_sleep_wake_clocks_straps.md Table 7-12)
def HM_BOOTREC_REASON : Fld := ⟨.HM_BOOTREC, 23, 16⟩
def HM_BOOTREC_SLOT : Fld := ⟨.HM_BOOTREC, 3, 3⟩
def HM_BOOTREC_MODE : Fld := ⟨.HM_BOOTREC, 1, 0⟩
-- HM_SC_STAT (08_start_check.md Table 8-7)
def HM_SC_STAT_DURATION : Fld := ⟨.HM_SC_STAT, 47, 32⟩
def HM_SC_STAT_FAILS : Fld := ⟨.HM_SC_STAT, 31, 24⟩
def HM_SC_STAT_PHASE : Fld := ⟨.HM_SC_STAT, 15, 12⟩
def HM_SC_STAT_KIND : Fld := ⟨.HM_SC_STAT, 2, 1⟩
def HM_SC_STAT_PASS : Fld := ⟨.HM_SC_STAT, 0, 0⟩
-- HM_SC_CORE (08_start_check.md Table 8-8)
def HM_SC_CORE_QUAY : Fld := ⟨.HM_SC_CORE, 15, 12⟩
def HM_SC_CORE_MC : Fld := ⟨.HM_SC_CORE, 11, 10⟩
def HM_SC_CORE_LOG : Fld := ⟨.HM_SC_CORE, 9, 9⟩
def HM_SC_CORE_BASIN : Fld := ⟨.HM_SC_CORE, 8, 8⟩
def HM_SC_CORE_DREDGER : Fld := ⟨.HM_SC_CORE, 7, 7⟩
def HM_SC_CORE_WHARF : Fld := ⟨.HM_SC_CORE, 6, 6⟩
def HM_SC_CORE_SAFE_RB : Fld := ⟨.HM_SC_CORE, 5, 2⟩
def HM_SC_CORE_HM_CMP : Fld := ⟨.HM_SC_CORE, 1, 1⟩
def HM_SC_CORE_HM_BIST : Fld := ⟨.HM_SC_CORE, 0, 0⟩
-- HM_SC_BERTH (08_start_check.md Table 8-9)
def HM_SC_BERTH_FAILED : Fld := ⟨.HM_SC_BERTH, 31, 0⟩
-- HM_SC_LH (08_start_check.md Table 8-9)
def HM_SC_LH_FAILED : Fld := ⟨.HM_SC_LH, 63, 0⟩
-- HM_SC_GRACE (08_start_check.md Table 8-9)
def HM_SC_GRACE_BERTHS : Fld := ⟨.HM_SC_GRACE, 63, 32⟩
def HM_SC_GRACE_SLOTS : Fld := ⟨.HM_SC_GRACE, 19, 0⟩
-- HM_MISM (15_fault_detection.md Table 15-6)
def HM_MISM_VALID : Fld := ⟨.HM_MISM, 63, 63⟩
def HM_MISM_COMP : Fld := ⟨.HM_MISM, 62, 61⟩
def HM_MISM_DIVERGE : Fld := ⟨.HM_MISM, 60, 60⟩
def HM_MISM_GROUPS : Fld := ⟨.HM_MISM, 5, 0⟩
-- HM_CLKMON (15_fault_detection.md Table 15-6)
def HM_CLKMON_VALID : Fld := ⟨.HM_CLKMON, 63, 63⟩
def HM_CLKMON_COUNT : Fld := ⟨.HM_CLKMON, 31, 16⟩
def HM_CLKMON_CLOCK : Fld := ⟨.HM_CLKMON, 2, 0⟩
-- HM_REGPAR (15_fault_detection.md Table 15-6)
def HM_REGPAR_VALID : Fld := ⟨.HM_REGPAR, 63, 63⟩
def HM_REGPAR_DIR : Fld := ⟨.HM_REGPAR, 8, 8⟩
def HM_REGPAR_SLOT : Fld := ⟨.HM_REGPAR, 5, 0⟩
-- HM_SAFE (16_fault_reaction_logbook.md Table 16-11)
def HM_SAFE_EXIT : Fld := ⟨.HM_SAFE, 0, 0⟩
-- HM_SAFE_STAT (16_fault_reaction_logbook.md Table 16-11)
def HM_SAFE_STAT_CAUSE : Fld := ⟨.HM_SAFE_STAT, 23, 16⟩
def HM_SAFE_STAT_REFUSED : Fld := ⟨.HM_SAFE_STAT, 15, 8⟩
def HM_SAFE_STAT_PENDING : Fld := ⟨.HM_SAFE_STAT, 1, 1⟩
def HM_SAFE_STAT_IN_SAFE : Fld := ⟨.HM_SAFE_STAT, 0, 0⟩
-- HM_SAFE_T (16_fault_reaction_logbook.md Table 16-11)
def HM_SAFE_T_TIDE : Fld := ⟨.HM_SAFE_T, 63, 0⟩
-- PRES_STAT (17_person_presence.md Table 17-6)
def PRES_STAT_OPENED : Fld := ⟨.PRES_STAT, 47, 32⟩
def PRES_STAT_REMAIN_S : Fld := ⟨.PRES_STAT, 27, 16⟩
def PRES_STAT_SVC_STUCK : Fld := ⟨.PRES_STAT, 3, 3⟩
def PRES_STAT_SEAL_INTACT : Fld := ⟨.PRES_STAT, 2, 2⟩
def PRES_STAT_FACTORY : Fld := ⟨.PRES_STAT, 1, 1⟩
def PRES_STAT_OPEN : Fld := ⟨.PRES_STAT, 0, 0⟩
-- PRES_CFG (17_person_presence.md Table 17-6, R603)
def PRES_CFG_WIN_S : Fld := ⟨.PRES_CFG, 11, 0⟩
-- WAKE_POL (17_person_presence.md Table 17-6)
def WAKE_POL_POL : Fld := ⟨.WAKE_POL, 3, 0⟩
-- WAKE_STUCK (17_person_presence.md Table 17-6)
def WAKE_STUCK_LIMITS : Fld := ⟨.WAKE_STUCK, 63, 0⟩
-- IN_STAT (17_person_presence.md Table 17-6)
def IN_STAT_CHATTER : Fld := ⟨.IN_STAT, 20, 16⟩
def IN_STAT_STUCK : Fld := ⟨.IN_STAT, 12, 8⟩
def IN_STAT_ESTOP_B : Fld := ⟨.IN_STAT, 6, 6⟩
def IN_STAT_ESTOP_A : Fld := ⟨.IN_STAT, 5, 5⟩
def IN_STAT_SERVICE : Fld := ⟨.IN_STAT, 4, 4⟩
def IN_STAT_WAKE : Fld := ⟨.IN_STAT, 3, 0⟩
-- IN_CNT (17_person_presence.md Table 17-6)
def IN_CNT_CLR : Fld := ⟨.IN_CNT, 63, 63⟩
def IN_CNT_CNT4 : Fld := ⟨.IN_CNT, 39, 32⟩
def IN_CNT_CNT3 : Fld := ⟨.IN_CNT, 31, 24⟩
def IN_CNT_CNT2 : Fld := ⟨.IN_CNT, 23, 16⟩
def IN_CNT_CNT1 : Fld := ⟨.IN_CNT, 15, 8⟩
def IN_CNT_CNT0 : Fld := ⟨.IN_CNT, 7, 0⟩
-- ESTOP_STAT (17_person_presence.md Table 17-6)
def ESTOP_STAT_EVENTS : Fld := ⟨.ESTOP_STAT, 47, 32⟩
def ESTOP_STAT_STABLE : Fld := ⟨.ESTOP_STAT, 3, 3⟩
def ESTOP_STAT_DISC : Fld := ⟨.ESTOP_STAT, 2, 2⟩
def ESTOP_STAT_B_LOW : Fld := ⟨.ESTOP_STAT, 1, 1⟩
def ESTOP_STAT_A_LOW : Fld := ⟨.ESTOP_STAT, 0, 0⟩
-- ESTOP_T (17_person_presence.md Table 17-6)
def ESTOP_T_TIDE : Fld := ⟨.ESTOP_T, 63, 0⟩
-- TOUCH_CFG (17_person_presence.md Table 17-6)
def TOUCH_CFG_BASE_RATE : Fld := ⟨.TOUCH_CFG, 39, 32⟩
def TOUCH_CFG_THRESH : Fld := ⟨.TOUCH_CFG, 31, 16⟩
def TOUCH_CFG_EN : Fld := ⟨.TOUCH_CFG, 7, 0⟩
-- TOUCH_STAT (17_person_presence.md Table 17-6)
def TOUCH_STAT_STUCK : Fld := ⟨.TOUCH_STAT, 15, 8⟩
def TOUCH_STAT_TOUCHED : Fld := ⟨.TOUCH_STAT, 7, 0⟩
-- TOUCH_PAD (17_person_presence.md Table 17-6)
def TOUCH_PAD_DELTA : Fld := ⟨.TOUCH_PAD, 47, 32⟩
def TOUCH_PAD_BASELINE : Fld := ⟨.TOUCH_PAD, 31, 16⟩
def TOUCH_PAD_RAW : Fld := ⟨.TOUCH_PAD, 15, 0⟩
-- TIDE_NOW (07_sleep_wake_clocks_straps.md Table 7-12)
def TIDE_NOW_NS : Fld := ⟨.TIDE_NOW, 63, 0⟩
-- TIDE_SET (07_sleep_wake_clocks_straps.md Table 7-12, R274)
def TIDE_SET_NS : Fld := ⟨.TIDE_SET, 63, 0⟩
-- TIDE_ALARM (07_sleep_wake_clocks_straps.md Table 7-12)
def TIDE_ALARM_NS : Fld := ⟨.TIDE_ALARM, 63, 0⟩
-- TIDE_CFG (07_sleep_wake_clocks_straps.md Table 7-12)
def TIDE_CFG_PPS_EN : Fld := ⟨.TIDE_CFG, 0, 0⟩
-- TIDE_STAT (07_sleep_wake_clocks_straps.md Table 7-16)
def TIDE_STAT_OFFSET : Fld := ⟨.TIDE_STAT, 63, 48⟩
def TIDE_STAT_DELAY : Fld := ⟨.TIDE_STAT, 47, 32⟩
def TIDE_STAT_MASTER : Fld := ⟨.TIDE_STAT, 21, 16⟩
def TIDE_STAT_PARENT : Fld := ⟨.TIDE_STAT, 10, 8⟩
def TIDE_STAT_SYNCED : Fld := ⟨.TIDE_STAT, 1, 1⟩
def TIDE_STAT_IS_MASTER : Fld := ⟨.TIDE_STAT, 0, 0⟩
-- LOG_STAT (16_fault_reaction_logbook.md Table 16-12)
def LOG_STAT_BOOT : Fld := ⟨.LOG_STAT, 63, 58⟩
def LOG_STAT_MIRRORING : Fld := ⟨.LOG_STAT, 57, 57⟩
def LOG_STAT_LOG_DEGRADED : Fld := ⟨.LOG_STAT, 56, 56⟩
def LOG_STAT_DROPPED : Fld := ⟨.LOG_STAT, 55, 48⟩
def LOG_STAT_LOG_LOST : Fld := ⟨.LOG_STAT, 47, 32⟩
def LOG_STAT_NEXT_SEQ : Fld := ⟨.LOG_STAT, 31, 0⟩
-- LOG_RD_IDX (16_fault_reaction_logbook.md Table 16-12)
def LOG_RD_IDX_SPARE : Fld := ⟨.LOG_RD_IDX, 16, 16⟩
def LOG_RD_IDX_INDEX : Fld := ⟨.LOG_RD_IDX, 10, 0⟩
-- LOG_RD (16_fault_reaction_logbook.md Table 16-12)
def LOG_RD_BYTES : Fld := ⟨.LOG_RD, 63, 0⟩
-- LOG_MIR (16_fault_reaction_logbook.md Table 16-12)
def LOG_MIR_RETRIES : Fld := ⟨.LOG_MIR, 31, 28⟩
def LOG_MIR_THRESH : Fld := ⟨.LOG_MIR, 27, 16⟩
def LOG_MIR_PERIOD_S : Fld := ⟨.LOG_MIR, 15, 0⟩
-- LOG_NV (16_fault_reaction_logbook.md Table 16-12)
def LOG_NV_NV_B : Fld := ⟨.LOG_NV, 63, 32⟩
def LOG_NV_NV_A : Fld := ⟨.LOG_NV, 31, 0⟩
-- LOG_CTL (16_fault_reaction_logbook.md Table 16-12)
def LOG_CTL_MIRROR_NOW : Fld := ⟨.LOG_CTL, 0, 0⟩
-- LOG_CLEAR (16_fault_reaction_logbook.md Table 16-12, R586)
def LOG_CLEAR_CLEAR : Fld := ⟨.LOG_CLEAR, 0, 0⟩
-- LOG_MSTAT (16_fault_reaction_logbook.md Table 16-12)
def LOG_MSTAT_COPY : Fld := ⟨.LOG_MSTAT, 36, 36⟩
def LOG_MSTAT_STATUS : Fld := ⟨.LOG_MSTAT, 35, 32⟩
def LOG_MSTAT_SEQ : Fld := ⟨.LOG_MSTAT, 31, 0⟩
-- QUAY_CFG (14_zenier_mesh.md Table 14-12)
def QUAY_CFG_WAKE_TX : Fld := ⟨.QUAY_CFG, 6, 6⟩
def QUAY_CFG_MINLANES : Fld := ⟨.QUAY_CFG, 5, 4⟩
def QUAY_CFG_MINRATE : Fld := ⟨.QUAY_CFG, 3, 2⟩
def QUAY_CFG_MAXRATE : Fld := ⟨.QUAY_CFG, 1, 0⟩
-- QUAY_VC (14_zenier_mesh.md Table 14-12, R489)
def QUAY_VC_VC5 : Fld := ⟨.QUAY_VC, 47, 40⟩
def QUAY_VC_VC4 : Fld := ⟨.QUAY_VC, 39, 32⟩
def QUAY_VC_VC3 : Fld := ⟨.QUAY_VC, 31, 24⟩
def QUAY_VC_VC2 : Fld := ⟨.QUAY_VC, 23, 16⟩
def QUAY_VC_VC1 : Fld := ⟨.QUAY_VC, 15, 8⟩
def QUAY_VC_VC0 : Fld := ⟨.QUAY_VC, 7, 0⟩
-- QUAY_STAT (14_zenier_mesh.md Table 14-12)
def QUAY_STAT_EXTERNAL : Fld := ⟨.QUAY_STAT, 48, 48⟩
def QUAY_STAT_NBR_Y : Fld := ⟨.QUAY_STAT, 47, 40⟩
def QUAY_STAT_NBR_X : Fld := ⟨.QUAY_STAT, 39, 32⟩
def QUAY_STAT_TX_LANES : Fld := ⟨.QUAY_STAT, 31, 24⟩
def QUAY_STAT_RX_LANES : Fld := ⟨.QUAY_STAT, 23, 16⟩
def QUAY_STAT_RXW : Fld := ⟨.QUAY_STAT, 9, 8⟩
def QUAY_STAT_TXW : Fld := ⟨.QUAY_STAT, 7, 6⟩
def QUAY_STAT_RATE : Fld := ⟨.QUAY_STAT, 5, 4⟩
def QUAY_STAT_STATE : Fld := ⟨.QUAY_STAT, 3, 0⟩
-- QUAY_CNT (14_zenier_mesh.md Table 14-12)
def QUAY_CNT_LOST : Fld := ⟨.QUAY_CNT, 63, 48⟩
def QUAY_CNT_CTL_ERR : Fld := ⟨.QUAY_CNT, 47, 32⟩
def QUAY_CNT_CRC_ERR : Fld := ⟨.QUAY_CNT, 31, 16⟩
def QUAY_CNT_REPLAY : Fld := ⟨.QUAY_CNT, 15, 0⟩
-- QUAY_CTL (14_zenier_mesh.md Table 14-12)
def QUAY_CTL_CNT_CLR : Fld := ⟨.QUAY_CTL, 2, 2⟩
def QUAY_CTL_WAKE : Fld := ⟨.QUAY_CTL, 1, 1⟩
def QUAY_CTL_RETRAIN : Fld := ⟨.QUAY_CTL, 0, 0⟩
-- QUAY_LOSS (14_zenier_mesh.md Table 14-12)
def QUAY_LOSS_TIDE : Fld := ⟨.QUAY_LOSS, 63, 0⟩
-- MESH_ORIGIN (14_zenier_mesh.md Table 14-13)
def MESH_ORIGIN_OY : Fld := ⟨.MESH_ORIGIN, 14, 8⟩
def MESH_ORIGIN_OX : Fld := ⟨.MESH_ORIGIN, 7, 0⟩
-- ROUTE_DOM (14_zenier_mesh.md Table 14-13)
def ROUTE_DOM_PLANES : Fld := ⟨.ROUTE_DOM, 63, 0⟩
-- ROUTE_STAT (14_zenier_mesh.md Table 14-13)
def ROUTE_STAT_BLOCK_NACK : Fld := ⟨.ROUTE_STAT, 63, 48⟩
def ROUTE_STAT_REFUSED : Fld := ⟨.ROUTE_STAT, 47, 32⟩
def ROUTE_STAT_DOWN : Fld := ⟨.ROUTE_STAT, 31, 16⟩
def ROUTE_STAT_GY : Fld := ⟨.ROUTE_STAT, 14, 8⟩
def ROUTE_STAT_GX : Fld := ⟨.ROUTE_STAT, 7, 0⟩
-- ROUTE_REG (14_zenier_mesh.md Table 14-13)
def ROUTE_REG_EN : Fld := ⟨.ROUTE_REG, 63, 63⟩
def ROUTE_REG_PLANE : Fld := ⟨.ROUTE_REG, 32, 32⟩
def ROUTE_REG_Y_HI : Fld := ⟨.ROUTE_REG, 31, 24⟩
def ROUTE_REG_Y_LO : Fld := ⟨.ROUTE_REG, 23, 16⟩
def ROUTE_REG_X_HI : Fld := ⟨.ROUTE_REG, 15, 8⟩
def ROUTE_REG_X_LO : Fld := ⟨.ROUTE_REG, 7, 0⟩
-- LT_STAT (14_zenier_mesh.md Table 14-14)
def LT_STAT_CFG_ERR : Fld := ⟨.LT_STAT, 23, 20⟩
def LT_STAT_HELD : Fld := ⟨.LT_STAT, 18, 12⟩
def LT_STAT_TRANSFERS : Fld := ⟨.LT_STAT, 10, 8⟩
def LT_STAT_TXQ : Fld := ⟨.LT_STAT, 6, 0⟩
-- LT_RELEASE (14_zenier_mesh.md Table 14-14, R519)
def LT_RELEASE_ADDR : Fld := ⟨.LT_RELEASE, 47, 0⟩
-- LT_CNT (14_zenier_mesh.md Table 14-14)
def LT_CNT_ABORTS : Fld := ⟨.LT_CNT, 63, 48⟩
def LT_CNT_POOL_FULL : Fld := ⟨.LT_CNT, 47, 32⟩
def LT_CNT_RECEIVED : Fld := ⟨.LT_CNT, 31, 16⟩
def LT_CNT_SENT : Fld := ⟨.LT_CNT, 15, 0⟩
-- LT_POOL_BASE (14_zenier_mesh.md Table 14-14)
def LT_POOL_BASE_BASE : Fld := ⟨.LT_POOL_BASE, 47, 0⟩
-- LT_POOL_GEO (14_zenier_mesh.md Table 14-14)
def LT_POOL_GEO_EN : Fld := ⟨.LT_POOL_GEO, 63, 63⟩
def LT_POOL_GEO_FREE : Fld := ⟨.LT_POOL_GEO, 47, 32⟩
def LT_POOL_GEO_COUNT_M1 : Fld := ⟨.LT_POOL_GEO, 27, 16⟩
def LT_POOL_GEO_LOG2 : Fld := ⟨.LT_POOL_GEO, 4, 0⟩
-- LT_RDONE (14_zenier_mesh.md Table 14-14)
def LT_RDONE_COUNT : Fld := ⟨.LT_RDONE, 31, 0⟩
-- LH_FIRED (15_fault_detection.md Table 15-6)
def LH_FIRED_BITS : Fld := ⟨.LH_FIRED, 63, 0⟩
-- LH_ARMED (15_fault_detection.md Table 15-6)
def LH_ARMED_BITS : Fld := ⟨.LH_ARMED, 63, 0⟩
-- LH_UNUSABLE (15_fault_detection.md Table 15-6)
def LH_UNUSABLE_BITS : Fld := ⟨.LH_UNUSABLE, 63, 0⟩
-- LH_CFG (15_fault_detection.md Table 15-7)
def LH_CFG_EN : Fld := ⟨.LH_CFG, 63, 63⟩
def LH_CFG_CRIT : Fld := ⟨.LH_CFG, 62, 62⟩
def LH_CFG_PART : Fld := ⟨.LH_CFG, 59, 56⟩
def LH_CFG_BUOY : Fld := ⟨.LH_CFG, 47, 0⟩
-- LH_LIM (15_fault_detection.md Table 15-8)
def LH_LIM_FIRST_MS : Fld := ⟨.LH_LIM, 63, 48⟩
def LH_LIM_MAXAGE : Fld := ⟨.LH_LIM, 47, 24⟩
def LH_LIM_PERIOD : Fld := ⟨.LH_LIM, 23, 0⟩
-- LH_STAMP (15_fault_detection.md Table 15-6)
def LH_STAMP_STAMP : Fld := ⟨.LH_STAMP, 63, 0⟩
-- LH_ARRIVE (15_fault_detection.md Table 15-6)
def LH_ARRIVE_TIDE : Fld := ⟨.LH_ARRIVE, 63, 0⟩
-- LH_STAT (15_fault_detection.md Table 15-9)
def LH_STAT_FIRES : Fld := ⟨.LH_STAT, 31, 16⟩
def LH_STAT_BOTH : Fld := ⟨.LH_STAT, 9, 9⟩
def LH_STAT_STAMP_BAD : Fld := ⟨.LH_STAT, 8, 8⟩
def LH_STAT_LAST_CAUSE : Fld := ⟨.LH_STAT, 6, 4⟩
def LH_STAT_STATE : Fld := ⟨.LH_STAT, 2, 0⟩
-- SO_CFG (16_fault_reaction_logbook.md Table 16-10)
def SO_CFG_HOST_OK : Fld := ⟨.SO_CFG, 20, 20⟩
def SO_CFG_OWNER : Fld := ⟨.SO_CFG, 19, 16⟩
def SO_CFG_FOLLOW_N : Fld := ⟨.SO_CFG, 9, 9⟩
def SO_CFG_DRIVE_N : Fld := ⟨.SO_CFG, 8, 8⟩
def SO_CFG_FB_EN : Fld := ⟨.SO_CFG, 7, 4⟩
def SO_CFG_EN : Fld := ⟨.SO_CFG, 3, 0⟩
-- SO_CMD (16_fault_reaction_logbook.md Table 16-10)
def SO_CMD_ACT : Fld := ⟨.SO_CMD, 3, 0⟩
-- SO_STAT (16_fault_reaction_logbook.md Table 16-10)
def SO_STAT_LATCHED : Fld := ⟨.SO_STAT, 15, 15⟩
def SO_STAT_SAFE_N_DRV : Fld := ⟨.SO_STAT, 14, 14⟩
def SO_STAT_SAFE_N_IN : Fld := ⟨.SO_STAT, 13, 13⟩
def SO_STAT_FORCED : Fld := ⟨.SO_STAT, 12, 12⟩
def SO_STAT_MISM : Fld := ⟨.SO_STAT, 11, 8⟩
def SO_STAT_FB : Fld := ⟨.SO_STAT, 7, 4⟩
def SO_STAT_OUT : Fld := ⟨.SO_STAT, 3, 0⟩
-- SO_REQ (16_fault_reaction_logbook.md Table 16-10)
def SO_REQ_BERTHS : Fld := ⟨.SO_REQ, 63, 32⟩
def SO_REQ_ESTOP : Fld := ⟨.SO_REQ, 21, 21⟩
def SO_REQ_SAFE_N : Fld := ⟨.SO_REQ, 20, 20⟩
def SO_REQ_SLOTS : Fld := ⟨.SO_REQ, 19, 0⟩
-- RX_CFG (09_sensor_intake_commit.md Table 9-9)
def RX_CFG_RATE : Fld := ⟨.RX_CFG, 27, 16⟩
def RX_CFG_LANES : Fld := ⟨.RX_CFG, 2, 1⟩
def RX_CFG_EN : Fld := ⟨.RX_CFG, 0, 0⟩
-- RX_STAT (09_sensor_intake_commit.md Table 9-9)
def RX_STAT_UNBOUND : Fld := ⟨.RX_STAT, 63, 48⟩
def RX_STAT_CRC_ERR : Fld := ⟨.RX_STAT, 47, 32⟩
def RX_STAT_ECC_UNCORR : Fld := ⟨.RX_STAT, 31, 16⟩
def RX_STAT_ECC_CORR : Fld := ⟨.RX_STAT, 15, 0⟩
-- STREAM_CFG (09_sensor_intake_commit.md Table 9-10)
def STREAM_CFG_EN : Fld := ⟨.STREAM_CFG, 63, 63⟩
def STREAM_CFG_SRC : Fld := ⟨.STREAM_CFG, 62, 60⟩
def STREAM_CFG_UNIT : Fld := ⟨.STREAM_CFG, 59, 56⟩
def STREAM_CFG_VC : Fld := ⟨.STREAM_CFG, 55, 52⟩
def STREAM_CFG_DT : Fld := ⟨.STREAM_CFG, 51, 46⟩
def STREAM_CFG_UNPACK : Fld := ⟨.STREAM_CFG, 45, 45⟩
def STREAM_CFG_FRAME_TO_MS : Fld := ⟨.STREAM_CFG, 41, 32⟩
-- STREAM_SHAPE (09_sensor_intake_commit.md Table 9-9)
def STREAM_SHAPE_BAND_LINES : Fld := ⟨.STREAM_SHAPE, 39, 32⟩
def STREAM_SHAPE_LINES : Fld := ⟨.STREAM_SHAPE, 31, 16⟩
def STREAM_SHAPE_LINE_BYTES : Fld := ⟨.STREAM_SHAPE, 15, 0⟩
-- STREAM_RING (09_sensor_intake_commit.md Table 9-9)
def STREAM_RING_SLOT_64K : Fld := ⟨.STREAM_RING, 63, 56⟩
def STREAM_RING_DEPTH : Fld := ⟨.STREAM_RING, 52, 48⟩
def STREAM_RING_BASE : Fld := ⟨.STREAM_RING, 47, 0⟩
-- STREAM_CONS (09_sensor_intake_commit.md Table 9-9)
def STREAM_CONS_QUEUE : Fld := ⟨.STREAM_CONS, 33, 32⟩
def STREAM_CONS_BERTHS : Fld := ⟨.STREAM_CONS, 31, 0⟩
-- STREAM_STAT (09_sensor_intake_commit.md Table 9-11)
def STREAM_STAT_NEXT_SEQ : Fld := ⟨.STREAM_STAT, 63, 32⟩
def STREAM_STAT_FREE : Fld := ⟨.STREAM_STAT, 31, 16⟩
def STREAM_STAT_LAST_FAIL : Fld := ⟨.STREAM_STAT, 15, 8⟩
def STREAM_STAT_FILL_SLOT : Fld := ⟨.STREAM_STAT, 7, 4⟩
def STREAM_STAT_FILLING : Fld := ⟨.STREAM_STAT, 3, 3⟩
def STREAM_STAT_SURPLUS : Fld := ⟨.STREAM_STAT, 2, 2⟩
def STREAM_STAT_CFG_ERR : Fld := ⟨.STREAM_STAT, 1, 1⟩
def STREAM_STAT_ACTIVE : Fld := ⟨.STREAM_STAT, 0, 0⟩
-- STREAM_CNT (09_sensor_intake_commit.md Table 9-9)
def STREAM_CNT_EVT_LOST : Fld := ⟨.STREAM_CNT, 63, 48⟩
def STREAM_CNT_FAILED : Fld := ⟨.STREAM_CNT, 47, 32⟩
def STREAM_CNT_SKIPPED : Fld := ⟨.STREAM_CNT, 31, 16⟩
def STREAM_CNT_DROPPED : Fld := ⟨.STREAM_CNT, 15, 0⟩
-- STREAM_CLAIM (09_sensor_intake_commit.md Table 9-9)
def STREAM_CLAIM_VALID : Fld := ⟨.STREAM_CLAIM, 63, 63⟩
def STREAM_CLAIM_SLOT : Fld := ⟨.STREAM_CLAIM, 51, 48⟩
def STREAM_CLAIM_SEQ : Fld := ⟨.STREAM_CLAIM, 31, 0⟩
-- STREAM_FILT (09_sensor_intake_commit.md Table 9-9)
def STREAM_FILT_MASK : Fld := ⟨.STREAM_FILT, 63, 32⟩
def STREAM_FILT_MATCH : Fld := ⟨.STREAM_FILT, 31, 0⟩
-- FSYNC_START (09_sensor_intake_commit.md Table 9-9)
def FSYNC_START_TIDE : Fld := ⟨.FSYNC_START, 63, 0⟩
-- FSYNC_PER (09_sensor_intake_commit.md Table 9-9)
def FSYNC_PER_EN : Fld := ⟨.FSYNC_PER, 63, 63⟩
def FSYNC_PER_WIDTH : Fld := ⟨.FSYNC_PER, 62, 32⟩
def FSYNC_PER_PERIOD : Fld := ⟨.FSYNC_PER, 31, 0⟩
-- STREAM_REL (09_sensor_intake_commit.md Table 9-9)
def STREAM_REL_CNT_CLR : Fld := ⟨.STREAM_REL, 63, 63⟩
def STREAM_REL_REL : Fld := ⟨.STREAM_REL, 4, 4⟩
def STREAM_REL_SLOT : Fld := ⟨.STREAM_REL, 3, 0⟩
-- KV_CFG (11_attention_wharfinger.md Table 11-12)
def KV_CFG_DQUEUE : Fld := ⟨.KV_CFG, 57, 56⟩
def KV_CFG_DLIST : Fld := ⟨.KV_CFG, 55, 48⟩
def KV_CFG_SPLIT : Fld := ⟨.KV_CFG, 47, 32⟩
def KV_CFG_ATTN : Fld := ⟨.KV_CFG, 31, 0⟩
-- KV_STAT (11_attention_wharfinger.md Table 11-12)
def KV_STAT_POOL : Fld := ⟨.KV_STAT, 5, 4⟩
def KV_STAT_STATE : Fld := ⟨.KV_STAT, 2, 0⟩
-- KV_HCMD0 (11_attention_wharfinger.md Table 11-12)
def KV_HCMD0_BYTES : Fld := ⟨.KV_HCMD0, 63, 0⟩
-- KV_HCMD1 (11_attention_wharfinger.md Table 11-12)
def KV_HCMD1_BYTES : Fld := ⟨.KV_HCMD1, 63, 0⟩
-- KV_HRESP (11_attention_wharfinger.md Table 11-12)
def KV_HRESP_DONE : Fld := ⟨.KV_HRESP, 63, 63⟩
def KV_HRESP_STATUS : Fld := ⟨.KV_HRESP, 51, 48⟩
def KV_HRESP_SEQ : Fld := ⟨.KV_HRESP, 47, 32⟩
def KV_HRESP_LEN : Fld := ⟨.KV_HRESP, 31, 0⟩
-- KV_CNT (11_attention_wharfinger.md Table 11-14)
def KV_CNT_CLR : Fld := ⟨.KV_CNT, 63, 63⟩
def KV_CNT_COW : Fld := ⟨.KV_CNT, 47, 32⟩
def KV_CNT_SAT : Fld := ⟨.KV_CNT, 31, 16⟩
def KV_CNT_REQUANT : Fld := ⟨.KV_CNT, 15, 0⟩
-- KV_ERR (11_attention_wharfinger.md Table 11-12)
def KV_ERR_VALID : Fld := ⟨.KV_ERR, 63, 63⟩
def KV_ERR_GROUP : Fld := ⟨.KV_ERR, 59, 56⟩
def KV_ERR_SEQ : Fld := ⟨.KV_ERR, 43, 32⟩
def KV_ERR_PAGE : Fld := ⟨.KV_ERR, 31, 16⟩
def KV_ERR_UNIT : Fld := ⟨.KV_ERR, 15, 0⟩
-- KV_POOL_CFG (11_attention_wharfinger.md Table 11-13)
def KV_POOL_CFG_EN : Fld := ⟨.KV_POOL_CFG, 63, 63⟩
def KV_POOL_CFG_RESTORE : Fld := ⟨.KV_POOL_CFG, 62, 62⟩
def KV_POOL_CFG_RETAIN : Fld := ⟨.KV_POOL_CFG, 61, 61⟩
def KV_POOL_CFG_PART : Fld := ⟨.KV_POOL_CFG, 35, 32⟩
def KV_POOL_CFG_HEADS : Fld := ⟨.KV_POOL_CFG, 31, 24⟩
def KV_POOL_CFG_LAYERS : Fld := ⟨.KV_POOL_CFG, 23, 16⟩
def KV_POOL_CFG_DIM32 : Fld := ⟨.KV_POOL_CFG, 11, 8⟩
def KV_POOL_CFG_DEC : Fld := ⟨.KV_POOL_CFG, 7, 4⟩
def KV_POOL_CFG_FMT : Fld := ⟨.KV_POOL_CFG, 3, 0⟩
-- KV_POOL_QUANT (11_attention_wharfinger.md Table 11-12)
def KV_POOL_QUANT_AQDEPTH : Fld := ⟨.KV_POOL_QUANT, 53, 48⟩
def KV_POOL_QUANT_SMSCALE : Fld := ⟨.KV_POOL_QUANT, 47, 32⟩
def KV_POOL_QUANT_FLOOR : Fld := ⟨.KV_POOL_QUANT, 31, 16⟩
def KV_POOL_QUANT_KHEAD : Fld := ⟨.KV_POOL_QUANT, 15, 0⟩
-- KV_POOL_MEM (11_attention_wharfinger.md Table 11-12)
def KV_POOL_MEM_BASE : Fld := ⟨.KV_POOL_MEM, 47, 0⟩
-- KV_POOL_PAGES (11_attention_wharfinger.md Table 11-12)
def KV_POOL_PAGES_COUNT : Fld := ⟨.KV_POOL_PAGES, 32, 16⟩
def KV_POOL_PAGES_FIRST : Fld := ⟨.KV_POOL_PAGES, 15, 0⟩
-- KV_POOL_SEQ (11_attention_wharfinger.md Table 11-12)
def KV_POOL_SEQ_MAP_BASE : Fld := ⟨.KV_POOL_SEQ, 62, 44⟩
def KV_POOL_SEQ_MAXP : Fld := ⟨.KV_POOL_SEQ, 41, 32⟩
def KV_POOL_SEQ_SEQ_COUNT : Fld := ⟨.KV_POOL_SEQ, 28, 16⟩
def KV_POOL_SEQ_SEQ_FIRST : Fld := ⟨.KV_POOL_SEQ, 11, 0⟩
-- KV_POOL_NV (11_attention_wharfinger.md Table 11-12)
def KV_POOL_NV_NV_B : Fld := ⟨.KV_POOL_NV, 63, 32⟩
def KV_POOL_NV_NV_A : Fld := ⟨.KV_POOL_NV, 31, 0⟩
-- KV_POOL_STAT (11_attention_wharfinger.md Table 11-12)
def KV_POOL_STAT_SEQ : Fld := ⟨.KV_POOL_STAT, 63, 32⟩
def KV_POOL_STAT_CFG_ERR : Fld := ⟨.KV_POOL_STAT, 31, 31⟩
def KV_POOL_STAT_FREE : Fld := ⟨.KV_POOL_STAT, 16, 0⟩
-- DRG_STAT (12_dredger.md Table 12-11)
def DRG_STAT_SWEEP : Fld := ⟨.DRG_STAT, 47, 16⟩
def DRG_STAT_SLOT : Fld := ⟨.DRG_STAT, 6, 4⟩
def DRG_STAT_STATE : Fld := ⟨.DRG_STAT, 2, 0⟩
-- DRG_HCMD0 (12_dredger.md Table 12-11)
def DRG_HCMD0_BYTES : Fld := ⟨.DRG_HCMD0, 63, 0⟩
-- DRG_HCMD1 (12_dredger.md Table 12-11)
def DRG_HCMD1_BYTES : Fld := ⟨.DRG_HCMD1, 63, 0⟩
-- DRG_HRESP (12_dredger.md Table 12-11)
def DRG_HRESP_DONE : Fld := ⟨.DRG_HRESP, 63, 63⟩
def DRG_HRESP_SLOT : Fld := ⟨.DRG_HRESP, 62, 60⟩
def DRG_HRESP_STATUS : Fld := ⟨.DRG_HRESP, 59, 56⟩
def DRG_HRESP_STATE : Fld := ⟨.DRG_HRESP, 55, 52⟩
def DRG_HRESP_OP : Fld := ⟨.DRG_HRESP, 51, 48⟩
def DRG_HRESP_E_BEST_F : Fld := ⟨.DRG_HRESP, 31, 0⟩
-- DRG_CNT (12_dredger.md Table 12-11)
def DRG_CNT_CLR : Fld := ⟨.DRG_CNT, 63, 63⟩
def DRG_CNT_ZEROED : Fld := ⟨.DRG_CNT, 55, 40⟩
def DRG_CNT_DEFER : Fld := ⟨.DRG_CNT, 39, 0⟩
-- DRG_ERR (12_dredger.md Table 12-11)
def DRG_ERR_VALID : Fld := ⟨.DRG_ERR, 63, 63⟩
def DRG_ERR_SLOT : Fld := ⟨.DRG_ERR, 62, 60⟩
def DRG_ERR_GROUP : Fld := ⟨.DRG_ERR, 59, 56⟩
def DRG_ERR_REASON : Fld := ⟨.DRG_ERR, 55, 48⟩
def DRG_ERR_ADDR : Fld := ⟨.DRG_ERR, 47, 0⟩
-- DRG_SLOT_CFG (12_dredger.md Table 12-11)
def DRG_SLOT_CFG_EN : Fld := ⟨.DRG_SLOT_CFG, 63, 63⟩
def DRG_SLOT_CFG_HOST : Fld := ⟨.DRG_SLOT_CFG, 62, 62⟩
def DRG_SLOT_CFG_PART : Fld := ⟨.DRG_SLOT_CFG, 35, 32⟩
def DRG_SLOT_CFG_SWEEPS : Fld := ⟨.DRG_SLOT_CFG, 31, 0⟩
-- DRG_SLOT_TEMP (12_dredger.md Table 12-11)
def DRG_SLOT_TEMP_ALPHA : Fld := ⟨.DRG_SLOT_TEMP, 63, 32⟩
def DRG_SLOT_TEMP_T0 : Fld := ⟨.DRG_SLOT_TEMP, 31, 0⟩
-- DRG_SLOT_TMIN (12_dredger.md Table 12-11)
def DRG_SLOT_TMIN_STALL_LIM : Fld := ⟨.DRG_SLOT_TMIN, 63, 32⟩
def DRG_SLOT_TMIN_T_MIN : Fld := ⟨.DRG_SLOT_TMIN, 31, 0⟩
-- DRG_SLOT_OFF (12_dredger.md Table 12-11)
def DRG_SLOT_OFF_OFF_CAP : Fld := ⟨.DRG_SLOT_OFF, 63, 32⟩
def DRG_SLOT_OFF_OFF_STEP : Fld := ⟨.DRG_SLOT_OFF, 31, 0⟩
-- DRG_SLOT_STAT (12_dredger.md Table 12-11)
def DRG_SLOT_STAT_SWEEP : Fld := ⟨.DRG_SLOT_STAT, 63, 32⟩
def DRG_SLOT_STAT_CFG_ERR : Fld := ⟨.DRG_SLOT_STAT, 8, 8⟩
def DRG_SLOT_STAT_LAST_STATUS : Fld := ⟨.DRG_SLOT_STAT, 7, 4⟩
def DRG_SLOT_STAT_STATE : Fld := ⟨.DRG_SLOT_STAT, 2, 0⟩
-- DRG_SLOT_DESC (12_dredger.md Table 12-11)
def DRG_SLOT_DESC_ADDR : Fld := ⟨.DRG_SLOT_DESC, 47, 0⟩
-- HOST_CFG (18_host_field_interfaces.md Table 18-9)
def HOST_CFG_IBI_PINS : Fld := ⟨.HOST_CFG, 19, 16⟩
def HOST_CFG_I3C_SADDR : Fld := ⟨.HOST_CFG, 10, 4⟩
def HOST_CFG_I3C_EN : Fld := ⟨.HOST_CFG, 2, 2⟩
def HOST_CFG_SPI_EN : Fld := ⟨.HOST_CFG, 1, 1⟩
def HOST_CFG_CA_ON_POISON : Fld := ⟨.HOST_CFG, 0, 0⟩
-- HOST_WIN (18_host_field_interfaces.md Table 18-9)
def HOST_WIN_BASE : Fld := ⟨.HOST_WIN, 15, 0⟩
-- HOST_STAT (18_host_field_interfaces.md Table 18-9)
def HOST_STAT_I3C_DA : Fld := ⟨.HOST_STAT, 22, 16⟩
def HOST_STAT_SPI_ERR : Fld := ⟨.HOST_STAT, 11, 8⟩
def HOST_STAT_LINK_UP : Fld := ⟨.HOST_STAT, 7, 7⟩
def HOST_STAT_WIDTH : Fld := ⟨.HOST_STAT, 6, 4⟩
def HOST_STAT_GEN : Fld := ⟨.HOST_STAT, 3, 1⟩
def HOST_STAT_READY : Fld := ⟨.HOST_STAT, 0, 0⟩
-- HOST_ERR (18_host_field_interfaces.md Table 18-9)
def HOST_ERR_VALID : Fld := ⟨.HOST_ERR, 63, 63⟩
def HOST_ERR_PATH : Fld := ⟨.HOST_ERR, 61, 60⟩
def HOST_ERR_STATUS : Fld := ⟨.HOST_ERR, 59, 56⟩
def HOST_ERR_ADDR : Fld := ⟨.HOST_ERR, 47, 0⟩
-- HOST_CNT (18_host_field_interfaces.md Table 18-9)
def HOST_CNT_NOT_OK : Fld := ⟨.HOST_CNT, 63, 48⟩
def HOST_CNT_I3C_ERR : Fld := ⟨.HOST_CNT, 47, 32⟩
def HOST_CNT_SPI_ERR : Fld := ⟨.HOST_CNT, 31, 16⟩
def HOST_CNT_SPI_FRAMES : Fld := ⟨.HOST_CNT, 15, 0⟩
-- HOST_DBG (18_host_field_interfaces.md Table 18-9)
def HOST_DBG_REFUSED : Fld := ⟨.HOST_DBG, 2, 2⟩
def HOST_DBG_ACTIVE : Fld := ⟨.HOST_DBG, 1, 1⟩
def HOST_DBG_EN : Fld := ⟨.HOST_DBG, 0, 0⟩
-- CAN_CFG (18_host_field_interfaces.md Table 18-10)
def CAN_CFG_LISTEN_ONLY : Fld := ⟨.CAN_CFG, 4, 4⟩
def CAN_CFG_AUTO_RECOVER : Fld := ⟨.CAN_CFG, 3, 3⟩
def CAN_CFG_BRS_EN : Fld := ⟨.CAN_CFG, 2, 2⟩
def CAN_CFG_FD : Fld := ⟨.CAN_CFG, 1, 1⟩
def CAN_CFG_EN : Fld := ⟨.CAN_CFG, 0, 0⟩
-- CAN_NBT (18_host_field_interfaces.md Table 18-10)
def CAN_NBT_SJW : Fld := ⟨.CAN_NBT, 31, 25⟩
def CAN_NBT_TSEG2 : Fld := ⟨.CAN_NBT, 24, 18⟩
def CAN_NBT_TSEG1 : Fld := ⟨.CAN_NBT, 17, 10⟩
def CAN_NBT_BRP : Fld := ⟨.CAN_NBT, 9, 0⟩
-- CAN_DBT (18_host_field_interfaces.md Table 18-10)
def CAN_DBT_TDC_EN : Fld := ⟨.CAN_DBT, 26, 26⟩
def CAN_DBT_TDCO : Fld := ⟨.CAN_DBT, 25, 19⟩
def CAN_DBT_SJW : Fld := ⟨.CAN_DBT, 18, 15⟩
def CAN_DBT_TSEG2 : Fld := ⟨.CAN_DBT, 14, 10⟩
def CAN_DBT_TSEG1 : Fld := ⟨.CAN_DBT, 9, 5⟩
def CAN_DBT_BRP : Fld := ⟨.CAN_DBT, 4, 0⟩
-- CAN_STAT (18_host_field_interfaces.md Table 18-10)
def CAN_STAT_RXLOST : Fld := ⟨.CAN_STAT, 47, 32⟩
def CAN_STAT_REC : Fld := ⟨.CAN_STAT, 23, 16⟩
def CAN_STAT_TEC : Fld := ⟨.CAN_STAT, 15, 8⟩
def CAN_STAT_STATE : Fld := ⟨.CAN_STAT, 1, 0⟩
-- CAN_FULL (18_host_field_interfaces.md Table 18-10)
def CAN_FULL_BITS : Fld := ⟨.CAN_FULL, 63, 0⟩
-- CAN_PEND (18_host_field_interfaces.md Table 18-10)
def CAN_PEND_BITS : Fld := ⟨.CAN_PEND, 63, 0⟩
-- ETH_CFG (18_host_field_interfaces.md Table 18-10)
def ETH_CFG_MCAST_ALL : Fld := ⟨.ETH_CFG, 6, 6⟩
def ETH_CFG_SPEED : Fld := ⟨.ETH_CFG, 5, 4⟩
def ETH_CFG_AN_EN : Fld := ⟨.ETH_CFG, 2, 2⟩
def ETH_CFG_BASEX : Fld := ⟨.ETH_CFG, 1, 1⟩
def ETH_CFG_EN : Fld := ⟨.ETH_CFG, 0, 0⟩
-- ETH_ADDR (18_host_field_interfaces.md Table 18-10)
def ETH_ADDR_MAC : Fld := ⟨.ETH_ADDR, 47, 0⟩
-- ETH_RX (18_host_field_interfaces.md Table 18-10)
def ETH_RX_COUNT_M1 : Fld := ⟨.ETH_RX, 55, 48⟩
def ETH_RX_BASE : Fld := ⟨.ETH_RX, 47, 0⟩
-- ETH_TX (18_host_field_interfaces.md Table 18-10)
def ETH_TX_COUNT_M1 : Fld := ⟨.ETH_TX, 55, 48⟩
def ETH_TX_BASE : Fld := ⟨.ETH_TX, 47, 0⟩
-- ETH_KICK (18_host_field_interfaces.md Table 18-10)
def ETH_KICK_GO : Fld := ⟨.ETH_KICK, 0, 0⟩
-- ETH_STAT (18_host_field_interfaces.md Table 18-10)
def ETH_STAT_RX_ERR : Fld := ⟨.ETH_STAT, 47, 32⟩
def ETH_STAT_RX_DROP : Fld := ⟨.ETH_STAT, 31, 16⟩
def ETH_STAT_SPEED : Fld := ⟨.ETH_STAT, 2, 1⟩
def ETH_STAT_LINK_UP : Fld := ⟨.ETH_STAT, 0, 0⟩
-- ETH_MDIO (18_host_field_interfaces.md Table 18-10)
def ETH_MDIO_DATA : Fld := ⟨.ETH_MDIO, 31, 16⟩
def ETH_MDIO_GO : Fld := ⟨.ETH_MDIO, 11, 11⟩
def ETH_MDIO_WRITE : Fld := ⟨.ETH_MDIO, 10, 10⟩
def ETH_MDIO_REG : Fld := ⟨.ETH_MDIO, 9, 5⟩
def ETH_MDIO_PHY : Fld := ⟨.ETH_MDIO, 4, 0⟩
-- XSPI_CFG (18_host_field_interfaces.md Table 18-10)
def XSPI_CFG_CLOCK : Fld := ⟨.XSPI_CFG, 15, 8⟩
def XSPI_CFG_MODE1 : Fld := ⟨.XSPI_CFG, 3, 2⟩
def XSPI_CFG_MODE0 : Fld := ⟨.XSPI_CFG, 1, 0⟩
-- XSPI_CMD0 (18_host_field_interfaces.md Table 18-10)
def XSPI_CMD0_OP : Fld := ⟨.XSPI_CMD0, 35, 33⟩
def XSPI_CMD0_CS : Fld := ⟨.XSPI_CMD0, 32, 32⟩
def XSPI_CMD0_OFFSET : Fld := ⟨.XSPI_CMD0, 31, 0⟩
-- XSPI_CMD1 (18_host_field_interfaces.md Table 18-10)
def XSPI_CMD1_ADDR : Fld := ⟨.XSPI_CMD1, 47, 0⟩
-- XSPI_LEN (18_host_field_interfaces.md Table 18-10)
def XSPI_LEN_LEN : Fld := ⟨.XSPI_LEN, 24, 0⟩
-- XSPI_STAT (18_host_field_interfaces.md Table 18-10)
def XSPI_STAT_STATUS : Fld := ⟨.XSPI_STAT, 7, 4⟩
def XSPI_STAT_HELD : Fld := ⟨.XSPI_STAT, 1, 1⟩
def XSPI_STAT_BUSY : Fld := ⟨.XSPI_STAT, 0, 0⟩
-- SPIC_CFG (18_host_field_interfaces.md Table 18-10)
def SPIC_CFG_CS : Fld := ⟨.SPIC_CFG, 16, 16⟩
def SPIC_CFG_DIV : Fld := ⟨.SPIC_CFG, 15, 8⟩
def SPIC_CFG_MODE : Fld := ⟨.SPIC_CFG, 1, 0⟩
-- SPIC_TX (18_host_field_interfaces.md Table 18-10)
def SPIC_TX_LEN_M1 : Fld := ⟨.SPIC_TX, 59, 48⟩
def SPIC_TX_ADDR : Fld := ⟨.SPIC_TX, 47, 0⟩
-- SPIC_RX (18_host_field_interfaces.md Table 18-10)
def SPIC_RX_ADDR : Fld := ⟨.SPIC_RX, 47, 0⟩
-- SPIC_TRIG (18_host_field_interfaces.md Table 18-10)
def SPIC_TRIG_TIDE : Fld := ⟨.SPIC_TRIG, 63, 0⟩
-- SPIC_STAT (18_host_field_interfaces.md Table 18-10)
def SPIC_STAT_DONE : Fld := ⟨.SPIC_STAT, 63, 32⟩
def SPIC_STAT_STATUS : Fld := ⟨.SPIC_STAT, 7, 4⟩
def SPIC_STAT_BUSY : Fld := ⟨.SPIC_STAT, 0, 0⟩
-- UART_CFG (18_host_field_interfaces.md Table 18-10)
def UART_CFG_RTSCTS : Fld := ⟨.UART_CFG, 25, 25⟩
def UART_CFG_STOP2 : Fld := ⟨.UART_CFG, 24, 24⟩
def UART_CFG_PARITY : Fld := ⟨.UART_CFG, 23, 22⟩
def UART_CFG_BAUD : Fld := ⟨.UART_CFG, 21, 0⟩
-- UART_DATA (18_host_field_interfaces.md Table 18-10)
def UART_DATA_VALID : Fld := ⟨.UART_DATA, 8, 8⟩
def UART_DATA_BYTE : Fld := ⟨.UART_DATA, 7, 0⟩
-- UART_STAT (18_host_field_interfaces.md Table 18-10)
def UART_STAT_FRAMING : Fld := ⟨.UART_STAT, 17, 17⟩
def UART_STAT_PARITY : Fld := ⟨.UART_STAT, 16, 16⟩
def UART_STAT_OVERRUN : Fld := ⟨.UART_STAT, 15, 15⟩
def UART_STAT_RX_LEVEL : Fld := ⟨.UART_STAT, 14, 8⟩
def UART_STAT_TX_LEVEL : Fld := ⟨.UART_STAT, 6, 0⟩
-- GPIO_DIR (18_host_field_interfaces.md Table 18-10)
def GPIO_DIR_OUT : Fld := ⟨.GPIO_DIR, 15, 0⟩
-- GPIO_OUT (18_host_field_interfaces.md Table 18-10)
def GPIO_OUT_LEVEL : Fld := ⟨.GPIO_OUT, 15, 0⟩
-- GPIO_IN (18_host_field_interfaces.md Table 18-10)
def GPIO_IN_LEVEL : Fld := ⟨.GPIO_IN, 15, 0⟩

end F

end Sys2Proof.Machine
end

