-- ==== Sys2Proof/Syntax.lean ====
section
/-! DEFINITION. The commands of the Q32, one constructor per row of spec/opcode_table.json, and the plain data their
operands are made of. A command is one indivisible step of the device (95_what_each_step_holds.md); what the device's
surroundings decide (a comparator's verdict, a sampled level, received data) is an operand. -/

namespace Sys2Proof

/-- The host paths of 18_host_field_interfaces.md R621, in their order of precedence. -/
inductive HostPath where
  | pcie | spi | i3c | jtag
  deriving DecidableEq, Repr, Inhabited

/-- Who presents a request or a register access (02_address_space.md R40, R47; 00_scope.md R11). `remote x y u` is a
board-window request that another chip's unit `u` sent (14_zenier_mesh.md R510). -/
inductive Requester where
  | berth (n : Fin 32)      -- the Berth's sequencer or Crane
  | pilot
  | wharfinger
  | dredger
  | lighter
  | intake
  | field                   -- the field interfaces' controllers
  | host (p : HostPath)
  | remote (x y : BitVec 8) (unit : BitVec 6)
  deriving DecidableEq, Repr, Inhabited

/-- The status codes of 04_sequencer_work_orders.md Table 4-4 (R130). -/
inductive Status where
  | ok | busy | stalled | down | linkLost | poolFull | qfull | poison | chartFit
  deriving DecidableEq, Repr, Inhabited

/-- The operations a memory request asks for (02_address_space.md R45, R46). -/
inductive MemOp where
  | read (len : Nat)
  | write (data : List Byte)
  | fetchAdd (v : U64)
  | cas (cmp swap : U64)
  deriving DecidableEq, Repr, Inhabited

/-- The lockstep pairs whose comparators can find a difference (03_berth_pairs.md R85, 15_fault_detection.md R530). -/
inductive PairUnit where
  | berth (n : Fin 32) | wharfinger | dredger
  deriving DecidableEq, Repr, Inhabited

/-- The outcome of a CSI-2 packet header's ECC check (09_sensor_intake_commit.md R311). -/
inductive HdrEcc where
  | ok | corrected | uncorrectable
  deriving DecidableEq, Repr, Inhabited

/-- A failed injection of a start-check item: its item, instance, injection number and response code
(08_start_check.md Tables 8-1, 8-5 and 8-6). -/
structure ScFail where
  item : Nat
  inst : Nat
  sub : Nat
  resp : Nat
  deriving DecidableEq, Repr, Inhabited

/-- The kinds of start check (08_start_check.md, "Kinds of check"). -/
inductive ScKind where
  | full | wake
  deriving DecidableEq, Repr, Inhabited

/-- A 32-byte Manifest as it lies in memory, byte 0 in bits [7:0] (13_manifests_buoys.md Table 13-1). -/
abbrev Manifest := BitVec 256

/-- Flits of one packet (14_zenier_mesh.md): a head flit as it lies on the link, byte 0 in bits [7:0] (Table 14-6), with the payload
of the data flits that follow it; or data flits alone, which continue the packet of that head flit in its virtual channel. -/
structure Packet where
  head : BitVec 512
  data : List Byte
  cont : Bool := false              -- data flits that continue the packet of this head flit
  more : Bool := false              -- further data flits of the packet follow
  deriving DecidableEq, Repr, Inhabited

/-- Where a command of the Wharfinger or the Dredger comes from (R377, R421): a Manifest of a class from a unit of a chip,
or the host interface's HCMD registers. -/
inductive CmdSrc where
  | manifest (cls : BitVec 2) (x y : BitVec 8) (unit : BitVec 6)
  | host
  deriving DecidableEq, Repr, Inhabited

/-- Who asks for a store segment (07_sleep_wake_clocks_straps.md R275). -/
inductive NvUser where
  | pilot | logbook | wharfinger | xspiCmd
  deriving DecidableEq, Repr, Inhabited

/-- A CAN frame on the bus (18_host_field_interfaces.md Table 18-5, R642). -/
structure CanFrame where
  id : BitVec 29
  ide : Bool
  fdf : Bool
  brs : Bool
  esi : Bool
  rtr : Bool
  dlc : BitVec 4
  data : List Byte
  deriving DecidableEq, Repr, Inhabited

/-- What happened to the frame a CAN controller offered (R643, R645). -/
inductive CanTxResult where
  | sent (sof : BitVec 64)
  | lostArbitration
  | errorFrame
  deriving DecidableEq, Repr, Inhabited

/-- A frame that a MAC has sent: the MAC, and the tide time of its start-of-frame delimiter (R647, R648). -/
structure EthSent where
  mac : Fin 2
  sfd : BitVec 64
  deriving DecidableEq, Repr, Inhabited

/-- The conditions that lose a link (14_zenier_mesh.md R521). -/
inductive LossCause where
  | noBlockLock | noControlBlock | replayLimit | bufferError
  deriving DecidableEq, Repr, Inhabited

/-- What a neighbour reports in CONFIG (14_zenier_mesh.md R497). -/
structure Neighbour where
  x : BitVec 8
  y : BitVec 8
  dom : BitVec 2
  posx : BitVec 3
  posy : BitVec 3
  txw : BitVec 2        -- width code of this chip's transmit direction, chosen by the neighbour
  txLanes : BitVec 8
  vc : BitVec 48        -- the neighbour's QUAY_VC: credits it grants for VC 0 to 5
  deriving DecidableEq, Repr, Inhabited

/-- The commands of the block: one constructor per row of spec/opcode_table.json. -/
inductive Instr where
  -- 00, 02: registers and memory
  | registerWrite (who : Requester) (addr : Addr) (size : Nat) (v : U64) (parityOk : Bool)
  | memoryRequest (who : Requester) (tag : Nat) (epoch : BitVec 2) (addr : Addr) (op : MemOp)
  | basinScrub (busy : BitVec 16)
  | memoryTrainingDone (cap0 cap1 : BitVec 3)
  -- 03: pairs and Cranes
  | lockMismatch (u : PairUnit) (buses : BitVec 6) (comp : BitVec 2)
  | compDiverge (u : PairUnit) (buses : BitVec 6) (comp : BitVec 2)
  | craneCompletion (n : Fin 32) (tag : BitVec 8) (epoch : BitVec 2)
  | craneTimeout (n : Fin 32) (tag : BitVec 8)
  -- 04: sequencer, arithmetic
  | add (n : Fin 32) (d a b : Fin 16)
  | sub (n : Fin 32) (d a b : Fin 16)
  | and (n : Fin 32) (d a b : Fin 16)
  | or (n : Fin 32) (d a b : Fin 16)
  | xor (n : Fin 32) (d a b : Fin 16)
  | shl (n : Fin 32) (d a b : Fin 16)
  | shr (n : Fin 32) (d a b : Fin 16)
  | sar (n : Fin 32) (d a b : Fin 16)
  | mul (n : Fin 32) (d a b : Fin 16)
  | min (n : Fin 32) (d a b : Fin 16)
  | max (n : Fin 32) (d a b : Fin 16)
  | cmp (n : Fin 32) (a b : Fin 16)
  | addi (n : Fin 32) (d a : Fin 16) (imm : BitVec 18)
  | andi (n : Fin 32) (d a : Fin 16) (imm : BitVec 18)
  | ori (n : Fin 32) (d a : Fin 16) (imm : BitVec 18)
  | xori (n : Fin 32) (d a : Fin 16) (imm : BitVec 18)
  | shli (n : Fin 32) (d a : Fin 16) (imm : BitVec 18)
  | shri (n : Fin 32) (d a : Fin 16) (imm : BitVec 18)
  | sari (n : Fin 32) (d a : Fin 16) (imm : BitVec 18)
  | cmpi (n : Fin 32) (a : Fin 16) (imm : BitVec 18)
  | movi (n : Fin 32) (d : Fin 16) (imm : BitVec 22)
  | movhi (n : Fin 32) (d : Fin 16) (hw : Fin 4) (imm : BitVec 16)
  | amov (n : Fin 32) (d : Fin 8) (a : Fin 16)
  | gmov (n : Fin 32) (d : Fin 16) (a : Fin 8)
  | aaddi (n : Fin 32) (d a : Fin 8) (imm : BitVec 18)
  | ld (n : Fin 32) (d : Fin 16) (a : Fin 8) (imm : BitVec 18)
  | ldw (n : Fin 32) (d : Fin 16) (a : Fin 8) (imm : BitVec 18)
  | st (n : Fin 32) (d : Fin 16) (a : Fin 8) (imm : BitVec 18)
  | stw (n : Fin 32) (d : Fin 16) (a : Fin 8) (imm : BitVec 18)
  | fadd (n : Fin 32) (d : Fin 16) (a : Fin 8) (b : Fin 16)
  | cas (n : Fin 32) (d : Fin 16) (a : Fin 8) (b : Fin 16)
  | loadComplete (n : Fin 32)
  | b (n : Fin 32) (cond : BitVec 4) (off : BitVec 22)
  | call (n : Fin 32) (off : BitVec 22)
  | ret (n : Fin 32)
  | loop (n : Fin 32) (l : Fin 4) (c : Fin 16) (len : BitVec 12)
  | loopi (n : Fin 32) (l : Fin 4) (count : BitVec 12) (len : BitVec 12)
  | illegalInstruction (n : Fin 32) (word : U32)
  | wo (n : Fin 32) (d : Fin 16) (a : Fin 8)
  | woEntryFree (n : Fin 32)
  | send (n : Fin 32) (d : Fin 16) (a : Fin 8)
  | sendnb (n : Fin 32) (d : Fin 16) (a : Fin 8)
  | sendAccept (n : Fin 32)
  | mooringTimeout (n : Fin 32)
  | poll (n : Fin 32) (d : Fin 16) (a : Fin 8) (b : Fin 16) (unit : BitVec 2) (count : BitVec 12)
  | pollSatisfied (n : Fin 32)
  | pollTimeout (n : Fin 32)
  | relq (n : Fin 32) (q : Fin 4)
  | waitt (n : Fin 32) (a : Fin 16)
  | waittResume (n : Fin 32)
  | rdtide (n : Fin 32) (d : Fin 16)
  | fence (n : Fin 32) (w : Bool)
  | fenceRetire (n : Fin 32)
  | commit (n : Fin 32) (d a : Fin 16)
  | commitPublish (n : Fin 32)
  | squash (n : Fin 32) (a : Fin 16)
  | stamp (n : Fin 32) (a : Fin 16) (idx : Fin 64)
  | yield (n : Fin 32)
  | yieldResume (n : Fin 32)
  | halt (n : Fin 32)
  | seqCtlStop (who : Requester) (n : Fin 32)
  | seqCtlResume (who : Requester) (n : Fin 32)
  -- 04, 05, 10, 11: work orders
  | matmul (n : Fin 32)
  | conv (n : Fin 32)
  | dwconv (n : Fin 32)
  | pool (n : Fin 32)
  | elem (n : Fin 32)
  | reduce (n : Fin 32)
  | s2d (n : Fin 32)
  | d2s (n : Fin 32)
  | fmcomp (n : Fin 32)
  | fmdecomp (n : Fin 32)
  | attnblk (n : Fin 32)
  | kvappend (n : Fin 32)
  | cvt (n : Fin 32)
  | copy (n : Fin 32)
  | workOrderComplete (n : Fin 32) (seq : U32)
  -- counter clears
  | fmtCntClr (n : Fin 32)
  | fmcCntClr (n : Fin 32)
  | craneCntClr (n : Fin 32)
  | holdEccClr (n : Fin 32)
  | basinEccClr
  | mcEccClr (c : Fin 2)
  | kvCntClr
  | drgCntClr
  | inCntClr
  | quayCntClr (q : Fin 4)
  -- 06: charts
  | bootLoad
  | residentChartLoad
  | reportTimeout
  | chartBatch (secType : BitVec 8) (addr : Addr) (len : Nat) (x y : BitVec 8)
  | batchAnswer (chip : Fin 64) (st : Status)
  | batchTimeout (chip : Fin 64)
  | chartStart
  | berthAvailableTimeout (n : Fin 32)
  | pilotBoot
  | load
  | rechart (part : BitVec 4)
  | store
  -- 07: states, clocks, domains
  | porNFall (lowNs : Nat)
  | porNRise (gpio : BitVec 14) (factoryN : Bool) (estopA estopB : Bool)
  | wake (src : BitVec 21)
  | tideAlarm
  | referenceCheck (count : Nat)
  | pllLock (p : Fin 4)
  | pllLockTimeout (p : Fin 4)
  | domainOn (d : Fin 44) (fails : List ScFail)
  | domainPowerOn (who : Requester) (d : Fin 44)
  | domainPowerOff (who : Requester) (d : Fin 44)
  | domainReset (who : Requester) (d : Fin 44)
  | drainOutboundDone (d : Fin 44)
  | drainTimeout (d : Fin 44)
  | domainResetHoldEnd (d : Fin 44)
  | warmReset (who : Requester)
  | serviceEnter (who : Requester)
  | sleepRequest (who : Requester)
  | sleepEntryComplete
  | aoTick (raw : BitVec 5)
  | xtalSwitch
  | tideSyncTimer
  | sync (q : Fin 4) (kind : BitVec 2) (time : BitVec 40) (master : BitVec 6) (crcOk : Bool)
  | tideParentTimeout
  | masterElectionTimeout
  | masterClaim (chip : BitVec 6)
  | timePps
  | tideSet (who : Requester) (v : U64)
  | segmentRequest (u : NvUser) (bytes : Nat) (code : BitVec 12)
  | holdupRetry (code : BitVec 12)
  -- 08: start check
  | startCheck
  | scInjectionWindow (f : ScFail)
  | startCheckDone
  | manualInjection (who : Requester) (slot : BitVec 6) (v : U64)
  -- 09: sensor intake
  | frameStart (r : Fin 8) (vc : BitVec 4) (frameNo : BitVec 16) (ecc : HdrEcc)
  | linePacket (r : Fin 8) (vc : BitVec 4) (dt : BitVec 6) (data : List Byte) (ecc : HdrEcc) (crcOk : Bool)
  | frameEnd (r : Fin 8) (vc : BitVec 4) (frameNo : BitVec 16) (ecc : HdrEcc)
  | frameTimeout (s : Fin 16)
  | ringWriteComplete (s : Fin 16) (st : Status)
  | intakeLink (r : Fin 8)
  | streamClaim (who : Requester) (s : Fin 16)
  | streamRel (who : Requester) (s : Fin 16) (slot : BitVec 4)
  | streamCntClr (who : Requester) (s : Fin 16)
  | streamEnable (who : Requester) (s : Fin 16)
  | streamDisable (who : Requester) (s : Fin 16)
  | cgOutcome (n : Fin 32) (cg : BitVec 12) (confirm : Bool)
  | fsyncPulse (k : Fin 8)
  | fsyncPulseEnd (k : Fin 8)
  -- 11: Wharfinger commands
  | kvOpen (src : CmdSrc) (reply : BitVec 8) (seq : BitVec 16)
  | kvClose (src : CmdSrc) (reply : BitVec 8) (seq : BitVec 16)
  | kvFork (src : CmdSrc) (reply : BitVec 8) (dst srcSeq : BitVec 16) (t : U32)
  | kvTrunc (src : CmdSrc) (reply : BitVec 8) (seq : BitVec 16) (t : U32)
  | kvDispatch (src : CmdSrc) (reply : BitVec 8) (layer count : BitVec 16) (list : Addr)
  | kvStow (src : CmdSrc) (reply : BitVec 8) (pool : BitVec 16)
  | kvQuery (src : CmdSrc) (reply : BitVec 8) (seq : BitVec 16)
  | kvRestore (p : Fin 4)
  | kvUnstow (p : Fin 4)
  -- 12: Dredger commands
  | submit (src : CmdSrc) (reply : BitVec 8) (k : BitVec 8) (desc : Addr)
  | pause (src : CmdSrc) (reply : BitVec 8) (k : BitVec 8)
  | resume (src : CmdSrc) (reply : BitVec 8) (k : BitVec 8)
  | stop (src : CmdSrc) (reply : BitVec 8) (k : BitVec 8)
  | collect (src : CmdSrc) (reply : BitVec 8) (k : BitVec 8)
  | drgStatus (src : CmdSrc) (reply : BitVec 8) (k : BitVec 8)
  | drgProblemStart
  | drgLoadDone
  | drgStep
  -- 13: Manifests
  | manifestDelivery (m : Manifest) (flow : Bool)
  | creditReturn (n : Fin 32) (flow : Fin 16) (cause : BitVec 2)
  | blockNack (m : Manifest)
  -- 14: links and mesh
  | headFlitRoute (from_ : Option (Fin 4)) (p : Packet)
  | flitGroup (q : Fin 4) (gseq : BitVec 8) (crcOk : Bool) (flits : List Packet)
  | cred (q : Fin 4) (counts : BitVec 42) (crcOk : Bool)
  | credTimer (q : Fin 4)
  | ack (q : Fin 4) (ackseq : BitVec 8) (crcOk : Bool)
  | nak (q : Fin 4) (ackseq : BitVec 8) (crcOk : Bool)
  | ackTimer (q : Fin 4)
  | replayTimeout (q : Fin 4)
  | sleepNotice (q : Fin 4)
  | quiesce (q : Fin 4)
  | linkLoss (q : Fin 4) (cause : LossCause)
  | linkTraining (q : Fin 4)
  | laneTestEnd (q : Fin 4) (pass : BitVec 8)
  | linkActive (q : Fin 4) (nb : Neighbour)
  | trainRetry (q : Fin 4)
  | quayWake (q : Fin 4)
  | routeStall (vc : Fin 6)
  | boardWindowRequest (p : Packet)
  | resp (p : Packet)
  | lighterEnqueue (m : Manifest)
  | bopen (x y : BitVec 8) (xfer : U32) (m : Manifest)
  | bgrant (xfer : U32) (st : Status)
  | bgrantBusyRepeat
  | bgrantTimeout (xfer : U32)
  | bseg (x y : BitVec 8) (xfer : U32) (segOff : U32) (final poison : Bool) (data : List Byte)
  | bsegTimeout (x y : BitVec 8) (xfer : U32)
  | ltRelease (who : Requester) (addr : Addr)
  -- 15: detection
  | hmMismatch (groups : BitVec 6) (comp : BitVec 2)
  | hmDiverge (groups : BitVec 6) (comp : BitVec 2)
  | clkMonWindow (clock : Fin 5) (count expected : BitVec 16)
  | rcCheck (window count : Nat)
  | stampArrival (n : Fin 32) (i : Fin 64) (t : U64)
  | lhAgeExpiry (i : Fin 64)
  | lhPeriodExpiry (i : Fin 64)
  | lhFirstExpiry (i : Fin 64)
  -- 16, 19: header, safe outputs, Logbook
  | blkFaultWrite (who : Requester) (slot : BitVec 6) (v : U64)
  | blkFmaskWrite (who : Requester) (slot : BitVec 6) (v : U64)
  | blkIrqWrite (who : Requester) (slot : BitVec 6) (v : U64)
  | blkAck (who : Requester) (slot : BitVec 6)
  | graceExpiry (slot : BitVec 6)
  | soCmdWrite (who : Requester) (v : U64)
  | safeNLow (lowNs : Nat)
  | soRbMism (k : Fin 4)
  | safeExit (who : Requester)
  | logEntryWrite (uncorrectable : Bool)
  | mirrorNow (who : Requester)
  | mirrorPeriod
  | mirrorThresh
  | mirrorSegmentDone (st : Status) (differs : Bool)
  | logClear (who : Requester)
  | spareVote
  | logRdRead (who : Requester) (w : Fin 4)
  -- 17: the person at the device
  | inputFilterChange (i : Fin 5)
  | chatter (i : Fin 5)
  | chatterRunEnd (i : Fin 5)
  | wakeStuck (w : Fin 4)
  | serviceStuck
  | serviceStuckRelease
  | presenceWindowExpiry
  | sealSample (level : Bool)
  | estopLow (ch : Fin 2) (lowNs : Nat)
  | estopRise (ch : Fin 2)
  | estopDisc
  | estopStable
  | touchScan (raw : List (BitVec 16))
  | touchStuck (p : Fin 8)
  -- 18: host and field interfaces
  | pcieMemWrite (bar : Fin 3) (off : Nat) (data : List Byte)
  | pcieMemRead (bar : Fin 3) (off : Nat) (len : Nat)
  | pcieAtomicOp (bar : Fin 3) (off : Nat) (op : MemOp)
  | perstNLow
  | flr
  | hotReset
  | regRd (addr : Addr) (len : Byte)
  | regWr (addr : Addr) (len : Byte) (data : List Byte)
  | buoyRd (addr : Addr) (len : Byte) (target : U32) (timeout : BitVec 16)
  | buoyRdPoll
  | memRd (addr : Addr) (len : Byte)
  | memWr (addr : Addr) (len : Byte) (data : List Byte)
  | spiStatus
  | spiCsNRise
  | i3cPrivateWrite (frame : List Byte)
  | i3cPrivateRead
  | entdaa (da : BitVec 7)
  | setdasa (sa da : BitVec 7)
  | setnewda (da : BitVec 7)
  | rstdaa
  | enec
  | disec
  | getpid
  | getbcr
  | getdcr
  | getstatus
  | getmwl
  | getmrl
  | canReceive (c : Fin 4) (f : CanFrame) (crcOk : Bool) (sof : U64)
  | canTransmit (c : Fin 4) (res : CanTxResult)
  | canBusoffRecovery (c : Fin 4)
  | ethReceive (m : Fin 2) (frame : List Byte) (fcsOk : Bool) (sfd : U64)
  | ethKick (who : Requester) (m : Fin 2)
  | ethTransmitDone (f : EthSent)
  | ethMdio (who : Requester) (m : Fin 2) (v : U64) (rd : BitVec 16)
  | xspiRead (who : Requester) (local_ : Addr)
  | xspiProgram (who : Requester) (local_ : Addr)
  | xspiErase4k (who : Requester)
  | xspiErase64k (who : Requester)
  | xspiOpDone (stuck : Bool)
  | spicStart (k : Fin 4)
  | spicDone (k : Fin 4) (rx : List Byte)
  | uartReceive (v : Byte) (parityOk framingOk : Bool)
  | uartTransmit (who : Requester) (v : Byte)
  | bypass
  | idcode
  | samplePreload (cells : Nat)
  | extest (cells : Nat)
  | clamp
  | debug (addr : Addr) (op : MemOp)
  | svcLeaveWrite (who : Requester)
  | pcieConfigRequest (enableMsix : Option Bool)
  | pcieLinkDown
  | pcieLinkUp (gen width : BitVec 3)
  | ethLinkDown (m : Fin 2)
  | safeNHigh
  | safeFbChange (k : Fin 4) (level : Bool)
  | aoIoRailsInRange
  | safepolPinChange (level : Bool)
  | xtalStartTimeout
  | linkDetect (q : Fin 4) (lanes : BitVec 8)
  | domainSwitchGroup
  | spiBadFrame (err : Nat)
  | i3cOtherCcc (code : Byte)
  | canEnWrite (who : Requester) (c : Fin 4) (v : U64)
  deriving DecidableEq, Repr

end Sys2Proof
end

