-- ==== Sys2Proof/Machine/State.lean ====
section
/-! DEFINITION. The state of one Q32 as plain data, its reset value, and the reasons a step can stop.
Registers lie in `State.regs` under their slot and offset (an unlisted key holds the register's reset value); the
state the chapters give a block beside its registers lies in that block's structure.
Log entries: 4 DESIGN CHOICE, 5 DESIGN CHOICE, 75 DEDUCED, 96 DESIGN CHOICE, 107 DESIGN CHOICE. -/

namespace Sys2Proof.Machine

/-- The device states of 07_sleep_wake_clocks_straps.md Table 7-1. -/
inductive DevState where
  | off | startCheck | idle | run | safe | service | entering | sleep
  deriving DecidableEq, Repr, Inhabited

/-- What a slot's header holds beside its registers: the reaction each set fault bit took (two bits a group, R561),
the running grace timer's deadline (R567), GRACE_EXP (R569), and the end of the 1 µs that an injected expiry takes (R305). -/
structure Hdr where
  latched : U64 := 0
  graceEnd : Option Nat := none
  graceFor : Nat := 0               -- BLK_GRACE as applied when the timer last started, in µs
  graceExp : Bool := false
  injAt : Option Nat := none
  deriving DecidableEq, Repr, Inhabited

/-- Power of a switched domain. -/
inductive Power where
  | off | ramping | on
  deriving DecidableEq, Repr, Inhabited

/-- One of the 44 switched domains (Tables 7-5 and 7-7): its power, the last completed drain step, when the drain
began, whether it ends in a reset, whether a switch-on waits for its end (R283), and the end of the 1 µs hold-off; `selfTest`:
it is on and its start-check items have not ended (R99). -/
structure Dom where
  power : Power := .off
  rampAt : Nat := 0                 -- `now` at its last switch-on
  draining : Bool := false
  drain : Nat := 0
  drainT : Nat := 0
  thenReset : Bool := false
  thenOn : Bool := false
  holdEnd : Option Nat := none
  selfTest : Bool := false
  faulted : Bool := false
  excluded : Bool := false
  deriving DecidableEq, Repr, Inhabited

/-- A running start check (08_start_check.md); its phase is HM_SC_STAT.PHASE. -/
structure Check where
  kind : ScKind
  start : Nat                       -- `now` at its start; POR_N rising for the full check
  begun : Bool := false             -- SC_BEGIN has been appended
  fails : Nat := 0                  -- failed injections
  failed : List ScFail := []        -- the failed injections, for Table 8-4
  shown : List (Nat × Nat) := []    -- slot and fault bits that the last response window has left set (R290)
  deriving DecidableEq, Repr, Inhabited

/-- A store segment that was asked for (R275 to R279): its requester and length, the checks taken and when the next
is due. -/
structure Segment where
  user : NvUser
  bytes : Nat
  lo : Nat := 0                     -- flash range it programs or erases, chip select × 2 ^ 32 + offset
  len : Nat := 0
  tries : Nat := 0
  nextAt : Nat := 0
  deriving DecidableEq, Repr, Inhabited

/-- The Harbourmaster's state beside its registers. -/
structure Hm where
  check : Option Check := none
  wakeCheck : Bool := false         -- the check to come is a wake check
  afterWarm : Bool := false         -- ... that follows a warm reset (R77)
  central : List (Nat × Nat) := []  -- central items and instances that failed and have not passed since (R296)
  broken : Bool := false            -- HM_MISMATCH or HM_DIVERGE since POR (R533)
  safeDue : Bool := false           -- Safe is entered at the end of the check (R255, R282, R291)
  safeCause : Nat := 0
  svcFromSafe : Bool := false
  switchQ : List Nat := []          -- domains waiting to be switched on (R252)
  switchAt : Nat := 0               -- when the next group may start
  sleepQ : List Nat := []           -- domains still to be drained at sleep entry (R261)
  sleepWait : Bool := false         -- a request to enter Sleep waits for the Pilot (R237)
  pllStart : Tab Nat := []          -- PLL being started ↦ start time
  pllTried : List Nat := []         -- PLLs that failed once
  xoAt : Option Nat := none         -- end of XO_WAIT
  deferred : List Segment := []     -- segments waiting for a retry (R278)
  granted : Option Segment := none  -- the granted segment
  exitOk : Bool := false
  estopAtSafe : Bool := false       -- a channel has been low at or since the Safe entry (R581)
  trained : Bool := false           -- memory training has completed since POR (R72)
  scrubbed : Bool := false
  retPend : Nat := 0                -- RET_BANKS found and not yet recorded as BASIN_RET_FAIL (R78)
  cePend : Bool := false            -- corrected scrub errors not yet recorded as BASIN_CE (R77)
  retLatched : Bool := false        -- BASIN_ERR was latched by a scrub
  wakeTide : U64 := 0
  wakeSeen : Nat := 0               -- wake sources that asserted during sleep entry (R262)
  fromSleep : Bool := false         -- the last start was a wake from Sleep (R400, R401)
  deriving DecidableEq, Repr, Inhabited

/-- The tide clock and the device's own time: `now` counts nanoseconds since POR_N rose, `tide` is tide time. -/
structure Clock where
  now : Nat := 0
  tide : U64 := 0
  running : Bool := false           -- the mesh PLL clocks the tide counter
  ticks : Nat := 0                  -- AO ticks since POR_N rose
  lastSync : Option Nat := none     -- `now` of the last sync from the parent (R726)
  lostAt : Option Nat := none       -- `now` at which the master was found lost (R272)
  lost : Nat := 0                   -- chip index of the lost master
  claimK : Option Nat := none       -- k of the accepted claimant, which may be this chip
  claims : List Nat := []           -- chips to which a claim has been sent
  heard : Tab (Nat × Nat) := []     -- Quay ↦ `now` and master of the last sync it brought
  syncAt : Nat := 0                 -- `now` of the last sync interval's end
  syncReq : Option (Nat × Nat) := none  -- Quay asked and `now` of the request
  syncResp : Option (Nat × Nat × Nat) := none  -- parent's time in its response, own tide (low 40 bits) and `now` at its arrival
  slew : Int := 0                   -- offset still to be corrected by slewing (R267, R269)
  ppsAt : Option Nat := none        -- `now` of the last accepted TIME_PPS edge (R710)
  rcCounted : Nat := 0
  xtal : Bool := false              -- the AO tick runs from the crystal (R712)
  badWindows : Tab Nat := []        -- clock ↦ consecutive windows out of range (R536)
  deriving DecidableEq, Repr, Inhabited

/-- A Logbook entry on its way to the ring (R583). -/
structure Entry where
  tide : U64
  slot : Nat
  group : Nat
  code : Nat
  detail : U64
  deriving DecidableEq, Repr, Inhabited

/-- A running mirror (R588): copy, segment 1 to 3, attempt, and the trigger kept meanwhile. -/
structure Mirror where
  copy : Fin 2
  seg : Nat := 1
  attempt : Nat := 0
  seq : U32 := 0
  ringed : Bool := true             -- the ring image is part of the copy
  block : List Byte := []           -- bytes 4 to 1,023 of the state block
  image : Tab (BitVec 256) := []
  deriving DecidableEq, Repr, Inhabited

/-- The Logbook (16_fault_reaction_logbook.md): ingress queue, ring by index, the spare log's three copies, counters. -/
structure Log where
  ingress : List Entry := []
  ring : Tab (BitVec 256) := []
  spareA : Tab (BitVec 256) := []
  spareB : Tab (BitVec 256) := []
  spareC : Tab (BitVec 256) := []
  spareNext : Nat := 1
  spareUsed : Nat := 0
  seq : U32 := 0
  boot : BitVec 16 := 0
  lost : BitVec 16 := 0
  dropped : Nat := 0
  gap : Bool := false
  degraded : Bool := false
  ecc : Tab (Fin 3) := []           -- SRAM word offset ↦ 1 correctable, 2 uncorrectable
  mirror : Option Mirror := none
  trigger : Bool := false           -- a trigger kept while a mirror runs (R587)
  since : Nat := 0                  -- entries appended since the last mirror
  lastEnd : Nat := 0                -- `now` at the end of the last mirror
  deriving DecidableEq, Repr, Inhabited

/-- A Lighthouse beside its registers: the first-stamp watch's start, the stamp value that last fired the age check,
whether the period check fired since the latest stamp; `last` is the time and the Berth of the last stamp (R551). -/
structure Lh where
  armed : Bool := false
  watch : Option U64 := none
  ageFired : Option U64 := none
  periodFired : Bool := false
  last : Option (Nat × Nat) := none
  deriving DecidableEq, Repr, Inhabited

/-- An active loop (R136): its counter, first and last body index. -/
structure LoopRec where
  ctr : Fin 4
  first : Nat
  last : Nat
  deriving DecidableEq, Repr, Inhabited

/-- What a sequencer waits for (Table 4-18, WAIT_CAUSE). -/
inductive Wait where
  | none
  | woEntry (d : Fin 16) (a : Fin 8)
  | cgSlot (d : Fin 16) (a : Fin 8)
  | send (d : Fin 16) (m : Manifest) (deadline : Nat)
  | poll (d : Fin 16) (off : Nat) (target : U32) (deadline : Nat)
  | waitt (t : U64)
  | fence (tags : List (Nat × BitVec 2)) (wos : List U32) (held : Nat)   -- `held`: requests ahead that have no tag yet
  | commit (d : Fin 16) (cg : Nat)
  | hold (cgs : List Nat)
  | load (d : Fin 16) (cas : Bool)
  | yield (deadline : Nat)
  deriving DecidableEq, Repr, Inhabited

/-- SEQ_STAT.STATE (Table 4-18). -/
inductive SeqState where
  | stopped | running | waiting | yielded | halted | faulted
  deriving DecidableEq, Repr, Inhabited

/-- What an outstanding Crane tag serves. -/
inductive TagUse where
  | load                                    -- a waiting LD, LDW, FADD or CAS
  | post (pc : Nat) (word : U32)            -- a posted store
  | woRead (seq : U32) (dst : Addr)         -- a read piece of a COPY; its data goes to `dst`
  | woWrite (seq : U32)                     -- a write piece of a COPY
  | gone                                    -- a piece of a COPY that was squashed (R152)
  deriving DecidableEq, Repr, Inhabited

/-- An outstanding Crane request (R101 to R104): `t0` is when its first beat left the Berth, once it is sent, and `ord` its place in
the order in which the Berth issued requests and Manifests (R57, R58). -/
structure Tag where
  epoch : BitVec 2
  ord : Nat
  t0 : Nat
  addr : Addr
  op : MemOp
  use : TagUse
  sent : Bool := false              -- its head flit has entered the mesh
  deriving DecidableEq, Repr, Inhabited

/-- A work order in its Berth's queue: descriptor (byte 0 in bits [7:0]), sequence number, progress, the first status
other than OK, FMT_CNT and FMC_CNT events counted at completion when it is speculative (R198). -/
structure Wo where
  desc : BitVec 512
  seq : U32
  running : Bool := false
  status : Status := .ok
  done : Bool := false              -- all its writes have been performed but for outstanding tags
  events : List Nat := []
  hold : Option Nat := none         -- the sequence on which an ATTNBLK has a read hold (R391)
  deriving DecidableEq, Repr, Inhabited

/-- State of a confirmation group (Table 9-12). -/
inductive CgState where
  | pending | confirmed | failed
  deriving DecidableEq, Repr, Inhabited

/-- An outstanding confirmation group: identifier, state, groups it depends on (R331, R332). -/
structure Cg where
  id : Nat
  ord : Nat                         -- grows with the order in which the outstanding groups became outstanding
  st : CgState := .pending
  deps : List Nat := []
  deriving DecidableEq, Repr, Inhabited

/-- The tag of a shadow line that is not FREE (R329 to R337). -/
inductive LineTag where
  | cg (id : Nat) | committed
  deriving DecidableEq, Repr, Inhabited

/-- An unreleased entry of a receive queue: counted in OCC_S (sent under a flow) or in OCC_AD, and its source. -/
structure RxEntry where
  flow : Bool
  x : BitVec 8
  y : BitVec 8
  unit : BitVec 6
  stale : Bool := false             -- its flow has been re-charted: no credit returns (R37)
  deriving DecidableEq, Repr, Inhabited

/-- A Berth beside its registers: the sequencer, the work-order queue, the Crane, the confirmation groups, the receive
queues' occupancy and the egress of each class. -/
structure Berth where
  g : Tab U64 := []
  a : Tab Addr := []
  l : Tab U32 := []
  z : Bool := false
  nf : Bool := false
  c : Bool := false
  e : Bool := false
  pc : Nat := 0
  loops : List LoopRec := []        -- innermost first
  seq : SeqState := .stopped
  wait : Wait := .none
  loaded : Option (Status × U64) := none   -- the completion a waiting load will take
  woq : List Wo := []
  woNext : U32 := 0
  cgs : Tab Cg := []
  cgDone : List Nat := []           -- identifiers committed or squashed (WO_BAD reason 11)
  claims : Tab (U32 × CgState) := []  -- CG identifier ↦ the most recent frame claimed under it and its outcome (R329)
  lines : Tab LineTag := []
  tags : Tab Tag := []
  held : List (Addr × MemOp × TagUse) := []  -- Crane requests that wait for a free tag
  epochs : Tab (BitVec 2) := []
  blocked : Tab Nat := []           -- tag that timed out ↦ time until which it is not reissued
  rx0 : List RxEntry := []
  rx1 : List RxEntry := []
  rx2 : List RxEntry := []
  rx3 : List RxEntry := []
  delivered : Tab Nat := []         -- queue ↦ deliveries since the queue was configured
  egS : List Manifest := []
  egA : List Manifest := []
  egD : List Manifest := []
  egOrd : Tab Nat := []             -- sequence number of a Class A Manifest in the egress ↦ its order among requests (R58)
  back : Tab (Nat × Nat) := []      -- flow, or 16 + class of the egress ↦ time of the last return, and credits returned then (R30)
  msgSeq : BitVec 16 := 0
  poke : Bool := false              -- an event of R145 since the last YIELD
  issued : Nat := 0                 -- requests and Manifests issued, for R57 and R58
  stopReq : Bool := false           -- a STOP that waits for the end of a load or an atomic (R168)
  drainEdge : Bool := false         -- the sequencer was issuing when the Berth entered DRAIN (R170)
  fltAddr : Addr := 0               -- target of the posted store that SEQ_FLT captured (R134)
  deriving DecidableEq, Repr, Inhabited

/-- A frame in a ring slot (09_sensor_intake_commit.md): its sequence number, the order in which the stream's frames were
opened, its state (pending is filling) and what its header holds. -/
structure Frame where
  seq : U32
  ord : Nat
  st : CgState := .pending
  reason : Nat := 0
  sof : U64 := 0
  lines : Nat := 0
  frameNo : BitVec 16 := 0
  lastLen : Nat := 0
  claimed : BitVec 32 := 0          -- Berths that have claimed the frame
  released : BitVec 32 := 0         -- Berths that have released or skipped it
  ended : Bool := false             -- its last packet has passed the checks; it confirms when its ring writes are done
  deriving DecidableEq, Repr, Inhabited

/-- A ring write that has not completed: the frame's order number, bytes held in the line buffer, and the status it will
complete with when the memory is this chip's. -/
structure RingWrite where
  ord : Nat
  bytes : Nat
  st : Option Status
  wait : Option (Nat × List Byte) := none  -- address and bytes of a write that waits for a tag (R344)
  deriving DecidableEq, Repr, Inhabited

/-- A stream beside its registers. -/
structure Stream where
  active : Bool := false
  cfgErr : Bool := false
  next : U32 := 0
  opened : Nat := 0                 -- frames opened
  slots : Tab Frame := []
  writes : List RingWrite := []     -- oldest first
  skip : Nat := 0                   -- messages to come of a CAN frame that was dropped or failed
  deriving DecidableEq, Repr, Inhabited

/-- The response to a memory request, on its way to the requester. -/
structure Resp where
  who : Requester
  tag : Nat
  epoch : BitVec 2
  status : Status
  data : List Byte
  deriving DecidableEq, Repr, Inhabited

/-- A credit return on its way to the flow that holds the credit (R457, R475): 1 release, 2 NACK, 3 DOWN. -/
structure Credit where
  x : BitVec 8
  y : BitVec 8
  unit : BitVec 6
  fromX : BitVec 8
  fromY : BitVec 8
  fromUnit : BitVec 6
  queue : Nat
  cause : Nat
  deriving DecidableEq, Repr, Inhabited

/-- A filtered person-facing input (R596 to R601): raw and filtered level (true = active), consecutive ticks of
difference, start of the chatter run, ticks since the raw level changed, tick at which it last became active. -/
structure Input where
  raw : Bool := false
  filt : Bool := false
  diff : Nat := 0
  run : Option Nat := none
  still : Nat := 0
  since : Nat := 0
  stuck : Bool := false
  chatter : Bool := false
  deriving DecidableEq, Repr, Inhabited

/-- A touch pad (R614 to R616): measured count, baseline, consecutive scans above THRESH, below THRESH / 2 and at or
below minus THRESH / 2, scans since the baseline moved, scans spent touched. -/
structure Pad where
  raw : BitVec 16 := 0
  base : BitVec 16 := 0
  hi : Nat := 0
  lo : Nat := 0
  neg : Nat := 0
  moved : Nat := 0
  held : Nat := 0
  touched : Bool := false
  stuck : Bool := false
  deriving DecidableEq, Repr, Inhabited

/-- The person at the device (17_person_presence.md). -/
structure Person where
  inputs : Tab Input := []
  svcHigh : Nat := 0                -- consecutive ticks with SERVICE_N raw high
  svcStart : Bool := true           -- the STUCK start state of R599
  pressVoid : Bool := false         -- the press in progress counts as none (R601)
  winEnd : Option Nat := none       -- tick at which the presence window closes
  expired : Option Nat := none      -- tick at which a window last expired (R618)
  sealOpen : Bool := true
  sealStart : Bool := true          -- the seal has not been intact since POR (R606)
  sealAt : Nat := 0                 -- tick of the last sample
  sealLast : Bool := false          -- a differing sample is at most one matching sample ago
  sealGood : Nat := 0               -- consecutive matching samples
  sealT : U64 := 0                  -- tide time of the opening
  aLow : Bool := false              -- recognised level of ESTOP_A_N
  bLow : Bool := false
  discTicks : Nat := 0              -- consecutive ticks on which the channels differ
  stableAt : Option Nat := none     -- tick from which the stable time runs
  stableTide : U64 := 0
  stableLog : Bool := false         -- ESTOP_RELEASED is appended when it completes
  pads : Tab Pad := []
  deriving DecidableEq, Repr, Inhabited

/-- The status of a PCIe completion (R626, R627, R630): successful, Unsupported Request, Completer Abort,
Configuration Request Retry Status. -/
inductive CplStatus where
  | sc | ur | ca | crs
  deriving DecidableEq, Repr, Inhabited

/-- A BUOY_RD that has not been answered (R635): its path, word, COUNT target, the end of its TIMEOUT and of its next
microsecond, and the word last read. -/
structure BuoyWait where
  path : HostPath
  addr : Addr
  target : U32
  deadline : Nat
  next : Nat
  last : List Byte
  deriving DecidableEq, Repr, Inhabited

/-- The host interface beside its registers (18_host_field_interfaces.md). -/
structure HostIf where
  msixOn : Bool := false            -- MSI-X enabled in configuration space
  table : Tab Byte := []            -- the MSI-X table, by byte, as difference from its reset contents
  ibi : List (BitVec 4) := []       -- in-band interrupts raised, with their payload
  events : Bool := false            -- ENEC is in force
  cpl : List (CplStatus × List Byte) := []  -- PCIe completions sent
  spi : Option (List Byte) := none  -- the response of the present SPI frame: SYNC, STATUS, data, RCRC
  i3c : Option (List Byte) := none  -- the response that a private read will return: STATUS, data, RCRC
  i3cOut : List Byte := []          -- what the target last sent on the I3C bus
  i3cNak : Bool := false            -- its last address or CCC was answered with a NACK
  buoy : List BuoyWait := []
  done : BitVec 16 := 0             -- commands performed (Table 18-4)
  tapIr : Nat := 1                  -- TAP instruction: 0 BYPASS, 1 IDCODE, 2 SAMPLE/PRELOAD, 3 EXTEST, 4 CLAMP, 5 DEBUG
  tapOut : Nat := 0                 -- what the TAP last captured for shifting out
  cells : Nat := 0                  -- boundary cells, as preloaded
  deriving DecidableEq, Repr, Inhabited

/-- An operation of XSPI_CMD (R651, R652): 1 read, 2 program, 3 erase 4 KiB, 4 erase 64 KiB; `held` while its hold-up
request waits. -/
structure XOp where
  op : Nat
  cs : Nat
  off : Nat
  len : Nat
  addr : Nat
  held : Bool := false
  deriving DecidableEq, Repr, Inhabited

/-- The field interfaces beside their registers: message buffers by byte (Table 18-5), ring positions and the MACs that are
sending, the operations of XSPI_CMD oldest first, SPI controllers that await their trigger, the UART's FIFOs with the time at
which the byte in front began to be sent. -/
structure Field where
  canBuf : Tab Byte := []
  rxPos : Tab Nat := []
  txPos : Tab Nat := []
  sending : List Nat := []
  tail : List Nat := []             -- in a drain: CAN controllers (0-3) and MACs (4, 5) that may still complete a frame (R659)
  xspi : List XOp := []
  armed : List Nat := []
  uartTx : List Byte := []
  uartT : Nat := 0
  uartRx : List Byte := []
  deriving DecidableEq, Repr, Inhabited

/-- A pool that is enabled: its free list, and what it waits for (0 nothing, 1 a restore, 2 an unstow; R400, R401). -/
structure PoolSt where
  free : List Nat := []
  wait : Nat := 0
  deriving DecidableEq, Repr, Inhabited

/-- A running STOW (R402): its command, the copy it writes and the segments to come: 0 header erase, 1 page window,
2 table window, 3 header, with the window's number in the copy. -/
structure Stow where
  src : CmdSrc
  reply : BitVec 8
  pool : Nat
  copyB : Bool
  seq : Nat
  segs : List (Nat × Nat)
  deriving DecidableEq, Repr, Inhabited

/-- The Wharfinger beside its registers and tables: the host command slot and the entries of queue 0 accepted before its command,
the enabled pools, a running stow. -/
structure Wharf where
  host : Option (U64 × U64) := none
  ahead : Nat := 0
  pools : Tab PoolSt := []
  stow : Option Stow := none
  deriving DecidableEq, Repr, Inhabited

/-- The problem of a Dredger slot: its submitter and reply byte, the saved state it continues from (R435, R436). -/
structure Job where
  src : CmdSrc
  reply : BitVec 8
  saved : Bool := false
  eBestF : U32 := 0                 -- of the ended problem
  deriving DecidableEq, Repr, Inhabited

/-- The problem in the engine (12_dredger.md): its expanded and scaled coefficients as codes, its groups and the state of the
anneal. Assignments are bit masks; FP32 values are held as their bits. -/
structure Anneal where
  sa : Nat := 0                     -- address of the state area
  n : Nat := 0                      -- Ntot
  dense : Bool := false
  h : List Int := []
  adj : Tab (List (Nat × Int)) := []  -- variable ↦ neighbours in ascending order with their codes
  groups : List (List Nat) := []
  scale : U32 := 0                  -- S
  k : U32 := 0                      -- 2047 / S
  qerr : U32 := 0
  incrc : Nat := 0
  x : Nat := 0
  best : Nat := 0
  e : Int := 0
  eBest : Int := 0
  s0 : U64 := 0
  s1 : U64 := 0
  dsub : Nat := 0
  t : U32 := 0
  offset : U32 := 0
  stall : Nat := 0
  bestSweep : Nat := 0
  sweep : Nat := 0
  next : Nat := 0
  deferred : List (Nat × Nat) := [] -- variable and draw
  defers : Nat := 0
  deriving DecidableEq, Repr, Inhabited

/-- The Dredger beside its registers and its store: the host command slot and the entries of queue 0 accepted before its command,
slots QUEUED in order, the problem of each slot, the slot in the engine with its anneal once loaded, a PAUSE that waits for the
load, a STOP that waits for the sweep, and the errors of the variable memory (by variable × 2 + copy: 1 correctable,
2 uncorrectable; R411). -/
structure Dredger where
  host : Option (U64 × U64) := none
  ahead : Nat := 0
  queue : List Nat := []
  jobs : Tab Job := []
  run : Option Nat := none
  anneal : Option Anneal := none
  pausing : Bool := false
  stopping : Bool := false
  varEcc : Tab Nat := []
  deriving DecidableEq, Repr, Inhabited

/-- What a Quay sends on its link beside data in flight (Table 14-1, R502). -/
inductive LinkOut where
  | group (gseq : Nat) (flits : List Packet)
  | cred (counts : BitVec 42)
  | ack (seq : BitVec 8) (nak : Bool)
  | sync (kind : BitVec 2) (time : BitVec 40)
  | sleep
  | quiesce
  | wake
  deriving DecidableEq, Repr, Inhabited

/-- A Quay beside its registers (14_zenier_mesh.md): failed training attempts, receive and transmit queues with the time
at which each packet joined, the replay buffer by group, sequence numbers, credits and the timers' starts. -/
structure Quay where
  attempts : Nat := 0
  retryAt : Option Nat := none
  trained : Bool := false           -- it has been ACTIVE since its domain was switched on
  stopped : Bool := false           -- three attempts have failed (R498)
  retrain : Bool := false           -- QUAY_CTL.RETRAIN was written
  wakeReq : Bool := false           -- a wake pattern is due (R502)
  woken : Bool := false             -- a head flit has asked for it already
  rxq : List (Packet × Nat) := []
  txq : List (Packet × Nat) := []
  turnS : Nat := 0                  -- the Class S VC served last, and the VC from 2 to 5 (R491)
  turn : Nat := 0
  replay : List (Nat × List Packet) := []
  txG : Nat := 0
  rxG : Nat := 0
  nakSent : Bool := false
  nbVc : BitVec 48 := 0
  credits : Tab Nat := []
  credAt : Nat := 0                 -- time of the last CRED, and the credits that came at that time (R30)
  credNew : Tab Nat := []
  counts : Tab Nat := []            -- cumulative counts of the last CRED received
  freed : Tab Nat := []             -- cumulative counts of flits freed here
  lastCred : Nat := 0
  lastAck : Nat := 0
  lastProg : Nat := 0
  replays : Nat := 0
  replayG : Nat := 0
  sent : List LinkOut := []
  deriving DecidableEq, Repr, Inhabited

/-- A transfer that the sending Lighter has opened (R513 to R517): number, destination, Manifest, time of the BOPEN or of
the last BGRANT BUSY. -/
structure Xfer where
  num : U32
  x : BitVec 8
  y : BitVec 8
  m : Manifest
  last : Nat
  deriving DecidableEq, Repr, Inhabited

/-- A BOPEN that the receiving Lighter holds (R514). -/
structure HeldOpen where
  x : BitVec 8
  y : BitVec 8
  num : U32
  m : Manifest
  last : Nat
  deriving DecidableEq, Repr, Inhabited

/-- A transfer being received: its source, its buffer (class and index) and the time of the last segment. -/
structure RxXfer where
  x : BitVec 8
  y : BitVec 8
  num : U32
  m : Manifest
  cls : Nat
  buf : Nat
  last : Nat
  deriving DecidableEq, Repr, Inhabited

/-- The Lighter beside its registers: transmit queue, transfers, held opens, allocated buffers (class × 65536 + index) with
their owner unit (64 = still the Lighter's), Class A Manifests that wait at their queue with their buffer. -/
structure Lighter where
  txq : List Manifest := []
  xfers : List Xfer := []
  nextNum : U32 := 0
  held : List HeldOpen := []
  rx : List RxXfer := []
  bufs : Tab Nat := []
  waiting : List (Manifest × Nat) := []
  deriving DecidableEq, Repr, Inhabited

/-- The mesh: Quays, packets of this chip that wait to enter the mesh, packets for this chip that its router has delivered. Inputs of
the router are numbered 0 for this chip and 1 to 4 for the Quays. -/
structure Mesh where
  quays : Tab Quay := []
  out : List (Packet × Nat) := []
  inbox : List Packet := []
  under : Tab (BitVec 512 × Nat) := []  -- Quay × 8 + VC ↦ head flit and input of the packet whose data flits follow there (R481)
  parts : Tab Packet := []          -- input × 8 + VC ↦ packet for this chip whose data flits follow
  abandoned : List (Nat × Nat × BitVec 2) := []  -- Berth, tag and epoch of requests that a drain abandoned (R258)
  deriving DecidableEq, Repr, Inhabited

/-- What a load has still to do, in order: the defaults of R666, a register write, an image record, the reports that follow the
REACTION section (R77, R78), the power-on of a member Berth (R215), a batch for another chip (its section type and bytes), the
digest's registers and entries (R217), the resident copy (R227), the failure of a check that a single pass meets here (R218), the
answer of a batch (R213), the warm reset that follows a LOAD's drains (R220). -/
inductive LoadOp where
  | defaults
  | reg (slot off : Nat) (v : U64)
  | copy (addr : Nat) (data : List Byte)
  | fill (addr len : Nat)
  | reacted
  | power (d : Nat)
  | batch (chip typ : Nat) (data : List Byte)
  | digest
  | keep (bank : Nat)
  | fail (reason : Nat)
  | answer
  | reset
  deriving DecidableEq, Repr, Inhabited

/-- Where the chart of a load comes from: the stored chart in a slot (false A), memory at PILOT_SRC, the stream through the West
Quay, the resident copy, a partial chart in memory for a partition, or batches from the domain Pilot. -/
inductive LoadSrc where
  | flash (b : Bool)
  | memory
  | stream
  | resident
  | rechart (part : Nat)
  | domain
  deriving DecidableEq, Repr, Inhabited

/-- A load or re-chart in progress (06_charts.md): its chart, the chips of the chosen placement, what is left to do, whether a
record has been applied, the Berths it waits for with the time of their power-on, and the batches without an answer. -/
structure Load where
  src : LoadSrc
  mode : Nat := 0                   -- HM_BOOTREC.MODE when it started
  start : Nat
  fitted : Bool := false            -- the fit has been decided
  chart : List Byte := []
  place : Nat := 0
  chips : List Nat := []
  todo : List LoadOp := []
  applied : Bool := false
  powered : Tab Nat := []
  coming : List Nat := []           -- Berths that the Pilot has powered on and whose ramp has not begun (R215)
  part : List Nat := []             -- Berths of the partition that a re-chart replaces
  drains : List Nat := []           -- Berths of a re-chart that have still to come back from their reset
  waits : Tab Nat := []             -- chip ↦ end of its 1 ms
  deriving DecidableEq, Repr, Inhabited

/-- A STORE in progress (R225): the slot (false A), its SEQ, the chart, and the number of the next segment. -/
structure Store where
  b : Bool
  seq : Nat
  chart : List Byte
  next : Nat := 0
  deriving DecidableEq, Repr, Inhabited

/-- The Pilot beside its registers: the load that is due (0 none, 1 boot load, 2 resident copy, 3 PILOT_BOOT), whether PILOT_BOOT has been
accepted since the last reset, the failure that is recorded after the reset it caused (R216), whether the running chart
permits Sleep. -/
structure Pilot where
  due : Nat := 0
  bootUsed : Bool := false
  failed : Option Nat := none
  sleepOk : Bool := false
  spans : List Nat := []            -- partitions of the running chart with a member Berth on another chip (R230)
  load : Option Load := none
  store : Option Store := none
  deriving DecidableEq, Repr, Inhabited

/-- The levels on the pins that the model reads, and the enables that it drives. -/
structure Pins where
  gpio : BitVec 16 := 0
  rails : Bool := false             -- VDD_AO and VDDIO_33 in range (R244)
  porLow : Bool := true
  factory : Bool := false           -- FACTORY_N selected factory mode at POR
  safeFb : BitVec 4 := 0
  fbAt : Tab Nat := []              -- output ↦ `now` at which its SAFE_FB last changed
  outAt : Tab Nat := []             -- output ↦ `now` at which its commanded level last changed
  safepol : Bool := false           -- level of GPIO[10] while POR_N is low (R694)
  safeNLow : Bool := false          -- a recognised low on SAFE_N that has not ended
  xoEn : Bool := false              -- XO_EN (R248)
  phyEn : Bool := false             -- PHY_EN (R688)
  ddrEn : Bool := false             -- DDR_EN (R690)
  ddrHold : Bool := false           -- retention latches hold every DDRc_RESET_N high and every DDRc_CSa low (R690)
  deriving DecidableEq, Repr, Inhabited

/-- The whole device. -/
structure State where
  pending : List Instr := []        -- commands that wait, first in first out
  dev : DevState := .off
  clk : Clock := {}
  pins : Pins := {}
  regs : Tab U64 := []              -- slot × 0x10000 + offset ↦ stored value, where it differs from the reset value
  hdrs : Tab Hdr := []
  doms : Tab Dom := []
  hm : Hm := {}
  log : Log := {}
  lhs : Tab Lh := []
  berths : Tab Berth := []
  mem : List Host.Cell := []        -- local map offset ↦ byte, where it is not zero
  ecc : Tab (Fin 3) := []           -- stored-word errors: see `eccKey`; 1 = correctable, 2 = uncorrectable
  streams : Tab Stream := []
  resps : List Resp := []
  credits : List Credit := []
  net : List Manifest := []         -- Manifests and NACKs that this chip's blocks have sent, on their way
  stale : List Manifest := []       -- Manifests on their way whose flow has been re-charted: no credit returns (R37)
  blockQ : Tab (List (Manifest × Bool)) := []  -- queue 0 of units 32 to 34: entries, and whether sent under a flow
  unitSeq : Tab (BitVec 16) := []   -- sequence counters of the block units 32 to 36
  msix : List Nat := []             -- MSI-X vectors sent
  chartOn : Bool := false           -- a chart is running
  reactDone : Bool := false         -- a chart's REACTION section has been applied (R247)
  person : Person := {}
  host : HostIf := {}
  field : Field := {}
  sfdp : List Nat := []             -- chip selects whose SFDP table has been read since POR (R723)
  cgOut : List (Nat × Nat × Bool) := []  -- outcomes on their way to the CG tables: Berth, identifier, confirmed
  fsyncDone : Tab Nat := []         -- FSYNC output ↦ scheduled pulses that have passed
  fsyncEnd : Tab U64 := []          -- FSYNC output that is high ↦ tide time of its falling edge
  stamps : List (Nat × Nat × U64) := []  -- stamps on their way to the Lighthouses: Berth, index, value
  flash : Tab Byte := []            -- xSPI flash: chip select × 2 ^ 32 + offset ↦ byte, where it is not erased
  wharf : Wharf := {}
  drg : Dredger := {}
  mesh : Mesh := {}
  lt : Lighter := {}
  pilot : Pilot := {}
  scrubAt : Nat := 0                -- `now` of the last background scrub (R65)
  scrubLine : Tab Nat := []         -- Basin bank ↦ the line that the background scrub reads next
  fresh : Nat := 0                  -- the model's own: number of the next free value
  deriving DecidableEq, Repr, Inhabited

/-- Reasons for which the machine could stop with a fault. No command of the manual stops the device: every fault it
describes is recorded in the state and the device goes on. -/
inductive Fault where
  /-- Raised by nothing; safe. -/
  | none
  deriving DecidableEq, Repr

/-- Reasons for which a command has no meaning. -/
inductive Refusal where
  /-- The command has no meaning in the model yet; raised by the arms of `exec` alone. Safe: it stops. -/
  | notModelled (mnemonic : String)
  deriving DecidableEq, Repr

/-- The answer of a command. -/
abbrev Out := Host.Outcome State Fault Refusal

/-- The machine while POR_N is held low after power-up: everything cleared (Table 7-6), the I/O rails
not yet in range (R244) and no strap sampled (R243). -/
def State.reset : State := {}

end Sys2Proof.Machine
end

