-- ==== Sys2Proof/Machine/Ops.lean ====
section
/-! DEFINITION. The named operations that every chapter shares: bit fields and bytes, registers, local memory, tide time,
the Logbook's ingress queue, recording a fault and its reaction, interrupts, the safe output stage's input lines and
the device state.
Log entries: 2 DESIGN CHOICE, 3 DEDUCED, 8 DESIGN CHOICE, 43 DEDUCED, 44 DESIGN CHOICE, 51 DEDUCED, 127 DEDUCED. -/

namespace Sys2Proof.Machine

/-! ## Fields and bytes -/

/-- Bits [hi:lo] of a word, as a number. -/
def bitsOf (v : U64) (hi lo : Nat) : Nat := v.toNat / 2 ^ lo % 2 ^ (hi + 1 - lo)

/-- The word with bits [hi:lo] replaced by the low bits of `x`. -/
def withBits (v : U64) (hi lo x : Nat) : U64 :=
  BitVec.ofNat 64 (v.toNat - bitsOf v hi lo * 2 ^ lo + x % 2 ^ (hi + 1 - lo) * 2 ^ lo)

/-- A field of a register value. -/
def Fld.get (f : Fld) (v : U64) : Nat := bitsOf v f.hi f.lo

/-- A register value with a field replaced. -/
def Fld.put (f : Fld) (v : U64) (x : Nat) : U64 := withBits v f.hi f.lo x

/-- The largest value of a field. -/
def Fld.top (f : Fld) : Nat := 2 ^ (f.hi + 1 - f.lo) - 1

/-- Bit `i` of a number. -/
def nbit (x i : Nat) : Bool := x / 2 ^ i % 2 == 1

/-- Numbers below `n` whose bit is set. -/
def setBits (n x : Nat) : List Nat := (List.range n).filter fun i => nbit x i

/-- The number whose bit `i` is set for every `i` of the list that satisfies a test. -/
def maskOf (l : List Nat) (p : Nat → Bool) : Nat := l.foldl (fun acc i => if p i then acc ||| 2 ^ i else acc) 0

/-- 1 for true. -/
def b2n (b : Bool) : Nat := if b then 1 else 0

/-- `x` with bit `i` set or cleared. -/
def putBit (x i : Nat) (b : Bool) : Nat := if b then x ||| 2 ^ i else if nbit x i then x - 2 ^ i else x

/-- `n` bytes of a number, least significant first (R10). -/
def leBytes : Nat → Nat → List Byte
  | 0, _ => []
  | n + 1, x => BitVec.ofNat 8 (x % 256) :: leBytes n (x / 256)

/-- The number that bytes spell, least significant first (R10). -/
def leNat : List Byte → Nat
  | [] => 0
  | b :: t => b.toNat + 256 * leNat t

/-- Saturating addition. -/
def satAdd (top x n : Nat) : Nat := if x + n > top then top else x + n

/-- Two's-complement value of the low `w` bits. -/
def toSigned (w x : Nat) : Int := if x % 2 ^ w < 2 ^ (w - 1) then (x % 2 ^ w : Int) else (x % 2 ^ w : Int) - 2 ^ w

/-- Ceiling of a division. -/
def cdiv (a b : Nat) : Nat := (a + b - 1) / b

/-! ## Slots -/

/-- The slots assigned in 02_address_space.md Table 2-3. -/
def allSlots : List Nat := List.range 20 ++ (List.range 32).map (32 + ·)

/-- The slot of Berth `n`. -/
def bslot (n : Nat) : Nat := 0x20 + n

/-- The switched domain of a slot's block, 0xFF for none (Table 19-1). -/
def domainOf (slot : Nat) : Nat :=
  if 0x20 ≤ slot then slot - 0x20
  else match slot with
    | 0x04 => 34 | 0x05 => 35 | 0x06 => 36 | 0x07 => 37 | 0x08 => 38 | 0x0A => 39 | 0x0B => 40
    | 0x0C => 43 | 0x0D => 41 | 0x0E => 32 | 0x0F => 33 | 0x10 => 42 | 0x11 => 42
    | _ => 0xFF

/-- The slots of a domain's blocks. -/
def slotsOf (d : Nat) : List Nat := allSlots.filter fun s => domainOf s == d

/-- TYPE of a slot (Table 19-1). -/
def typeOf (slot : Nat) : Nat :=
  if 0x20 ≤ slot then 0x20
  else match slot with
    | 0 => 1 | 1 => 2 | 2 => 3 | 3 => 4 | 4 => 5 | 5 => 5 | 6 => 5 | 7 => 5 | 8 => 6 | 9 => 7 | 0x0A => 8
    | 0x0B => 8 | 0x0C => 9 | 0x0D => 0x0A | 0x0E => 0x0B | 0x0F => 0x0C | 0x10 => 0x0D | 0x11 => 0x0E
    | 0x12 => 0x0F | 0x13 => 0x10 | _ => 0

/-- INSTANCE of a slot (Table 19-1). -/
def instOf (slot : Nat) : Nat :=
  if 0x20 ≤ slot then slot - 0x20 else if 4 ≤ slot ∧ slot ≤ 7 then slot - 4 else if slot = 0x0B then 1 else 0

/-- The IRQ_N line a slot is routed to at reset (Table 19-1, R673). -/
def irqLineOf (slot : Nat) : Nat :=
  if 0x20 ≤ slot then 3
  else if slot = 0x0E ∨ slot = 0x0F then 2
  else if slot ≤ 3 ∨ slot = 0x12 ∨ slot = 0x13 then 0 else 1

/-- Default reaction of each fault group that has a source in a slot: 0 log, 1 interrupt, 2 grace, 3 immediate
(Table 19-2). -/
def groupsOf (slot : Nat) : List (Nat × Nat) :=
  if 0x20 ≤ slot then
    [(0, 1), (1, 2), (2, 0), (3, 2), (4, 1), (5, 3), (6, 1), (8, 2), (9, 2), (10, 2), (11, 2), (12, 1), (13, 1),
     (14, 2), (15, 1), (16, 1), (17, 0), (18, 0)]
  else match slot with
    | 0x00 => [(0, 3), (1, 3), (2, 3), (3, 3), (4, 3), (5, 0), (6, 0), (7, 3), (8, 2), (9, 1), (10, 3), (11, 3),
               (12, 1), (13, 0), (14, 1), (15, 1)]
    | 0x01 => [(0, 2), (1, 1), (2, 1), (3, 1), (4, 0), (5, 1)]
    | 0x02 => [(0, 3), (1, 0), (2, 0)]
    | 0x03 => [(0, 0), (1, 1), (2, 1), (3, 1), (4, 0)]
    | 0x04 => [(0, 1), (1, 1), (2, 1), (3, 0)]
    | 0x05 => [(0, 1), (1, 1), (2, 1), (3, 0)]
    | 0x06 => [(0, 1), (1, 1), (2, 1), (3, 0)]
    | 0x07 => [(0, 1), (1, 1), (2, 1), (3, 0)]
    | 0x08 => [(0, 1), (1, 1), (2, 0), (3, 0), (4, 2), (5, 1)]
    | 0x09 => [(0, 1), (1, 2), (2, 0), (3, 2)]
    | 0x0A => [(2, 0), (3, 2)]
    | 0x0B => [(2, 0), (3, 2)]
    | 0x0C => [(1, 2), (2, 0), (3, 2), (4, 1)]
    | 0x0D => [(0, 0), (1, 0), (2, 0), (3, 1), (4, 2), (5, 1)]
    | 0x0E => [(0, 2), (1, 2), (2, 1), (3, 1), (4, 1), (5, 3), (6, 0), (7, 2), (8, 1), (9, 2)]
    | 0x0F => [(0, 2), (1, 1), (2, 0), (3, 2), (4, 1), (5, 3), (6, 2)]
    | 0x10 => [(0, 1), (2, 1), (3, 0), (4, 1), (5, 0), (6, 0)]
    | 0x11 => [(0, 2), (1, 1), (2, 0), (3, 1), (4, 0), (5, 1), (6, 0)]
    | 0x12 => [(0, 1), (1, 1), (2, 3), (3, 2)]
    | 0x13 => [(0, 3), (1, 3)]
    | _ => []

/-- Bits of the groups that have a source (R665). -/
def sourceMask (slot : Nat) : Nat := maskOf ((groupsOf slot).map (·.1)) fun _ => true

/-- A BLK_REACT value that gives every group with a source the reaction `r g`. -/
def reactWord (slot : Nat) (r : Nat → Nat) : U64 :=
  BitVec.ofNat 64 (((groupsOf slot).map fun g => r g.1 * 4 ^ g.1).foldl (· + ·) 0)

/-- The default reactions of Table 19-2 as a BLK_REACT value (R666). -/
def reactDefault (slot : Nat) : U64 :=
  BitVec.ofNat 64 (((groupsOf slot).map fun g => g.2 * 4 ^ g.1).foldl (· + ·) 0)

/-! ## Registers -/

/-- Reset value of a register kind in a slot: Table 19-4 for the header, the chapter's table otherwise. BLK_REACT
is given for DFLTREACT = 0 (R247); a strap of 1 is applied when POR_N rises. -/
def resetVal (slot : Nat) (r : Reg) : U64 :=
  match r with
  | .BLK_ID => BitVec.ofNat 64 (0xA032 * 2 ^ 32 + 0x01 * 2 ^ 16 + instOf slot * 256 + typeOf slot)
  | .BLK_FMASK => BitVec.ofNat 64 (sourceMask slot)
  | .BLK_REACT => reactWord slot fun _ => 3
  | .BLK_PWR => BitVec.ofNat 64 (domainOf slot * 256)
  | .BLK_IRQ => BitVec.ofNat 64 (2 ^ (8 + irqLineOf slot) + slot)
  | r => BitVec.ofNat 64 r.info.reset

/-- The key of instance `i` of a register kind in a slot. -/
def regKey (slot : Nat) (r : Reg) (i : Nat) : Nat := slot * 0x10000 + r.info.off + i * r.info.stride

/-- The stored value of a register. -/
def State.reg (s : State) (slot : Nat) (r : Reg) (i : Nat) : U64 := Tab.get (resetVal slot r) s.regs (regKey slot r i)

/-- Stores a register value. -/
def State.setReg (s : State) (slot : Nat) (r : Reg) (i : Nat) (v : U64) : State :=
  { s with regs := Tab.set (resetVal slot r) s.regs (regKey slot r i) v }

/-- A stored field. -/
def State.fld (s : State) (slot : Nat) (f : Fld) (i : Nat) : Nat := f.get (s.reg slot f.reg i)

/-- Stores a field. -/
def State.setFld (s : State) (slot : Nat) (f : Fld) (i : Nat) (x : Nat) : State :=
  s.setReg slot f.reg i (f.put (s.reg slot f.reg i) x)

/-- Adds to a counter field, which saturates at all ones. -/
def State.count (s : State) (slot : Nat) (f : Fld) (i n : Nat) : State :=
  s.setFld slot f i (satAdd f.top (s.fld slot f i) n)

/-- Puts a register back to its reset value. -/
def State.clearReg (s : State) (slot : Nat) (r : Reg) (i : Nat) : State :=
  { s with regs := Tab.del s.regs (regKey slot r i) }

/-- The kind and instance at an offset of a slot; a reserved slot has no register (R43). -/
def regAt (slot off : Nat) : Option (Reg × Nat) :=
  if !allSlots.contains slot then none
  else (Reg.all.find? fun r =>
    decide (r.info.slotLo ≤ slot) && decide (slot ≤ r.info.slotHi) && decide (r.info.off ≤ off)
      && decide ((off - r.info.off) / r.info.stride < r.info.count)
      && decide ((off - r.info.off) % r.info.stride = 0)).map
    fun r => (r, (off - r.info.off) / r.info.stride)

/-! ## Structures by key -/

def State.hdr (s : State) (slot : Nat) : Hdr := Tab.get {} s.hdrs slot
def State.setHdr (s : State) (slot : Nat) (h : Hdr) : State := { s with hdrs := Tab.set {} s.hdrs slot h }
def State.dom (s : State) (d : Nat) : Dom := Tab.get {} s.doms d
def State.setDom (s : State) (d : Nat) (x : Dom) : State := { s with doms := Tab.set {} s.doms d x }
def State.berth (s : State) (n : Nat) : Berth := Tab.get {} s.berths n
def State.setBerth (s : State) (n : Nat) (b : Berth) : State := { s with berths := Tab.set {} s.berths n b }
def State.lh (s : State) (i : Nat) : Lh := Tab.get {} s.lhs i
def State.setLh (s : State) (i : Nat) (x : Lh) : State := { s with lhs := Tab.set {} s.lhs i x }
def State.stream (s : State) (i : Nat) : Stream := Tab.get {} s.streams i
def State.setStream (s : State) (i : Nat) (x : Stream) : State := { s with streams := Tab.set {} s.streams i x }

/-- A fresh free value, and the state that has used it. -/
def State.freeVal (s : State) : U64 × State := (Config.free s.fresh, { s with fresh := s.fresh + 1 })

/-! ## Time -/

/-- Tide time now. -/
def State.tide (s : State) : U64 := s.clk.tide

/-- `now` in `n` nanoseconds. -/
def State.after (s : State) (n : Nat) : Nat := s.clk.now + n

/-! ## Position -/

/-- Straps (Table 7-3). -/
def State.strap (s : State) : Nat := s.fld 0 F.HM_STRAP_GPIO 0
def State.posX (s : State) : Nat := s.strap / 4 % 8
def State.posY (s : State) : Nat := s.strap / 32 % 8
/-- Side length of the board domain (DOM). -/
def State.side (s : State) : Nat := 2 ^ (s.strap / 256 % 4)
/-- Chip index in the board domain, Y × 8 + X. -/
def State.chip (s : State) : Nat := s.posY * 8 + s.posX
/-- Global coordinates (14_zenier_mesh.md R503): the board origin plus the position. -/
def State.gx (s : State) : Nat := (s.fld 9 F.MESH_ORIGIN_OX 0 + s.posX) % 256
def State.gy (s : State) : Nat := (s.fld 9 F.MESH_ORIGIN_OY 0 + s.posY) % 128

/-- Awake states: everything but Off and Sleep. -/
def State.awake (s : State) : Bool := s.dev != .off && s.dev != .sleep

/-- A presence window is open, or factory mode is set (R607). In the tick in which the window ends it is closed (R12). -/
def State.presence (s : State) : Bool := s.person.winEnd.any (fun t => decide (s.clk.ticks < t)) || s.pins.factory

/-! ## Availability -/

/-- The block of a domain serves requests: it is on and neither in self-test, draining, faulted nor excluded (R99). A block outside
the switched domains serves whenever the device is awake. -/
def State.serves (s : State) (d : Nat) : Bool :=
  if d = 0xFF then s.awake
  else (s.dom d).power == .on && !(s.dom d).selfTest && !(s.dom d).draining && !(s.dom d).faulted
    && !(s.dom d).excluded

/-- STATE of a domain in BLK_STAT and BERTH_STAT (Tables 19-6 and 3-7). -/
def domStateCode (x : Dom) : Nat :=
  if x.faulted then 5
  else if x.excluded then 6
  else if x.draining then 4
  else match x.power with
    | .off => 0 | .ramping => 1 | .on => if x.selfTest then 2 else 3

/-! ## The Logbook's ingress queue (R583) -/

/-- Bits of BLK_FAULT. -/
def State.faults (s : State) (slot : Nat) : Nat := s.fld slot F.BLK_FAULT_BITS 0

/-- Hands an entry to the ingress queue; an entry that finds it full is dropped, which counts and sets GAP for the next entry. -/
def State.push (s : State) (slot group code : Nat) (detail : Nat) : State :=
  if s.log.ingress.length < 64 then
    { s with log := { s.log with ingress := s.log.ingress ++ [⟨s.tide, slot, group, code, BitVec.ofNat 64 detail⟩] } }
  else
    { s with log := { s.log with dropped := satAdd 255 s.log.dropped 1, gap := true } }

/-! ## Reactions and interrupts -/

/-- A group is locked to immediate: the asterisks of Table 19-2 and the conditional locks of R670. -/
def State.serving (s : State) (slot : Nat) : Bool :=
  -- the Wharfinger while an enabled pool serves a critical partition (R405), the Dredger while its engine does (R439)
  if slot = 0x0E then
    (List.range 4).any fun p => s.fld 0x0E F.KV_POOL_CFG_EN p == 1 && s.fld 0x0E F.KV_POOL_STAT_CFG_ERR p == 0 &&
      (List.range 32).any fun n => s.fld (bslot n) F.BERTH_CFG_MEMBER 0 == 1 && s.fld (bslot n) F.BERTH_CFG_CRIT 0 == 1
        && s.fld (bslot n) F.BERTH_CFG_PART 0 == s.fld 0x0E F.KV_POOL_CFG_PART p
  else if slot = 0x0F then
    decide (1 ≤ s.fld 0x0F F.DRG_STAT_STATE 0) && decide (s.fld 0x0F F.DRG_STAT_STATE 0 ≤ 4) &&
      (List.range 32).any fun n => s.fld (bslot n) F.BERTH_CFG_MEMBER 0 == 1 && s.fld (bslot n) F.BERTH_CFG_CRIT 0 == 1
        && s.fld (bslot n) F.BERTH_CFG_PART 0 == s.fld 0x0F F.DRG_SLOT_CFG_PART (s.fld 0x0F F.DRG_STAT_SLOT 0)
  else false

def State.locked (s : State) (slot g : Nat) : Bool :=
  if 0x20 ≤ slot then g == 5 || (g == 4 && s.fld slot F.BERTH_CFG_CRIT 0 == 1)
  else match slot with
    | 0x00 => g == 0 || g == 1 || g == 10 || g == 11
    | 0x02 => g == 0
    | 0x0E => g == 5 || (g == 4 && s.serving 0x0E)
    | 0x0F => g == 5 || (g == 4 && s.serving 0x0F)
    | 0x12 => g == 2
    | 0x13 => g == 0 || (g == 1 && s.fld 0x13 F.SO_CFG_FOLLOW_N 0 == 1)
    | _ => false

/-- BLK_REACT as it reads: 11 for a locked group, the stored value for another that has a source, 00 otherwise
(R562, R665, R670). -/
def State.reaction (s : State) (slot g : Nat) : Nat :=
  if nbit (sourceMask slot) g then
    if s.locked slot g then 3 else bitsOf (s.reg slot .BLK_REACT 0) (2 * g + 1) (2 * g)
  else 0

/-- The reaction a set fault bit took (R561). -/
def State.took (s : State) (slot g : Nat) : Nat := bitsOf (s.hdr slot).latched (2 * g + 1) (2 * g)

/-- A fault bit is set whose reaction is `r`. -/
def State.hasReaction (s : State) (slot r : Nat) : Bool :=
  (setBits 32 (s.faults slot)).any fun g => s.took slot g == r

/-- The event bits a chapter adds to its block's interrupt: WO_IRQ (R164) and QIRQ of a Berth. -/
def State.eventPend (s : State) (slot : Nat) : Bool :=
  if 0x20 ≤ slot then s.fld slot F.SEQ_STAT_WO_IRQ 0 == 1 || s.fld slot F.MSG_STAT_QIRQ 0 != 0
  else false

/-- A block's interrupt is pending (R563). -/
def State.irqPend (s : State) (slot : Nat) : Bool :=
  s.eventPend slot ||
    (setBits 32 (s.faults slot)).any fun g => nbit (s.fld slot F.BLK_FMASK_BITS 0) g && s.took slot g != 0

/-- The lines of IRQ_N that are driven low (R563, R675). -/
def State.irqLines (s : State) : Nat :=
  maskOf (List.range 4) fun p => allSlots.any fun sl => s.irqPend sl && nbit (s.fld sl F.BLK_IRQ_PINS 0) p

/-- A vector's mask bit in the MSI-X table. -/
def State.vecMasked (s : State) (v : Nat) : Bool := nbit (Tab.get 1 s.host.table (16 * v + 12)).toNat 0

/-- Sends a block's MSI-X vector, when MSI-X is enabled, the vector is unmasked and the link is up (R628). -/
def State.sendVector (s : State) (slot : Nat) : State :=
  if s.host.msixOn && s.fld 0x10 F.HOST_STAT_LINK_UP 0 == 1 && !s.vecMasked (s.fld slot F.BLK_IRQ_VECTOR 0) then
    { s with msix := s.msix ++ [s.fld slot F.BLK_IRQ_VECTOR 0] }
  else s

/-- What follows a change of pending interrupts from state `old`: each slot of the list whose interrupt has become
pending sends its vector (R563, R628), and a selected IRQ_N line that has become asserted raises an in-band interrupt
(R639). -/
def State.notify (s old : State) (slots : List Nat) : State :=
  let s1 := slots.foldl (fun t sl => if s.irqPend sl && !old.irqPend sl then t.sendVector sl else t) s
  if s.host.events && s.fld 0x10 F.HOST_CFG_I3C_EN 0 == 1
      && (setBits 4 s.irqLines).any fun p => !nbit old.irqLines p && nbit (s.fld 0x10 F.HOST_CFG_IBI_PINS 0) p then
    { s1 with host := { s1.host with ibi := s1.host.ibi ++ [BitVec.ofNat 4 s.irqLines] } }
  else s1

/-! ## Fault bits and entries (R560, R561, R567, R583) -/

/-- BLK_GRACE as applied, in microseconds (R567). -/
def State.graceUs (s : State) (slot : Nat) : Nat :=
  let v := s.fld slot F.BLK_GRACE_US 0
  if v = 0 then 1 else if v > 1000000 then 1000000 else v

/-- Sets a fault bit and lets it take its reaction, without the Logbook entry. -/
def State.setFault (s : State) (slot g : Nat) : State :=
  let r := s.reaction slot g
  let s1 := s.setFld slot F.BLK_FAULT_BITS 0 (s.faults slot ||| 2 ^ g)
  let h := s.hdr slot
  let h1 := if r = 2 ∧ h.graceEnd = none ∧ h.graceExp = false then
    { h with graceEnd := some (s.after (1000 * s.graceUs slot)), graceFor := s.graceUs slot } else h
  s1.setHdr slot { h1 with latched := withBits h.latched (2 * g + 1) (2 * g) r }

/-- Appends an entry; one that finds the queue full is dropped, and LOG_DROP is recorded (R583). -/
def State.append (s : State) (slot group code detail : Nat) : State :=
  let full := decide (64 ≤ s.log.ingress.length)
  let s1 := s.push slot group code detail
  if full && !nbit (s.faults 3) 4 then
    let s2 := s1.setFault 3 4
    (s2.push 3 4 0x0001 (s2.faults 3 + s.reaction 3 4 * 2 ^ 32)).notify s1 [3]
  else s1

/-! ## The safe output stage's input lines (R564, R572, R576, R610) -/

/-- The safe-request line of a block. -/
def State.safeLine (s : State) (slot : Nat) : Bool := s.hasReaction slot 3 || (s.hdr slot).graceExp

/-- The stage's SAFE_N input line. -/
def State.safeNLine (s : State) : Bool := s.pins.safeNLow && s.fld 0x13 F.SO_CFG_FOLLOW_N 0 == 1

/-- The stage's e-stop input line. -/
def State.estopLine (s : State) : Bool := s.person.aLow || s.person.bLow

/-- Some input line of the stage is asserted. -/
def State.anyLine (s : State) : Bool := s.safeNLine || s.estopLine || allSlots.any s.safeLine

/-- Output `k` of the safe output stage is at its active level (R572); EXTEST and CLAMP hold the safe level (R657). -/
def State.outActive (s : State) (k : Nat) : Bool :=
  nbit (s.fld 0x13 F.SO_CFG_EN 0) k && nbit (s.fld 0x13 F.SO_CMD_ACT 0) k && s.dev == .run && !s.anyLine
    && !s.pins.factory && s.host.tapIr != 3 && s.host.tapIr != 4

/-- Notes the time at which outputs change their commanded level from state `old`. -/
def State.markOut (s old : State) : State :=
  let at' := (List.range 4).foldl (fun t k => if s.outActive k == old.outActive k then t else Tab.put t k s.clk.now) s.pins.outAt
  { s with pins := { s.pins with outAt := at' } }

/-- The code of the lowest-coded asserted line (Table 16-3). -/
def State.lineCode (s : State) : Nat :=
  match allSlots.find? s.safeLine with
  | some sl => sl
  | none => if s.safeNLine then 0x40 else 0x41

/-! ## Device states (Table 7-2) -/

/-- HM_STATE.STATE (Table 7-1). -/
def devCode : DevState → Nat
  | .off => 0 | .startCheck => 1 | .idle => 2 | .run => 3 | .safe => 4 | .service => 5 | .entering => 6 | .sleep => 0

/-- Changes the device state: HM_STATE takes the state, the cause and the tide time, STATE_CHANGE is appended (R240),
and SO_CMD.ACT is cleared on entry to Safe, Service and Start-check (R573). -/
def State.setDev (s : State) (new : DevState) (cause : Nat) : State :=
  let s1 := { s with dev := new }
  let s2 := s1.setReg 0 .HM_STATE 0
    (BitVec.ofNat 64 (devCode new + cause * 256 + s.tide.toNat % 2 ^ 48 * 65536))
  let s3 := s2.append 0 0xFF 0x0006 (devCode new + devCode s.dev * 16 + cause * 256)
  let s4 := match new with
    | .safe => s3.setFld 0x13 F.SO_CMD_ACT 0 0
    | .service => s3.setFld 0x13 F.SO_CMD_ACT 0 0
    | .startCheck => s3.setFld 0x13 F.SO_CMD_ACT 0 0
    | _ => s3
  s4.markOut s

/-- Enters Safe with a cause (R579): HM_SAFE_STAT and HM_SAFE_T take the entry. -/
def State.enterSafe (s : State) (cause : Nat) : State :=
  if s.dev = .safe then s
  else
    let s1 := s.setDev .safe cause
    let s2 := (s1.setFld 0 F.HM_SAFE_STAT_IN_SAFE 0 1).setFld 0 F.HM_SAFE_STAT_PENDING 0 0
    let s3 := if s.hm.svcFromSafe then s2 else s2.setFld 0 F.HM_SAFE_STAT_CAUSE 0 cause
    let s4 := s3.setReg 0 .HM_SAFE_T 0 s.tide
    { s4 with hm := { s4.hm with safeDue := false, svcFromSafe := false, estopAtSafe := s.estopLine } }

/-- What follows an asserted input line: Safe from Idle and Run at once; in Start-check, sleep entry and Sleep at the end
of the (coming) check; in Service Safe is pending (R579, R580, R282). -/
def State.settle (s : State) (cause : Nat) : State :=
  if s.anyLine then
    match s.dev with
    | .idle => s.enterSafe cause
    | .run => s.enterSafe cause
    | .startCheck => { s with hm := { s.hm with safeDue := true, safeCause := if s.hm.safeDue then s.hm.safeCause else cause } }
    | .service =>
      let s1 := s.setFld 0 F.HM_SAFE_STAT_PENDING 0 1
      { s1 with hm := { s1.hm with safeCause := if s.fld 0 F.HM_SAFE_STAT_PENDING 0 = 1 then s.hm.safeCause else cause } }
    | .entering =>
      let s1 := s.setFld 0x13 F.SO_STAT_LATCHED 0 1
      { s1 with hm := { s1.hm with safeDue := true, safeCause := if s.hm.safeDue then s.hm.safeCause else cause } }
    | .sleep => { s with hm := { s.hm with safeDue := true, safeCause := if s.hm.safeDue then s.hm.safeCause else cause } }
    | _ => s
  else s

/-- Appends an entry that is no fault's. A LOG_DROP that it records may assert its line. -/
def State.logEntry (s : State) (slot group code detail : Nat) : State := (s.append slot group code detail).settle 6

/-! ## Recording a fault (R560 to R567) -/

/-- Records a fault in a group of a slot: a set bit changes nothing further; otherwise the bit is set with its reaction,
FAULT is appended, the grace timer may start, the interrupt and the safe-request line follow. `cause` is the STATE_CHANGE
cause of a Safe entry. -/
def State.recordAs (s : State) (slot g cause : Nat) : State :=
  if !nbit (sourceMask slot) g || nbit (s.faults slot) g then s
  else
    let r := s.reaction slot g
    let s1 := s.setFault slot g
    let s2 := s1.append slot g 0x0001 (s1.faults slot + r * 2 ^ 32)
    (s2.notify s [slot]).settle cause

/-- Records a fault whose Safe entry, if any, has cause 6 (an input line of the stage). -/
def State.record (s : State) (slot g : Nat) : State := s.recordAs slot g 6

/-- Records a fault when a condition holds. -/
def State.recordIf (s : State) (c : Bool) (slot g : Nat) : State := if c then s.record slot g else s

/-- Clears fault bits of a slot and lets them forget their reaction. -/
def State.clearFaults (s : State) (slot mask : Nat) : State :=
  let keep := maskOf (setBits 32 (s.faults slot)) fun g => !nbit mask g
  let h := s.hdr slot
  let lat := (setBits 32 mask).foldl (fun v g => withBits v (2 * g + 1) (2 * g) 0) h.latched
  (s.setFld slot F.BLK_FAULT_BITS 0 keep).setHdr slot { h with latched := lat }

/-! ## Answers -/

/-- The command's event cannot occur now: nothing changes. -/
def nothing (s : State) : Out := .next s

/-- The answer of a command that acts only while a condition holds. -/
def when (c : Bool) (s t : State) : Out := if c then .next t else .next s

end Sys2Proof.Machine
end

