-- ==== Sys2Proof/Machine/Crc.lean ====
section
/-! DEFINITION. The checks of the manual: CRC-16 (R446), CRC-32C (R199), CRC-32 (R483) and CRC-8 (R483). -/

namespace Sys2Proof.Machine

/-- One bit of a CRC whose most significant bit goes first. -/
def crcBit (w poly r : Nat) : Nat := if nbit r (w - 1) then (2 * r % 2 ^ w) ^^^ poly else 2 * r % 2 ^ w

/-- `n` bits of a CRC whose most significant bit goes first. -/
def crcBits (w poly : Nat) : Nat → Nat → Nat
  | 0, r => r
  | n + 1, r => crcBits w poly n (crcBit w poly r)

/-- One bit of a reflected CRC. -/
def rcrcBit (poly r : Nat) : Nat := if nbit r 0 then (r / 2) ^^^ poly else r / 2

/-- `n` bits of a reflected CRC. -/
def rcrcBits (poly : Nat) : Nat → Nat → Nat
  | 0, r => r
  | n + 1, r => rcrcBits poly n (rcrcBit poly r)

/-- CRC-16: polynomial 0x1021, initial value 0xFFFF, no reflection, no final XOR (R446). -/
def crc16 (d : List Byte) : Nat := d.foldl (fun r b => crcBits 16 0x1021 8 (r ^^^ (b.toNat * 256))) 0xFFFF

/-- CRC-8: polynomial 0x07, initial value 0, no reflection (R483). -/
def crc8 (d : List Byte) : Nat := d.foldl (fun r b => crcBits 8 0x07 8 (r ^^^ b.toNat)) 0

/-- CRC-32C: reflected polynomial 0x82F63B78, initial value and final XOR all ones (R199). -/
def crc32c (d : List Byte) : Nat :=
  (d.foldl (fun r b => rcrcBits 0x82F63B78 8 (r ^^^ b.toNat)) 0xFFFFFFFF) ^^^ 0xFFFFFFFF

/-- CRC-32: reflected polynomial 0xEDB88320, initial value and final XOR all ones (R483). -/
def crc32 (d : List Byte) : Nat :=
  (d.foldl (fun r b => rcrcBits 0xEDB88320 8 (r ^^^ b.toNat)) 0xFFFFFFFF) ^^^ 0xFFFFFFFF

end Sys2Proof.Machine
end

