-- ==== Sys2Proof/Machine/Formats.lean ====
section
/-! DEFINITION. The number formats of 05_number_formats.md: exact intermediate values, decoding, rounding, conversion and the
layout of a row of elements. -/

namespace Sys2Proof.Machine

/-! ## Exact values -/

/-- An exact value: ±m × 2^e with its sign (a zero keeps its sign), an infinity, or NaN. -/
inductive Num where
  | nan
  | inf (neg : Bool)
  | fin (neg : Bool) (m : Nat) (e : Int)
  deriving DecidableEq, Repr, Inhabited

def Num.zero : Num := .fin false 0 0
def Num.ofInt (i : Int) : Num := .fin (decide (i < 0)) i.natAbs 0
def Num.isNan : Num → Bool
  | .nan => true
  | _ => false
def Num.isZero : Num → Bool
  | .fin _ 0 _ => true
  | _ => false
def Num.sign : Num → Bool
  | .nan => false
  | .inf n => n
  | .fin n _ _ => n

/-- The signed mantissa at exponent `q`, for `q` at most the value's own exponent. -/
def Num.at (x : Num) (q : Int) : Int :=
  match x with
  | .fin n m e => (if n then -1 else 1) * ((m * 2 ^ (e - q).toNat : Nat) : Int)
  | _ => 0

/-- The exponent of a finite value. -/
def Num.exp : Num → Int
  | .fin _ _ e => e
  | _ => 0

/-- Exact product; infinity times zero is NaN (R183). -/
def Num.mul : Num → Num → Num
  | .nan, _ => .nan
  | _, .nan => .nan
  | .inf a, .inf b => .inf (a != b)
  | .inf a, .fin b m _ => if m = 0 then .nan else .inf (a != b)
  | .fin a m _, .inf b => if m = 0 then .nan else .inf (a != b)
  | .fin a m e, .fin b k f => .fin (a != b) (m * k) (e + f)

/-- Exact sum of a list. A zero sum is positive unless every term is a negative zero. -/
def Num.sum (l : List Num) : Num :=
  if l.any Num.isNan || (l.contains (.inf false) && l.contains (.inf true)) then .nan
  else if l.contains (.inf false) then .inf false
  else if l.contains (.inf true) then .inf true
  else
    let q : Int := l.foldl (fun m x => if x.exp < m then x.exp else m) 0
    let t : Int := (l.map fun x => x.at q).foldl (· + ·) 0
    if t = 0 then .fin (!l.isEmpty && l.all fun x => x.sign && x.isZero) 0 0 else .fin (decide (t < 0)) t.natAbs q

def Num.neg : Num → Num
  | .nan => .nan
  | .inf n => .inf (!n)
  | .fin n m e => .fin (!n) m e

def Num.abs : Num → Num
  | .nan => .nan
  | .inf _ => .inf false
  | .fin _ m e => .fin false m e

/-- x < y; false when either is NaN. -/
def Num.lt : Num → Num → Bool
  | .nan, _ => false
  | _, .nan => false
  | .inf a, .inf b => a && !b
  | .inf a, .fin _ _ _ => a
  | .fin _ _ _, .inf b => !b
  | x, y => let q := min x.exp y.exp; decide (x.at q < y.at q)

def Num.le (x y : Num) : Bool := !x.isNan && !y.isNan && !y.lt x

/-! ## Rounding -/

/-- m / 2^k to nearest, ties to even. -/
def rneShift (m k : Nat) : Nat :=
  let q := m / 2 ^ k
  let r := m % 2 ^ k
  if 2 * r < 2 ^ k then q else if 2 ^ k < 2 * r then q + 1 else if k = 0 then q else q + q % 2

/-- a / b to nearest, ties to even, for b > 0. -/
def rneDiv (a b : Nat) : Nat :=
  let q := a / b
  let r := a % b
  if 2 * r < b then q else if b < 2 * r then q + 1 else if r = 0 then q else q + q % 2

/-- The integer nearest to a finite value, ties to even. -/
def Num.toInt : Num → Int
  | .fin n m e =>
    let k := if 0 ≤ e then m * 2 ^ e.toNat else rneShift m (-e).toNat
    if n then -(k : Int) else k
  | _ => 0

/-- A floating-point format of Table 5-2: exponent and mantissa bits, bias, and whether it is E4M3 (no infinity, one
NaN mantissa). -/
structure FFmt where
  eb : Nat
  mb : Nat
  bias : Nat
  e4 : Bool := false

def fE4M3 : FFmt := ⟨4, 3, 7, true⟩
def fE5M2 : FFmt := ⟨5, 2, 15, false⟩
def fFP16 : FFmt := ⟨5, 10, 15, false⟩
def fBF16 : FFmt := ⟨8, 7, 127, false⟩
def fFP32 : FFmt := ⟨8, 23, 127, false⟩

/-- Bits of a format. -/
def FFmt.bits (f : FFmt) : Nat := 1 + f.eb + f.mb

/-- The canonical NaN (Table 5-2). -/
def FFmt.nan (f : FFmt) : Nat := if f.e4 then 0x7F else (2 ^ f.eb - 1) * 2 ^ f.mb + 2 ^ (f.mb - 1)

/-- The encoding of +infinity. -/
def FFmt.inf (f : FFmt) : Nat := (2 ^ f.eb - 1) * 2 ^ f.mb

/-- Decodes bits (R174, R175). -/
def FFmt.decode (f : FFmt) (x : Nat) : Num :=
  let neg := nbit x (f.eb + f.mb)
  let ex := x / 2 ^ f.mb % 2 ^ f.eb
  let m := x % 2 ^ f.mb
  let top := 2 ^ f.eb - 1
  if f.e4 then
    if ex = top ∧ m = 7 then .nan
    else if ex = 0 then .fin neg m (1 - f.bias - f.mb) else .fin neg (2 ^ f.mb + m) ((ex : Int) - f.bias - f.mb)
  else if ex = top then (if m = 0 then .inf neg else .nan)
  else if ex = 0 then .fin neg m (1 - f.bias - f.mb)
  else .fin neg (2 ^ f.mb + m) ((ex : Int) - f.bias - f.mb)

/-- The encoding of a magnitude before the overflow rule: rounded to nearest, ties to even. -/
def FFmt.mag (f : FFmt) (m : Nat) (e : Int) : Nat :=
  if m = 0 then 0
  else
    let top : Int := e + Nat.log2 m
    let q : Int := max top (1 - f.bias) - f.mb
    let k := if q ≤ e then m * 2 ^ (e - q).toNat else rneShift m (q - e).toNat
    (q + f.mb + f.bias - 1).toNat * 2 ^ f.mb + k

/-- Rounds a value to a format and says whether it saturated (Table 5-4, R175). -/
def FFmt.encode (f : FFmt) (x : Num) : Nat × Bool :=
  let sgn (n : Bool) := if n then 2 ^ (f.eb + f.mb) else 0
  match x with
  | .nan => (f.nan, false)
  | .inf n => if f.e4 then (sgn n + 0x7E, true) else (sgn n + f.inf, false)
  | .fin n m e =>
    if f.e4 then
      if Num.lt (.fin false 448 0) (.fin false m e) then (sgn n + 0x7E, true) else (sgn n + f.mag m e, false)
    else
      let k := f.mag m e
      (sgn n + (if f.inf ≤ k then f.inf else k), false)

/-- Rounds a value to a format. -/
def FFmt.round (f : FFmt) (x : Num) : Num := f.decode (f.encode x).1

/-- The encoding is subnormal and not zero. -/
def FFmt.subnormal (f : FFmt) (b : Nat) : Bool := b / 2 ^ f.mb % 2 ^ f.eb == 0 && b % 2 ^ f.mb != 0

/-- FP32 with a subnormal flushed to zero with its sign, as the array keeps it (R186). -/
def flush32 (x : Num) : Num :=
  let b := (fFP32.encode x).1
  if fFP32.subnormal b then .fin x.sign 0 0 else fFP32.decode b

/-- FP32 operations of the vector unit (R189). -/
def fadd (a b : Num) : Num := fFP32.round (Num.sum [a, b])
def fmul (a b : Num) : Num := fFP32.round (a.mul b)

/-- FP32 bits of a value, and the value of FP32 bits. -/
def toF32 (x : Num) : BitVec 32 := BitVec.ofNat 32 (fFP32.encode x).1
def ofF32 (b : BitVec 32) : Num := fFP32.decode b.toNat

/-! ## Formats by code (Table 4-7) -/

/-- Width of an integer format, 0 for the others. -/
def intBits (f : Nat) : Nat :=
  match f with
  | 0 => 4 | 1 => 8 | 2 => 16 | 3 => 32 | _ => 0

/-- The floating-point format of a code. -/
def floatFmt (f : Nat) : Option FFmt :=
  match f with
  | 4 => some fE4M3 | 5 => some fE5M2 | 6 => some fFP16 | 7 => some fBF16 | 8 => some fFP32 | _ => none

/-- Bits of an element; Q4S elements count as 4 and its blocks carry their scales beside them. -/
def elemBits (f : Nat) : Nat :=
  match f with
  | 0 => 4 | 1 => 8 | 2 => 16 | 3 => 32 | 4 => 8 | 5 => 8 | 6 => 16 | 7 => 16 | 8 => 32 | 9 => 4 | 10 => 6 | _ => 8

/-- Bytes of a row of `n` elements (R173, R177, R179). -/
def rowBytes (f n : Nat) : Nat :=
  if f = 9 then cdiv n 256 * 136 else if f = 10 then cdiv n 4 * 3 else cdiv (n * elemBits f) 8

/-- Decodes element bits. -/
def decodeElem (f x : Nat) : Num :=
  match floatFmt f with
  | some g => g.decode x
  | none => Num.ofInt (toSigned (elemBits f) x)

/-- Saturates an integer to a width; says whether it did. -/
def satInt (w : Nat) (i : Int) : Int × Bool :=
  let hi : Int := 2 ^ (w - 1) - 1
  let lo : Int := -(2 ^ (w - 1) : Int)
  if hi < i then (hi, true) else if i < lo then (lo, true) else (i, false)

/-- Two's-complement bits of an integer. -/
def intCode (w : Nat) (i : Int) : Nat := (i % (2 ^ w : Int)).toNat

/-- Converts a value to an element of a format: its bits, and whether an event of R192 is counted (Table 5-4). -/
def encodeElem (f : Nat) (x : Num) : Nat × Bool :=
  match floatFmt f with
  | some g => g.encode x
  | none =>
    let w := intBits f
    match x with
    | .nan => (0, true)
    | .inf n => (intCode w (if n then -(2 ^ (w - 1) : Int) else 2 ^ (w - 1) - 1), true)
    | x => let r := satInt w x.toInt; (intCode w r.1, r.2)

/-! ## Rows of elements -/

/-- Element bits number `k` of a packed row (R173). -/
def codeAt (w : Nat) (d : List Byte) (k : Nat) : Nat :=
  if w = 4 then (d.getD (k / 2) 0).toNat / 16 ^ (k % 2) % 16 else leNat ((d.drop (k * (w / 8))).take (w / 8))

/-- Packs element bits, least significant first (R173, R10). -/
def packCodes (w : Nat) : List Nat → List Byte
  | [] => []
  | [a] => leBytes (cdiv w 8) a
  | a :: b :: t => if w = 4 then BitVec.ofNat 8 (a % 16 + b % 16 * 16) :: packCodes w t else leBytes (w / 8) a ++ packCodes w (b :: t)

/-- The scale exponent of block `k` of a Q4S row: byte `k mod 8` of its group. -/
def q4sScale (d : List Byte) (k : Nat) : Byte := d.getD (k / 8 * 136 + k % 8) 0

/-- The code of element `i` of a Q4S row (R177). -/
def q4sCode (d : List Byte) (i : Nat) : Nat :=
  (d.getD (i / 256 * 136 + 8 + i % 256 / 2) 0).toNat / 16 ^ (i % 2) % 16

/-- Element `i` of a Q4S row (R176, R178). -/
def q4sElem (d : List Byte) (i : Nat) : Num :=
  let e := q4sScale d (i / 32)
  if e = 0x80 then .zero else (Num.ofInt (toSigned 4 (q4sCode d i))).mul (.fin false 1 e.toInt)

/-- The `n` values of a row. -/
def decodeRow (f : Nat) (d : List Byte) (n : Nat) : List Num :=
  (List.range n).map fun i => if f = 9 then q4sElem d i else decodeElem f (codeAt (elemBits f) d i)

/-- Reserved Q4S scales among the blocks of a row of `n` elements (R178). -/
def badScales (f : Nat) (d : List Byte) (n : Nat) : Nat :=
  if f = 9 then ((List.range (cdiv n 32)).filter fun k => q4sScale d k == 0x80).length else 0

/-- The smallest exponent from -127 for which m ≤ 7 × 2^e, at most 127 (R191). -/
def q4sPick (m : Num) : Int :=
  if m.isZero then -127
  else match (List.range 255).find? fun k : Nat => m.le (.fin false 7 ((k : Int) - 127)) with
    | some k => (k : Int) - 127
    | none => 127

/-- The largest finite magnitude of a list (R191). -/
def maxAbs (l : List Num) : Num :=
  l.foldl (fun m x => match x with
    | .fin _ k e => if m.lt (.fin false k e) then .fin false k e else m
    | _ => m) .zero

/-- One Q4S code of an element under scale `e`, and whether it saturated (R191). -/
def q4sEnc (e : Int) (x : Num) : Nat × Bool :=
  match x with
  | .nan => (0, true)
  | .inf n => (intCode 4 (if n then -7 else 7), true)
  | x => let r := satInt 4 (x.mul (.fin false 1 (-e))).toInt; (intCode 4 r.1, r.2)

/-- Splits a list into pieces of `n`. -/
def pieces {α : Type} (n : Nat) : Nat → List α → List (List α)
  | 0, _ => []
  | k + 1, l => if l.isEmpty then [] else l.take n :: pieces n k (l.drop n)

/-- One group of 256 elements: eight scales, then the packed codes; blocks beyond the row are zero (R177). -/
def q4sGroup (l : List Num) : List Byte × Nat :=
  let bl := pieces 32 8 l
  let enc := bl.map fun b => let e := q4sPick (maxAbs b); (e, b.map (q4sEnc e))
  let scales := (List.range 8).map fun k => match enc[k]? with
    | some (e, _) => BitVec.ofInt 8 e
    | none => 0
  let codes := enc.flatMap fun b => b.2.map (·.1)
  (scales ++ packCodes 4 (codes ++ List.replicate (256 - codes.length) 0),
    ((enc.flatMap fun b => b.2).filter (·.2)).length)

/-- Encodes a row of values: its bytes and the events of R192. -/
def encodeRow (f : Nat) (l : List Num) : List Byte × Nat :=
  if f = 9 then
    let g := (pieces 256 (cdiv l.length 256) l).map q4sGroup
    (g.flatMap (·.1), (g.map (·.2)).foldl (· + ·) 0)
  else
    let c := l.map (encodeElem f)
    (packCodes (elemBits f) (c.map (·.1)), (c.filter (·.2)).length)

/-! ## KV6 (R179 to R181) -/

/-- Code `k` of packed KV6 bytes. -/
def kv6Code (d : List Byte) (k : Nat) : Nat := leNat ((d.drop (k / 4 * 3)).take 3) / 64 ^ (k % 4) % 64

/-- Packs KV6 codes, four to three bytes. -/
def kv6Pack (l : List Nat) : List Byte :=
  (pieces 4 (cdiv l.length 4) l).flatMap fun g =>
    leBytes 3 (((List.range 4).map fun j => g.getD j 0 % 64 * 64 ^ j).foldl (· + ·) 0)

/-- A KV6 code times its FP16 scale, rounded once to the pool's decoded format; the reserved code decodes as zero. -/
def kv6Value (dec : FFmt) (c scale : Nat) : Num :=
  if c = 32 then .zero else dec.round ((Num.ofInt (toSigned 6 c)).mul (fFP16.decode scale))

end Sys2Proof.Machine
end

