-- ==== Sys2Proof/Machine/Transcend.lean ====
section
/-! DEFINITION. The transcendental operations of the vector unit (ELEM 6 to 11 and the `exp` of ATTNBLK: 04_sequencer_work_orders.md
R155, 05_number_formats.md R189, 11_attention_wharfinger.md R392). The manual bounds their error by 2 ulp and does not state the
result, so that the result is a free value among those within the bound of the exact value.
Log entries: 9 DESIGN CHOICE. -/

namespace Sys2Proof.Machine

/-! ## Exact values, on fixed-point numbers of 320 fraction bits -/

/-- A magnitude in fixed point, at most 256: beyond it every operation has reached its limit. -/
def fixOf (m : Nat) (e : Int) : Nat :=
  min (256 * 2 ^ 320) (if 0 ≤ e + 320 then m * 2 ^ (e + 320).toNat else m / 2 ^ (-(e + 320)).toNat)

/-- e^v: the power series at v / 2^17, then seventeen squarings. -/
def fixExp (v : Nat) : Nat :=
  let y := v / 2 ^ 17
  let s := (List.range 40).foldl (fun (p : Nat × Nat) k => let t := p.1 * y / 2 ^ 320 / (k + 1); (t, p.2 + t)) (2 ^ 320, 2 ^ 320)
  (List.range 17).foldl (fun z _ => z * z / 2 ^ 320) s.2

/-- The largest number whose square is at most `n`, for `n` below 2^680. -/
def fixRoot (n : Nat) : Nat :=
  (List.range 340).foldl (fun r i => let t := r + 2 ^ (339 - i); if t * t ≤ n then t else r) 0

/-- 2 × √(2 / π) in fixed point, the factor of GELU's tanh form. -/
def geluFactor : Nat :=
  0x19884533d436508d0fcb3c500bab8e2ff4e0a7cc1449c1b63011c6d20098e74ba77e2b15511f4f6dc

/-- The exact value of an operation on a finite operand ±m × 2^e, to far less than an ulp. -/
def exactFn (op : Nat) (neg : Bool) (m : Nat) (e : Int) : Num :=
  let one := 2 ^ 320
  match op with
  | 6 =>                                                     -- EXP
    let z := fixExp (fixOf m e)
    .fin false (if neg then one * one / z else z) (-320)
  | 7 => if m = 0 then .inf neg else .fin neg (one / m) (-e - 320)   -- RECIP
  | 8 =>                                                     -- RSQRT
    if m = 0 then .inf neg
    else if neg then .nan
    else
      let k := if e % 2 = 0 then m else 2 * m
      .fin false (fixRoot (2 ^ 640 / k)) (-(e / 2) - 320)
  | 9 =>                                                     -- SIGMOID
    let z := fixExp (fixOf m e)
    .fin false ((if neg then one else z) * one / (z + one)) (-320)
  | 10 =>                                                    -- TANH
    let z := fixExp (fixOf m (e + 1))
    .fin neg ((z - one) * one / (z + one)) (-320)
  | _ =>                                                     -- GELU, tanh form: x / (1 + e^-2u), u = √(2/π) (x + 0.044715 x³)
    let a := fixOf m e
    let z := fixExp (min (256 * one) (geluFactor * (a + a * a / one * a / one * 44715 / 1000000) / one))
    .fin neg (m * ((if neg then one else z) * one / (z + one))) (e - 320)

/-- The limit at ±infinity; none where the operation has no value there that the manual states (GELU at -infinity). -/
def limitFn (op : Nat) (neg : Bool) : Option Num :=
  match op with
  | 6 => some (if neg then .zero else .inf false)
  | 7 => some (.fin neg 0 0)
  | 8 => some (if neg then .nan else .zero)
  | 9 => some (if neg then .zero else .fin false 1 0)
  | 10 => some (.fin neg 1 0)
  | _ => if neg then none else some (.inf false)

/-! ## The bound -/

/-- Exponent of an ulp of FP32 at a finite value. -/
def ulpExp (m : Nat) (e : Int) : Int := min 127 (max (-126) (e + Nat.log2 m)) - 23

/-- `y` lies within 2 ulp of the exact value `t`; an infinity does where `t` reaches the overflow bound within 2 ulp. -/
def within2 (y t : Num) : Bool :=
  match t, y with
  | .fin n m e, .fin k a b => (Num.sum [.fin k a b, .fin (!n) m e]).abs.le (.fin false 2 (ulpExp m e))
  | .fin n m e, .inf k => k == n && Num.le (.fin false 1 128) (Num.sum [.fin false m e, .fin false 2 (ulpExp m e)])
  | .inf n, .inf k => k == n
  | _, _ => false

/-- The result of operation 6 to 11 (R155, R189): canonical NaN for NaN, the free value where it lies within 2 ulp of the exact
value, and otherwise the exact value rounded to nearest. -/
def elemFn (op : Nat) (x : Num) : Num :=
  let y := ofF32 (Config.elemFn op (toF32 x))
  match x with
  | .nan => .nan
  | .inf n => (limitFn op n).getD y
  | .fin n m e =>
    match exactFn op n m e with
    | .nan => .nan
    | t => if within2 y t then y else fFP32.round t

end Sys2Proof.Machine
end

