-- ==== Sys2Proof/Machine/Compute.lean ====
section
/-! DEFINITION. What the work orders compute, on rows of bytes: the array (05_number_formats.md R182 to R188), the vector unit
(R155, R189 to R192) and the image operators (10_image_operators.md).
Log entries: 38 DEDUCED, 39 DEDUCED. -/

namespace Sys2Proof.Machine

/-- Rows of bytes, plane by plane. -/
abbrev Rows := List (List Byte)

/-- What a computation gives: the output rows and the events it counts in FMT_CNT and FMC_CNT. -/
structure Res where
  rows : Rows
  flush : Nat := 0
  sat : Nat := 0
  bad : Nat := 0
  clamp : Nat := 0
  nan : Nat := 0
  fbad : Nat := 0

/-- Sum of a list of numbers. -/
def total (l : List Nat) : Nat := l.foldl (· + ·) 0

/-- Row `r` of plane `p` of rows whose planes have `n` rows. -/
def Rows.at (d : Rows) (n p r : Nat) : List Byte := d.getD (p * n + r) []

/-! ## The array -/

/-- An operand pair of Table 5-3, and whether it accumulates in FP32. -/
def pairKind (a b : Nat) : Option Bool :=
  let small (f : Nat) := f == 4 || f == 5
  if a = 9 ∧ b = 9 then some true
  else if a ≤ 1 ∧ b ≤ 1 then some false
  else if a = 2 ∧ b = 2 then some false
  else if small a && small b then some true
  else if (a = 6 ∧ b = 6) ∨ (a = 7 ∧ b = 7) then some true
  else none

/-- K-rows of a tile whose sum is rounded once (R105, R183, R184). -/
def kTile (a b : Nat) : Nat := if a = 0 ∧ b = 0 then 64 else 32

/-- Adds one K-tile to the accumulator (R183 to R186); the flag says whether the element has saturated. -/
def macTile (float : Bool) (acc : Num × Bool) (prods : List Num) : Num × Bool :=
  if float then (flush32 (Num.sum [acc.1, flush32 (Num.sum prods)]), acc.2)
  else
    let r := satInt 32 (Num.sum (acc.1 :: prods)).toInt
    (Num.ofInt r.1, acc.2 || r.2)

/-- The previous value of C enters the accumulation first (R185): in INT32 it is rounded and saturated as a conversion (Table 5-4);
the flag says whether it saturated. -/
def accStart (float : Bool) (x : Num) : Num × Bool :=
  if float then (flush32 x, false)
  else
    let r := encodeElem 3 x
    (Num.ofInt (toSigned 32 r.1), r.2 && !x.isNan)

/-- One output element of the array: SCALE, conversion and flushing (R186, R188). The flag says whether it was flushed. -/
def arrayOut (float : Bool) (fc scale : Nat) (acc : Num) : Nat × Bool :=
  if (float && fc == 8) || (!float && fc == 3) then ((encodeElem fc acc).1, false)
  else
    let x := if float then acc else fFP32.round acc
    let y := if scale = 0 then x else fmul x (fFP16.decode scale)
    let z := flush32 y
    match floatFmt fc with
    | none => ((encodeElem fc z).1, false)
    | some g =>
      let c := (g.encode z).1
      if g.subnormal c then ((g.encode (.fin z.sign 0 0)).1, true)
      else (c, !y.isZero && z.isZero)

/-- One output element from its tiles of products. -/
def arrayElem (float : Bool) (fc scale : Nat) (init : Num × Bool) (tiles : List (List Num)) : Nat × Bool × Bool :=
  let a := tiles.foldl (macTile float) init
  let o := arrayOut float fc scale a.1
  (o.1, o.2, a.2)

/-- A row of array outputs as bytes, with its flush and saturation counts. -/
def arrayRow (fc : Nat) (l : List (Nat × Bool × Bool)) : List Byte × Nat × Nat :=
  (packCodes (elemBits fc) (l.map (·.1)), (l.filter (·.2.1)).length, (l.filter (·.2.2)).length)

/-- Collects array rows. -/
def arrayRes (l : List (List Byte × Nat × Nat)) (bad : Nat) : Res :=
  { rows := l.map (·.1), flush := total (l.map (·.2.1)), sat := total (l.map (·.2.2)), bad := bad }

/-- MATMUL (Table 4-9): `c` holds the previous C when ACC = 1. -/
def matmul (fa fb fc m k n batch : Nat) (acc transB : Bool) (scale : Nat) (a b c : Rows) : Res :=
  let float := (pairKind fa fb).getD true
  let bRows := if transB then n else k
  let rows := (List.range (batch * m)).map fun r =>
    let p := r / m
    let x := decodeRow fa (a.at m p (r % m)) k
    let prev := decodeRow fc (c.at m p (r % m)) n
    let y (i j : Nat) : Num :=
      if transB then (decodeRow fb (b.at bRows p j) k).getD i .zero else (decodeRow fb (b.at bRows p i) n).getD j .zero
    arrayRow fc ((List.range n).map fun j =>
      let prods := (List.range k).map fun i => (x.getD i .zero).mul (y i j)
      arrayElem float fc scale (if acc then accStart float (prev.getD j .zero) else (.zero, false)) (pieces (kTile fa fb) k prods))
  arrayRes rows (total (a.map fun d => badScales fa d k) + total (b.map fun d => badScales fb d (if transB then k else n)))

/-! ## The vector unit -/

/-- MAX and MIN: NaN when either is NaN, and +0 above -0. -/
def fmax (a b : Num) : Num :=
  if a.isNan || b.isNan then .nan else if a.lt b then b else if b.lt a then a else if a.sign then b else a
def fmin (a b : Num) : Num :=
  if a.isNan || b.isNan then .nan else if a.lt b then a else if b.lt a then b else if a.sign then a else b

/-- ELEM's operation on FP32 values (Table 4-9, R155). -/
def elemOp (op : Nat) (a b : Num) : Num :=
  match op with
  | 0 => fadd a b
  | 1 => fadd a b.neg
  | 2 => fmul a b
  | 3 => fmax a b
  | 4 => fmin a b
  | 5 => if a.isNan then .nan else if a.sign then .zero else a
  | op => elemFn op a

/-- An element as the vector unit's FP32 input (R155). -/
def vecIn (x : Num) : Num := fFP32.round x

/-- ELEM: `b` gives the second operand's rows, or none with the scalar in its place. -/
def elemWise (fa fb fc n op : Nat) (a : Rows) (b : Option Rows) (scalar : Num) : Res :=
  let row (r : Nat) : List Byte :=
    let x := (decodeRow fa (a.getD r []) n).map vecIn
    let y := match b with
      | some d => (decodeRow fb (d.getD r []) n).map vecIn
      | none => List.replicate n scalar
    (encodeRow fc (List.zipWith (elemOp op) x y)).1
  { rows := (List.range a.length).map row
    bad := total (a.map fun d => badScales fa d n) + total ((b.getD []).map fun d => badScales fb d n) }

/-- REDUCE of one row, in ascending order (R155). -/
def reduceRow (op : Nat) (l : List Num) : Num :=
  match op with
  | 0 => l.foldl fadd .zero
  | 1 => l.foldl fmax (.inf true)
  | 2 => l.foldl fmin (.inf false)
  | _ => l.foldl (fun s x => fadd s (fmul x x)) .zero

/-- REDUCE: rows of D0 elements become elements of rows of D1. -/
def reduce (fa fc d0 d1 op : Nat) (a : Rows) : Res :=
  let v := a.map fun d => reduceRow op ((decodeRow fa d d0).map vecIn)
  { rows := (pieces d1 a.length v).map fun r => (encodeRow fc r).1, bad := total (a.map fun d => badScales fa d d0) }

/-- CVT (R190 to R192). -/
def cvtRows (fa fc n : Nat) (a : Rows) : Res :=
  let e := a.map fun d => encodeRow fc (decodeRow fa d n)
  { rows := e.map (·.1), sat := total (e.map (·.2)), bad := total (a.map fun d => badScales fa d n) }

/-! ## Feature maps (R349) -/

/-- Rows and planes of a feature map in layout 0 or 1. -/
def mapPlanes (lay c : Nat) : Nat := if lay = 1 then cdiv c 32 else 1
def mapRowElems (lay w c : Nat) : Nat := if lay = 1 then w * 32 else w * c

/-- Element bits (x, y, ch) of a feature map: which row, and which element of it. -/
def mapIndex (lay h c x y ch : Nat) : Nat × Nat :=
  if lay = 1 then (ch / 32 * h + y, x * 32 + ch % 32) else (y, x * c + ch)

/-- Element (x, y, ch) of a feature map. -/
def mapElem (f lay h c : Nat) (d : Rows) (x y ch : Nat) : Num :=
  let i := mapIndex lay h c x y ch
  let row := d.getD i.1 []
  if f = 9 then q4sElem row i.2 else decodeElem f (codeAt (elemBits f) row i.2)

/-- Element bits of a feature map. -/
def mapCode (f lay h c : Nat) (d : Rows) (x y ch : Nat) : Nat :=
  let i := mapIndex lay h c x y ch
  codeAt (elemBits f) (d.getD i.1 []) i.2

/-- The element numbers (x, ch) of row `r` of a map in storage order; channels beyond C are written as zero. -/
def rowOrder (lay w h c r : Nat) : List (Nat × Nat × Nat) :=
  if lay = 1 then (List.range (w * 32)).map fun i => (i / 32, r % h, r / h * 32 + i % 32)
  else (List.range (w * c)).map fun i => (i / c, r, i % c)

/-! ## Padding (R352, R353) -/

/-- Padding before and after in one dimension. -/
def padBefore (k d : Nat) (on edge : Bool) : Nat := if on && edge then d * (k - 1) / 2 else 0
def padAfter (k d : Nat) (on edge : Bool) : Nat := if on && edge then d * (k - 1) - d * (k - 1) / 2 else 0

/-- Output size; 0 when it would be below 1. -/
def outSize (n before after k d s : Nat) : Nat :=
  if n + before + after < d * (k - 1) + 1 then 0 else (n + before + after - d * (k - 1) - 1) / s + 1

/-- The geometry of CONV, DWCONV and POOL. -/
structure Geo where
  kw : Nat
  kh : Nat
  sw : Nat
  sh : Nat
  dil : Nat
  pad : Bool
  clamp : Bool
  top : Bool
  bottom : Bool
  left : Bool
  right : Bool

def Geo.px (g : Geo) : Nat := padBefore g.kw g.dil g.pad g.left
def Geo.py (g : Geo) : Nat := padBefore g.kh g.dil g.pad g.top
def Geo.wOut (g : Geo) (w : Nat) : Nat := outSize w g.px (padAfter g.kw g.dil g.pad g.right) g.kw g.dil g.sw
def Geo.hOut (g : Geo) (h : Nat) : Nat := outSize h g.py (padAfter g.kh g.dil g.pad g.bottom) g.kh g.dil g.sh

/-- An input coordinate: inside the map, or none in the padding; clamped when the edge element stands for it. -/
def inside (i : Int) (n : Nat) (clamp : Bool) : Option Nat :=
  if 0 ≤ i ∧ i < n then some i.toNat
  else if clamp then some (if i < 0 then 0 else n - 1) else none

/-- The input position of tap (kx, ky) for output (x, y). -/
def Geo.tap (g : Geo) (w h x y kx ky : Nat) : Option (Nat × Nat) :=
  match inside ((g.sw * x + g.dil * kx : Nat) - (g.px : Int)) w g.clamp, inside ((g.sh * y + g.dil * ky : Nat) - (g.py : Int)) h g.clamp with
  | some a, some b => some (a, b)
  | _, _ => none

/-- The taps in ascending ky, then ascending kx. -/
def Geo.taps (g : Geo) : List (Nat × Nat) := (List.range (g.kw * g.kh)).map fun t => (t % g.kw, t / g.kw)

/-- CONV (R354) with `grp` groups; DWCONV is the case of one channel a group with tiles of 32 taps (R356). -/
def conv (fa fb fc la lc w h cin cout grp : Nat) (g : Geo) (acc dw : Bool) (scale : Nat) (a b c : Rows) : Res :=
  let float := (pairKind fa fb).getD true
  let cg := cin / grp
  let og := cout / grp
  let wo := g.wOut w
  let ho := g.hOut h
  let wt (o t i : Nat) : Num :=
    let row := b.getD o []
    if fb = 9 then q4sElem row (t * cg + i) else decodeElem fb (codeAt (elemBits fb) row (t * cg + i))
  let one (x y o : Nat) : Nat × Bool × Bool :=
    if cout ≤ o then (0, false, false)
    else
      let gi := o / og
      let prods := g.taps.mapIdx fun t k =>
        (List.range cg).map fun i =>
          match g.tap w h x y k.1 k.2 with
          | some (u, v) => (mapElem fa la h cin a u v (gi * cg + i)).mul (wt o t i)
          | none => Num.zero.mul (wt o t i)
      let tiles := if dw then pieces 32 (g.kw * g.kh) prods.flatten
        else prods.flatMap fun p => pieces (kTile fa fb) cg p
      arrayElem float fc scale (if acc then accStart float (mapElem fc lc ho cout c x y o) else (.zero, false)) tiles
  let rows := (List.range (ho * mapPlanes lc cout)).map fun r =>
    arrayRow fc ((rowOrder lc wo ho cout r).map fun q => one q.1 q.2.1 q.2.2)
  arrayRes rows (total (a.map fun d => badScales fa d (mapRowElems la w cin)) + total (b.map fun d => badScales fb d (g.kw * g.kh * cg)))

/-- x / n in FP32, for a count n > 0. -/
def fdivNat (x : Num) (n : Nat) : Num :=
  match x with
  | .fin s m e =>
    let q := m * 2 ^ 80 / n
    fFP32.round (.fin s (2 * q + b2n (m * 2 ^ 80 % n != 0)) (e - 81))
  | x => x

/-- POOL (R357). -/
def pool (f la lc w h c : Nat) (g : Geo) (avg : Bool) (a : Rows) : Res :=
  let wo := g.wOut w
  let ho := g.hOut h
  let one (x y ch : Nat) : Nat :=
    if c ≤ ch then 0
    else
      let v := g.taps.filterMap fun k => (g.tap w h x y k.1 k.2).map fun p => mapElem f la h c a p.1 p.2 ch
      if avg then (encodeElem f (fdivNat ((v.map vecIn).foldl fadd .zero) v.length)).1
      else (encodeElem f (match v with
        | [] => .zero
        | y :: t => t.foldl fmax y)).1
  { rows := (List.range (ho * mapPlanes lc c)).map fun r =>
      packCodes (elemBits f) ((rowOrder lc wo ho c r).map fun q => one q.1 q.2.1 q.2.2) }

/-- S2D with factor `t` (R358). -/
def s2d (f t w h c : Nat) (a : Rows) : Res :=
  let wo := w / t
  let ho := h / t
  let co := c * t * t
  { rows := (List.range ho).map fun y => packCodes (elemBits f) ((rowOrder 0 wo ho co y).map fun q =>
      let k := q.2.2 / c
      mapCode f 0 h c a (q.1 * t + k % t) (y * t + k / t) (q.2.2 % c)) }

/-- D2S with factor `t`, the inverse mapping (R358). -/
def d2s (f t w h c : Nat) (a : Rows) : Res :=
  let wo := w * t
  let ho := h * t
  let co := c / (t * t)
  { rows := (List.range ho).map fun y => packCodes (elemBits f) ((rowOrder 0 wo ho co y).map fun q =>
      mapCode f 0 h c a (q.1 / t) (y / t) ((y % t * t + q.1 % t) * co + q.2.2)) }

/-! ## Feature-map compression (R361 to R363) -/

/-- The integer on which FMCOMP computes, and whether the element is an E4M3 NaN. -/
def fmValue (f code : Nat) : Int × Bool :=
  if f = 1 then (toSigned 8 code, false)
  else
    let m := code % 128
    let nan := m == 127
    let v : Int := if nan then 126 else m
    (if 128 ≤ code then -v else v, nan)

/-- The code of a reconstructed integer, and whether it was clamped. -/
def fmCode (f : Nat) (v : Int) : Nat × Bool :=
  if f = 1 then let r := satInt 8 v; (intCode 8 r.1, r.2)
  else
    let w : Int := if 126 < v then 126 else if v < -126 then -126 else v
    (if w < 0 then 128 + w.natAbs else w.natAbs, w != v)

/-- One compressed block from its 64 integers; `lv` levels (R362, Table 10-3). -/
def fmBlock (lv : Nat) (v : List Int) : List Byte :=
  let lo := v.foldl min (v.headD 0)
  let hi := v.foldl max (v.headD 0)
  let step := cdiv (hi - lo).toNat (lv - 1)
  let q := v.map fun x => if step = 0 then 0 else rneDiv (x - lo).toNat step
  if lv = 11 then
    let pair := total ((List.range 32).map fun k => (11 * q.getD (2 * k) 0 + q.getD (2 * k + 1) 0) * 2 ^ (7 * k))
    leBytes 1 (intCode 8 lo) ++ leBytes 1 step ++ [0, 0] ++ leBytes 28 pair
  else
    leBytes 1 (intCode 8 lo) ++ leBytes 1 step
      ++ (List.range 13).flatMap (fun j => leBytes 1 (total ((List.range 5).map fun t => q.getD (5 * j + t) 0 * 3 ^ t))) ++ [0]

/-- The 64 codes q of a compressed block, or none where a reserved code stands (R363). -/
def fmCodes (lv : Nat) (b : List Byte) : List (Option Nat) × Nat :=
  if lv = 11 then
    let n := leNat (b.drop 4)
    let c := (List.range 32).map fun k => n / 2 ^ (7 * k) % 128
    (c.flatMap fun x => if 121 ≤ x then [none, none] else [some (x / 11), some (x % 11)], (c.filter (121 ≤ ·)).length)
  else
    let c := (List.range 13).map fun j => (b.getD (2 + j) 0).toNat
    let bad (j x : Nat) : Bool := if j = 12 then decide (80 < x) else decide (242 < x)
    let vals := c.mapIdx fun j x => (List.range (if j = 12 then 4 else 5)).map fun t => if bad j x then none else some (x / 3 ^ t % 3)
    (vals.flatten, ((c.mapIdx fun j x => bad j x).filter id).length)

/-- Bytes of a compressed block in layout 2 or 3. -/
def blockBytes (lay : Nat) : Nat := if lay = 2 then 32 else 16
def blockLevels (lay : Nat) : Nat := if lay = 2 then 11 else 3

/-- FMCOMP. -/
def fmcomp (f la lc w h c : Nat) (a : Rows) : Res :=
  let vals (bx by' ch : Nat) := (List.range 64).map fun i => fmValue f (mapCode f la h c a (8 * bx + i % 8) (8 * by' + i / 8) ch)
  let rows := (List.range (h / 8)).map fun by' => (List.range (w / 8 * c)).map fun k => vals (k / c) by' (k % c)
  { rows := rows.map fun r => r.flatMap fun v => fmBlock (blockLevels lc) (v.map (·.1))
    nan := total (rows.map fun r => total (r.map fun v => (v.filter (·.2)).length)) }

/-- FMDECOMP. -/
def fmdecomp (f la lc w h c : Nat) (a : Rows) : Res :=
  let nb := blockBytes la
  let block (bx by' ch : Nat) : List Byte := ((a.getD by' []).drop ((bx * c + ch) * nb)).take nb
  let value (x y ch : Nat) : Nat × Bool :=
    if c ≤ ch then (0, false)
    else
      let b := block (x / 8) (y / 8) ch
      let base := toSigned 8 (b.getD 0 0).toNat
      let step := (b.getD 1 0).toNat
      match ((fmCodes (blockLevels la) b).1.getD (y % 8 * 8 + x % 8) none) with
      | some q => fmCode f (base + (q * step : Nat))
      | none => fmCode f base
  let rows := (List.range (h * mapPlanes lc c)).map fun r => (rowOrder lc w h c r).map fun q => value q.1 q.2.1 q.2.2
  { rows := rows.map fun r => packCodes 8 (r.map (·.1))
    clamp := total (rows.map fun r => (r.filter (·.2)).length)
    fbad := total ((List.range (h / 8)).map fun by' =>
      total ((List.range (w / 8 * c)).map fun k => (fmCodes (blockLevels la) (block (k / c) by' (k % c))).2)) }

end Sys2Proof.Machine
end

