-- ==== Sys2Proof/Machine/Kv.lean ====
section
/-! DEFINITION. The arithmetic of the Wharfinger's pages and of ATTNBLK (11_attention_wharfinger.md): page layout, append and
quantisation, decoding and the attention of one block, all on bytes and exact values.
Log entries: 88 DEDUCED. -/

namespace Sys2Proof.Machine

/-! ## Exact quotients -/

/-- A quotient with 64 bits beyond the integer point of the ratio and a sticky bit: rounding it to any format or integer
of fewer bits is one rounding of the exact quotient. -/
def Num.div : Num → Num → Num
  | .nan, _ => .nan
  | _, .nan => .nan
  | .inf _, .inf _ => .nan
  | .inf a, .fin b _ _ => .inf (a != b)
  | .fin a _ _, .inf b => .fin (a != b) 0 0
  | .fin a m e, .fin b k f =>
    if k = 0 then (if m = 0 then .nan else .inf (a != b))
    else
      let sh := 64 + Nat.log2 k
      let q := m * 2 ^ sh / k
      let r := m * 2 ^ sh % k
      .fin (a != b) (2 * q + (if r = 0 then 0 else 1)) (e - f - sh - 1)

/-- FP32 division, rounded to nearest. -/
def fdiv (a b : Num) : Num := fFP32.round (a.div b)

/-- The smallest FP16 encoding not below a value that is not negative. -/
def up16 (x : Num) : Nat :=
  let c := (fFP16.encode x).1
  if (fFP16.decode c).lt x then c + 1 else c

/-! ## Pages (Table 11-1) -/

/-- What a pool's registers say (Tables 11-12 and 11-13). -/
structure Pool where
  fmt : Nat
  dec : Nat
  dim : Nat
  layers : Nat
  heads : Nat
  part : Nat
  base : Nat
  first : Nat
  count : Nat
  seqFirst : Nat
  seqCount : Nat
  maxp : Nat
  mapBase : Nat
  khead : Nat
  floor : Nat
  smscale : Nat
  deriving DecidableEq, Repr

/-- UNITS of a pool. -/
def Pool.units (p : Pool) : Nat := p.layers * p.heads

/-- SA of Table 11-1. -/
def Pool.sa (p : Pool) : Nat := max 128 (2 * p.dim)

/-- RB of Table 11-1. -/
def Pool.rb (p : Pool) : Nat := if p.fmt = 10 then 3 * p.dim / 4 else p.dim

/-- STRIDE (R371). -/
def Pool.stride (p : Pool) : Nat := 64 + p.sa + 64 * p.rb

/-- Bytes of the pool's descriptors, sequence entries and map span. -/
def Pool.tableBytes (p : Pool) : Nat := p.count * 8 + p.seqCount * 64 + p.seqCount * p.units * 8 * p.maxp

/-- TSIZE (R371). -/
def Pool.tsize (p : Pool) : Nat := cdiv (64 + p.tableBytes) 4096 * 4096

/-- The address of a page (R371). -/
def Pool.pageAddr (p : Pool) (page : Nat) : Nat := p.base + p.tsize + (page - p.first) * p.stride

/-- Qmax (R383). -/
def Pool.qmax (p : Pool) : Nat := if p.fmt = 10 then 31 else if p.fmt = 1 then 127 else 448

/-- The decoded format. -/
def Pool.decFmt (p : Pool) : FFmt := if p.dec = 4 then fE4M3 else fFP16

/-- Bytes [at, at + n) of a list replaced. -/
def patch (d : List Byte) (at_ : Nat) (x : List Byte) : List Byte := d.take at_ ++ x ++ d.drop (at_ + x.length)

/-- A fresh page: its header, everything else zero. -/
def Pool.blank (p : Pool) (page kind : Nat) : List Byte :=
  leBytes 2 page ++ [BitVec.ofNat 8 kind, BitVec.ofNat 8 p.fmt, BitVec.ofNat 8 (p.dim / 32)] ++ List.replicate (p.stride - 5) 0

/-- FILL and REQ of a page. -/
def pgFill (d : List Byte) : Nat := (d.getD 5 0).toNat
def pgReq (d : List Byte) : Bool := nbit (d.getD 6 0).toNat 0

/-- Scale `k` of a page, as FP16 bits. -/
def pgScale (d : List Byte) (k : Nat) : Nat := leNat ((d.drop (64 + 2 * k)).take 2)

/-- Bytes of slot `t`. -/
def Pool.slot (p : Pool) (d : List Byte) (t : Nat) : List Byte := (d.drop (64 + p.sa + t * p.rb)).take p.rb

/-- Code `c` of a slot. -/
def Pool.code (p : Pool) (row : List Byte) (c : Nat) : Nat := if p.fmt = 10 then kv6Code row c else (row.getD c 0).toNat

/-- Packs the codes of a row. -/
def Pool.packRow (p : Pool) (l : List Nat) : List Byte := if p.fmt = 10 then kv6Pack l else l.map (BitVec.ofNat 8)

/-- The value of a code before its scale (R372); the reserved KV6 and INT8 codes decode as zero. -/
def Pool.codeValue (p : Pool) (c : Nat) : Num :=
  if p.fmt = 10 then (if c = 32 then .zero else Num.ofInt (toSigned 6 c))
  else if p.fmt = 1 then (if c = 128 then .zero else Num.ofInt (toSigned 8 c))
  else fE4M3.decode c

/-- The code is reserved (R180, R372). -/
def Pool.codeBad (p : Pool) (c : Nat) : Bool := (p.fmt == 10 && c == 32) || (p.fmt == 1 && c == 128)

/-- A decoded element: code times scale, rounded once to DEC (R372). -/
def Pool.decode (p : Pool) (c scale : Nat) : Num := p.decFmt.round ((p.codeValue c).mul (fFP16.decode scale))

/-- Saturates a value to plus or minus Qmax. -/
def Pool.clampQ (p : Pool) (x : Num) : Num :=
  let q := Num.ofInt p.qmax
  if q.lt x.abs then (if x.sign then q.neg else q) else x

/-- The code of a quotient: rounded to nearest, ties to even, saturated to plus or minus Qmax (R383, Table 5-4). -/
def Pool.quant (p : Pool) (x : Num) : Nat :=
  if p.fmt = 4 then (fE4M3.encode (p.clampQ x)).1
  else
    let w := if p.fmt = 10 then 6 else 8
    let q : Int := p.qmax
    let i := match x with
      | .inf n => if n then -q else q
      | x => x.toInt
    intCode w (if q < i then q else if i < -q then -q else i)

/-- The larger of two magnitudes. -/
def nmax (a b : Num) : Num := if a.lt b then b else a

/-- The key scale of a channel from its largest magnitude (R383). -/
def Pool.keyScale (p : Pool) (a : Num) : Nat :=
  up16 (fdiv (fmul (nmax a (fFP16.decode p.floor)) (fFP16.decode p.khead)) (Num.ofInt p.qmax))

/-- The token scale of a value row (R387). -/
def Pool.valScale (p : Pool) (row : List Num) : Nat :=
  up16 (fdiv (row.foldl (fun m x => nmax m x.abs) (fFP16.decode p.floor)) (Num.ofInt p.qmax))

/-- Writes scale `k`. -/
def putScale (d : List Byte) (k v : Nat) : List Byte := patch d (64 + 2 * k) (leBytes 2 v)

/-- Writes slot `t`. -/
def Pool.putSlot (p : Pool) (d : List Byte) (t : Nat) (row : List Byte) : List Byte := patch d (64 + p.sa + t * p.rb) row

/-- Events of an append: re-quantises and saturated values. -/
structure KvEv where
  requant : Nat := 0
  sat : Nat := 0

/-- The bound above which a key value needs a larger scale (R384). -/
def Pool.over (p : Pool) (x : Num) (scale : Nat) : Bool :=
  Num.lt ((fFP16.decode scale).mul (.fin false (2 * p.qmax + 1) (-1))) x.abs

/-- The re-quantise of a page for a row, in its affected channels (R384). -/
def Pool.requant (p : Pool) (d : List Byte) (used : Nat) (row : List Num) : List Byte :=
  let scales := (List.range p.dim).map fun c =>
    let s0 := pgScale d c
    let x := row.getD c .zero
    if p.over x s0 then
      let big := (List.range used).foldl (fun m t => nmax m (p.decode (p.code (p.slot d t) c) s0).abs) x.abs
      (s0, p.keyScale big, true)
    else (s0, s0, false)
  let d1 := (List.range p.dim).foldl (fun e c => putScale e c (scales.getD c (0, 0, false)).2.1) d
  let d2 := (List.range used).foldl (fun e t =>
    let codes := (List.range p.dim).map fun c =>
      let k := p.code (p.slot d t) c
      let sc := scales.getD c (0, 0, false)
      if sc.2.2 then p.quant (((p.codeValue k).mul (fFP16.decode sc.1)).div (fFP16.decode sc.2.1)) else k
    p.putSlot e t (p.packRow codes)) d1
  patch d2 6 [1]

/-- Writes a key row into slot `t`; `look` holds the rows of the same KVAPPEND that land in the page (R383, R384). -/
def Pool.putKey (p : Pool) (look : List (List Num)) (d : List Byte) (t : Nat) (row : List Num) : List Byte × KvEv :=
  let d1 := if t = 0 then
      (List.range p.dim).foldl (fun e c =>
        putScale e c (p.keyScale (look.foldl (fun m r => nmax m (r.getD c .zero).abs) .zero))) d
    else d
  let hit := (List.range p.dim).filter fun c => p.over (row.getD c .zero) (pgScale d1 c)
  let re := t ≠ 0 ∧ hit ≠ [] ∧ pgReq d1 = false
  let d2 := if re then p.requant d1 t row else d1
  let sat := if t ≠ 0 ∧ pgReq d1 then hit.length else 0
  let codes := (List.range p.dim).map fun c => p.quant ((row.getD c .zero).div (fFP16.decode (pgScale d2 c)))
  (patch (p.putSlot d2 t (p.packRow codes)) 5 [BitVec.ofNat 8 (t + 1)], { requant := if re then 1 else 0, sat := sat })

/-- Writes a value row into slot `t` with its token scale (R387). -/
def Pool.putVal (p : Pool) (d : List Byte) (t : Nat) (row : List Num) : List Byte :=
  let s := p.valScale row
  let codes := row.map fun x => p.quant (x.div (fFP16.decode s))
  patch (p.putSlot (putScale d t s) t (p.packRow codes)) 5 [BitVec.ofNat 8 (t + 1)]

/-- Writes rows into a page from slot `t` on, in token order (R382). -/
def Pool.putRows (p : Pool) (kind : Nat) (look : List (List Num)) : List Byte → Nat → List (List Num) → List Byte × KvEv
  | d, _, [] => (d, {})
  | d, t, row :: rest =>
    let r := if kind = 0 then p.putKey look d t row else (p.putVal d t row, {})
    let e := Pool.putRows p kind look r.1 (t + 1) rest
    (e.1, { requant := r.2.requant + e.2.requant, sat := r.2.sat + e.2.sat })

/-! ## Attention (R392) -/

/-- The row state: m, l and O. -/
structure AttnRow where
  m : Num
  l : Num
  o : List Num

/-- The state as INIT sets it. -/
def AttnRow.init (dim : Nat) : AttnRow := ⟨.inf true, .zero, List.replicate dim .zero⟩

/-- Reads a state row of 8 + 4 × DIM bytes. -/
def AttnRow.read (dim : Nat) (d : List Byte) : AttnRow :=
  let at_ (i : Nat) := fFP32.decode (leNat ((d.drop (4 * i)).take 4))
  ⟨at_ 0, at_ 1, (List.range dim).map fun i => at_ (i + 2)⟩

/-- Writes a state row. -/
def AttnRow.bytes (r : AttnRow) : List Byte := (r.m :: r.l :: r.o).flatMap fun x => leBytes 4 (fFP32.encode x).1

/-- exp is the EXP of the vector unit, 0 for minus infinity (R189, R392). -/
def vexp (x : Num) : Num := elemFn 6 x

/-- A dot product of the array: tiles of 32 with FP32 accumulation (R184, R186). -/
def arrayDot (x y : List Num) : Num :=
  ((pieces 32 (cdiv x.length 32) (List.zipWith Num.mul x y)).foldl (macTile true) (.zero, false)).1

/-- One block of 64 keys from `b`, for query row `r` (R392). `k` and `v` are the decoded rows of the block. -/
def AttnRow.block (p : Pool) (st : AttnRow) (q : List Num) (k v : List (List Num)) (b kend : Nat) (causal : Bool) (lim : Nat) : AttnRow :=
  let s := (List.range 64).map fun j =>
    if kend ≤ b + j ∨ (causal = true ∧ lim < b + j) then Num.inf true
    else fmul (arrayDot q (k.getD j [])) (fFP16.decode p.smscale)
  let mn := s.foldl fmax st.m
  if mn = .inf true then st
  else
    let a := if st.m = .inf true then .zero else vexp (fadd st.m mn.neg)
    let pr := s.map fun x => if x = .inf true then Num.zero else vexp (fadd x mn.neg)
    let l := fadd (fmul st.l a) (pr.foldl fadd .zero)
    let pd := pr.map fun x => p.decFmt.round x
    let o := (List.range st.o.length).map fun c =>
      fadd (fmul (st.o.getD c .zero) a) (arrayDot pd ((List.range 64).map fun j => (v.getD j []).getD c .zero))
    ⟨mn, l, o⟩

/-- Merges a partner's state (R392). -/
def AttnRow.merge (x y : AttnRow) : AttnRow :=
  let mn := fmax x.m y.m
  if mn = .inf true then x
  else
    let f (z : Num) := if z = .inf true then Num.zero else vexp (fadd z mn.neg)
    let a := f x.m
    let a1 := f y.m
    ⟨mn, fadd (fmul x.l a) (fmul y.l a1),
      List.zipWith (fun u w => fadd (fmul u a) (fmul w a1)) x.o y.o⟩

/-- The output row: O / l, or 0 when l is 0. -/
def AttnRow.out (x : AttnRow) : List Num := if x.l.isZero then x.o.map fun _ => .zero else x.o.map fun u => fdiv u x.l

end Sys2Proof.Machine
end

