-- ==== Sys2Proof/Machine/Anneal.lean ====
section
/-! DEFINITION. The arithmetic of the Dredger (12_dredger.md): parsing and expansion of a problem, scaling, the generator, one
anneal step, the end of a sweep and the image of the state area.
Log entries: 91 DEDUCED. -/

namespace Sys2Proof.Machine

/-! ## The descriptor and its inputs (Tables 12-1 and 12-2) -/

/-- A problem descriptor. -/
structure Desc where
  n : Nat
  dense : Bool
  init : Bool
  resume : Bool
  ncon : Nat
  ngrp : Nat
  ncpl : Nat
  seed : Nat
  h : Nat
  j : Nat
  g : Nat
  c : Nat
  sa : Nat

/-- A little-endian field of bytes. -/
def leAt (d : List Byte) (i n : Nat) : Nat := leNat ((d.drop i).take n)

def Desc.read (d : List Byte) : Desc :=
  { n := leAt d 0 2, dense := nbit (leAt d 2 1) 0, init := nbit (leAt d 2 1) 1, resume := nbit (leAt d 2 1) 2,
    ncon := leAt d 3 1, ngrp := leAt d 4 2, ncpl := leAt d 8 4, seed := leAt d 16 8, h := leAt d 24 8, j := leAt d 32 8,
    g := leAt d 40 8, c := leAt d 48 8, sa := leAt d 56 8 }

/-- The DRG_BAD reason of a descriptor's fields, 0 for none (Table 12-7 reasons 2 and 3). -/
def Desc.bad (x : Desc) (d : List Byte) : Nat :=
  if x.n < 1 ∨ (if x.dense then 2048 else 16384) < x.n ∨ 64 < x.ncon ∨ 2048 < x.ngrp ∨ 1048576 < x.ncpl then 2
  else if leAt d 2 1 / 8 ≠ 0 ∨ leAt d 6 2 ≠ 0 ∨ leAt d 12 4 ≠ 0 ∨ (x.dense = true ∧ x.ncpl ≠ 0)
      ∨ [x.h, x.j, x.g, x.c, x.sa].any (fun a => decide (2 ^ 48 ≤ a)) ∨ (x.ngrp = 0 ∧ x.g ≠ 0) ∨ (x.ncon = 0 ∧ x.c ≠ 0)
      ∨ x.sa % 64 ≠ 0 then 3
  else 0

/-- An inequality: members with their weights, slack bits, B, STEP and PEN as FP16 values. -/
structure Ineq where
  members : List (Nat × Num)
  bits : Nat
  b : Num
  step : Num
  pen : Num

/-- A problem as given: linear terms, couplings in contribution order, groups, inequalities. -/
structure Given where
  h : List Num
  cpl : List (Nat × Nat × Num)
  groups : List (List Nat)
  ineqs : List Ineq

/-- FP16 at a byte offset. -/
def halfAt (d : List Byte) (i : Nat) : Num := fFP16.decode (leAt d i 2)

/-- The value is neither finite. -/
def notFinite : Num → Bool
  | .fin _ _ _ => false
  | _ => true

/-- The value is positive and finite. -/
def positive (x : Num) : Bool := !notFinite x && !x.sign && !x.isZero

/-- A list has a repeated element. -/
def hasDup (l : List Nat) : Bool := l.eraseDups.length != l.length

/-- The reason for which inputs are refused, 0 for none (Table 12-7 reasons 3 to 7). `zeros` says that every field marked zero
in the records is zero. -/
def Given.bad (x : Given) (n : Nat) (zeros : Bool) : Nat :=
  if !zeros then 3
  else if x.cpl.any (fun c => decide (n ≤ c.1) || decide (n ≤ c.2.1) || c.1 == c.2.1)
      || x.groups.any (fun g => g.any fun v => decide (n ≤ v))
      || x.ineqs.any (fun q => q.members.any fun m => decide (n ≤ m.1)) then 4
  else if x.groups.any (fun g => decide (g.length < 2) || decide (256 < g.length)) || hasDup (x.groups.flatMap id) then 5
  else if x.ineqs.any fun q => q.members.isEmpty || decide (q.bits < 1) || decide (12 < q.bits) || (!notFinite q.step && !positive q.step)
      || (!notFinite q.pen && !positive q.pen) || hasDup (q.members.map (·.1)) then 6
  else if x.h.any notFinite || x.cpl.any (fun c => notFinite c.2.2)
      || x.ineqs.any (fun q => notFinite q.b || notFinite q.step || notFinite q.pen || q.members.any fun m => notFinite m.2) then 7
  else 0

/-! ## Expansion (R414, R415) -/

/-- Coefficients as FP32 values: linear by variable, couplings by i × 2^16 + j with i < j. -/
structure Coefs where
  h : Tab Num
  j : Tab Num

def Coefs.addH (c : Coefs) (v : Nat) (x : Num) : Coefs := { c with h := Tab.put c.h v (fadd (Tab.get .zero c.h v) x) }
def pairKey (a b : Nat) : Nat := if a < b then a * 2 ^ 16 + b else b * 2 ^ 16 + a
def Coefs.addJ (c : Coefs) (a b : Nat) (x : Num) : Coefs :=
  { c with j := Tab.put c.j (pairKey a b) (fadd (Tab.get .zero c.j (pairKey a b)) x) }

/-- The pairs of a list in order: first before second. -/
def orderedPairs {α : Type} : List α → List (α × α)
  | [] => []
  | a :: t => t.map (fun b => (a, b)) ++ orderedPairs t

/-- One inequality's contributions; its slack variables start at `base` (R415). -/
def Coefs.addIneq (c : Coefs) (q : Ineq) (base : Nat) : Coefs :=
  let slack := (List.range q.bits).map fun k => (base + k, fFP32.round (q.step.mul (.fin false 1 k)))
  let all := q.members ++ slack
  let two : Num := .fin false 2 0
  let c1 := all.foldl (fun a m => a.addH m.1 (fmul q.pen (fadd (fmul m.2 m.2) (fmul (fmul two q.b) m.2).neg))) c
  (orderedPairs all).foldl (fun a m => a.addJ m.1.1 m.2.1 (fmul (fmul (fmul two q.pen) m.1.2) m.2.2)) c1

/-- Every inequality's contributions, slack variables following one another from `base`. -/
def Coefs.addIneqs : Coefs → List Ineq → Nat → Coefs
  | c, [], _ => c
  | c, q :: t, base => Coefs.addIneqs (c.addIneq q base) t (base + q.bits)

/-- Ntot (R415). -/
def Given.ntot (x : Given) (n : Nat) : Nat := n + total (x.ineqs.map (·.bits))

/-- The expanded coefficients (R414). -/
def Given.expand (x : Given) (n : Nat) : Coefs :=
  let z : Coefs := ⟨[], []⟩
  let c0 := (x.h.zip (List.range n)).foldl (fun (a : Coefs) p => a.addH p.2 p.1) z
  let c1 := x.cpl.foldl (fun (a : Coefs) p => a.addJ p.1 p.2.1 p.2.2) c0
  c1.addIneqs x.ineqs n

/-! ## Scaling (R418, R419) -/

/-- S: the largest magnitude, 1 when every coefficient is zero. -/
def Coefs.scale (c : Coefs) : Num :=
  let m := (c.h ++ c.j).foldl (fun a p => nmax a p.2.abs) .zero
  if m.isZero then .fin false 1 0 else m

/-- The 12-bit code of a coefficient. -/
def codeOf (k c : Num) : Int := (fmul c k).toInt

/-- QERR: the largest |c - code × S / 2047|, rounded once to FP32. -/
def Coefs.qerr (c : Coefs) (s k : Num) : Num :=
  let m := (c.h ++ c.j).foldl (fun a p =>
    nmax a (Num.sum [p.2.mul (Num.ofInt 2047), ((Num.ofInt (codeOf k p.2)).mul s).neg]).abs) .zero
  fdiv m (Num.ofInt 2047)

/-- Non-zero coefficients whose code is zero (R419). -/
def Coefs.zeroed (c : Coefs) (k : Num) : Nat := ((c.h ++ c.j).filter fun p => !p.2.isZero && codeOf k p.2 == 0).length

/-- The codes of the couplings that are stored: (i, j, code) with i < j. -/
def Coefs.codes (c : Coefs) (k : Num) : List (Nat × Nat × Int) :=
  (c.j.map fun p => (p.1 / 2 ^ 16, p.1 % 2 ^ 16, codeOf k p.2)).filter fun p => p.2.2 != 0

/-- The adjacency of every variable: its stored entries, or all others in dense mode (R419). -/
def adjacency (n : Nat) (dense : Bool) (l : List (Nat × Nat × Int)) : Tab (List (Nat × Int)) :=
  if dense then
    (List.range n).map fun v => (v, ((List.range n).filter (· != v)).map fun u =>
      (u, ((l.find? fun p => p.1 == min u v && p.2.1 == max u v).map (·.2.2)).getD 0))
  else
    let both : Tab (List (Nat × Int)) := l.foldl (fun t p =>
      let t1 : Tab (List (Nat × Int)) := Tab.put t p.1 (Tab.get [] t p.1 ++ [(p.2.1, p.2.2)])
      Tab.put t1 p.2.1 (Tab.get [] t1 p.2.1 ++ [(p.1, p.2.2)])) []
    both.map fun c => (c.1, c.2.foldl (fun acc e => acc.takeWhile (fun a => decide (a.1 < e.1)) ++ [e]
      ++ acc.dropWhile (fun a => decide (a.1 < e.1))) [])

/-- The contents of the coupling store (R419). -/
def storeImage (n : Nat) (dense : Bool) (l : List (Nat × Nat × Int)) : List Byte :=
  if dense then
    (List.range n).flatMap fun i => ((List.range n).filter fun j => decide (i < j)).flatMap fun j =>
      leBytes 2 (intCode 16 (((l.find? fun p => p.1 == i && p.2.1 == j).map (·.2.2)).getD 0))
  else
    (adjacency n false l).flatMap fun c => c.2.flatMap fun e => leBytes 4 (e.1 + intCode 12 e.2 * 2 ^ 16)

/-! ## Energy and fields (R413, R424) -/

/-- The neighbours of a variable. -/
def Anneal.nb (a : Anneal) (v : Nat) : List (Nat × Int) := Tab.get [] a.adj v

/-- f of a variable (R424). -/
def Anneal.field (a : Anneal) (v : Nat) : Int :=
  (a.nb v).foldl (fun s e => if nbit a.x e.1 then s + e.2 else s) (a.h.getD v 0)

/-- J of a pair in code units. -/
def Anneal.cpl (a : Anneal) (v u : Nat) : Int := (((a.nb v).find? fun e => e.1 == u).map (·.2)).getD 0

/-- E of an assignment. -/
def Anneal.energy (a : Anneal) (x : Nat) : Int :=
  (setBits a.n x).foldl (fun s v => s + a.h.getD v 0
    + (a.nb v).foldl (fun t e => if v < e.1 ∧ nbit x e.1 then t + e.2 else t) 0) 0

/-! ## The generator (R426) -/

/-- One output of the seeding function and the next counter. -/
def seedMix (z : U64) : U64 × U64 :=
  let z1 := z + 0x9E3779B97F4A7C15
  let t := (z1 ^^^ (z1 >>> 30)) * 0xBF58476D1CE4E5B9
  let u := (t ^^^ (t >>> 27)) * 0x94D049BB133111EB
  (u ^^^ (u >>> 31), z1)

/-- S0 and S1 from the seed. -/
def seedGen (seed : U64) : U64 × U64 :=
  let a := seedMix seed
  let b := seedMix a.2
  if a.1 = 0 ∧ b.1 = 0 then (0, 1) else (a.1, b.1)

/-- One step of the generator; the output is the sum of the two new words. -/
def genStep (s0 s1 : U64) : U64 × U64 :=
  let a := s0 ^^^ (s0 <<< 23)
  (s1, a ^^^ s1 ^^^ (a >>> 17) ^^^ (s1 >>> 26))

/-- The next draw; after the fourth draw of an output the generator steps. -/
def Anneal.draw (a : Anneal) : Nat × Anneal :=
  let d := bitsOf (a.s0 + a.s1) (16 * a.dsub + 15) (16 * a.dsub)
  if a.dsub < 3 then (d, { a with dsub := a.dsub + 1 })
  else let g := genStep a.s0 a.s1; (d, { a with s0 := g.1, s1 := g.2, dsub := 0 })

/-! ## Acceptance (R425) -/

/-- atanh z for z = num / den at most 1/3, scaled by 2^80: the sum of `n` terms of the odd series. -/
def atanhScaled (num den : Nat) : Nat → Nat → Nat → Nat
  | 0, _, _ => 0
  | n + 1, i, pw => pw / (2 * i + 1) + atanhScaled num den n (i + 1) (pw * num * num / (den * den))

/-- ln of a ratio m from 1 to 2, as p / q, scaled by 2^80. -/
def lnScaled (p q : Nat) : Nat := 2 * atanhScaled (p - q) (p + q) 30 0 (2 ^ 80 * (p - q) / (p + q))

/-- Lq(r) = round(256 × -ln((r + 0.5) / 65,536)) (R425). -/
def lq (r : Nat) : Nat :=
  let y := 2 * r + 1
  let e := Nat.log2 y
  let v := (17 - e) * lnScaled 2 1 - lnScaled y (2 ^ e)
  (256 * v + 2 ^ 79) / 2 ^ 80

/-- Tq (R425). -/
def Anneal.tq (a : Anneal) : Nat :=
  let x := (fmul (fadd (ofF32 a.t) (ofF32 a.offset)) (ofF32 a.k)).mul (.fin false 256 0)
  let i := x.toInt.toNat
  match x with
  | .fin _ _ _ => if 2 ^ 32 - 1 < i then 2 ^ 32 - 1 else i
  | _ => 2 ^ 32 - 1

/-- A move is accepted. -/
def accepts (de : Int) (tq r : Nat) : Bool := decide (de ≤ 0) || decide (65536 * de < ((tq * lq r : Nat) : Int))

/-! ## One step (R423, R424, R431, R432) -/

/-- The group of a variable. -/
def Anneal.groupOf (a : Anneal) (v : Nat) : Option Nat := a.groups.findIdx? fun g => g.contains v

/-- A candidate's move set and energy change on the present state (R424). -/
def Anneal.move (a : Anneal) (v : Nat) : List Nat × Int :=
  match a.groupOf v with
  | none => ([v], if nbit a.x v then -(a.field v) else a.field v)
  | some g =>
    match (a.groups.getD g []).find? fun u => nbit a.x u with
    | some k => if k = v then ([], 0) else ([v, k], a.field v - a.field k - a.cpl v k)
    | none => ([], 0)

/-- The candidates of the next step: the deferred ones, then new variables with fresh draws, `room` of them at most. -/
def Anneal.stage : Nat → Anneal → List (Nat × Nat) → List (Nat × Nat) × Anneal
  | 0, a, l => (l, a)
  | room + 1, a, l =>
    if a.next < a.n then
      let d := a.draw
      Anneal.stage room { d.2 with next := d.2.next + 1 } (l ++ [(a.next, d.1)])
    else (l, a)

/-- What the resolution of a step has gathered: the assignment, applied variables, applied groups, deferred candidates and
the energy. -/
structure Resolve where
  x : Nat
  e : Int
  touched : List Nat := []
  groups : List Nat := []
  deferred : List (Nat × Nat) := []

/-- Resolves one candidate (R431): `set` and `ok` are its move and its acceptance at the start of the step. -/
def Anneal.resolve (a : Anneal) (r : Resolve) (c : Nat × Nat) (set : List Nat) (de : Int) (ok : Bool) : Resolve :=
  let marked := set.any fun v => r.touched.any fun u => (a.nb u).any fun e => e.1 == v
  let grouped := match a.groupOf c.1 with
    | some g => r.groups.contains g
    | none => false
  if marked || grouped then { r with deferred := r.deferred ++ [c] }
  else if ok && !set.isEmpty then
    { r with x := set.foldl (fun x v => putBit x v (!nbit a.x v)) r.x, e := r.e + de, touched := r.touched ++ set,
             groups := match a.groupOf c.1 with
               | some g => g :: r.groups
               | none => r.groups }
  else r

/-- The candidates of a step with their draws, and the anneal once they are staged. -/
def Anneal.staged (a : Anneal) : List (Nat × Nat) × Anneal :=
  Anneal.stage (64 - a.deferred.length) { a with deferred := [] } a.deferred

/-- The candidates of a step resolved in order. -/
def Anneal.resolved (a : Anneal) : Resolve :=
  let tq := a.tq
  a.staged.1.foldl (fun (r : Resolve) c =>
    let m := a.move c.1
    a.resolve r c m.1 m.2 (accepts m.2 tq c.2)) { x := a.x, e := a.e }

/-- One anneal step. -/
def Anneal.step (a : Anneal) : Anneal :=
  let b := a.staged.2
  let r := a.resolved
  { b with x := r.x, e := r.e, deferred := r.deferred, defers := satAdd (2 ^ 32 - 1) b.defers r.deferred.length }

/-- The candidates of a step, and the variables whose adjacency it walks (R431). -/
def Anneal.cands (a : Anneal) : List Nat := a.staged.1.map (·.1)
def Anneal.walk (a : Anneal) : List Nat := a.resolved.touched

/-- The sweep is complete. -/
def Anneal.sweepDone (a : Anneal) : Bool := decide (a.n ≤ a.next) && a.deferred.isEmpty

/-- What a slot's registers set for the anneal. -/
structure SlotCfg where
  sweeps : Nat
  t0 : U32
  alpha : U32
  tmin : U32
  stallLim : Nat
  offStep : U32
  offCap : U32

/-- The end of a sweep (R427, R428). -/
def Anneal.sweepEnd (a : Anneal) (c : SlotCfg) : Anneal :=
  let a1 : Anneal :=
    if a.e < a.eBest then { a with best := a.x, eBest := a.e, bestSweep := a.sweep, stall := 0, offset := 0 }
    else
      let st := a.stall + 1
      if c.stallLim ≠ 0 ∧ st = c.stallLim then
        { a with stall := 0, offset := toF32 (fmin (fadd (ofF32 a.offset) (ofF32 c.offStep)) (ofF32 c.offCap)) }
      else { a with stall := st }
  { a1 with t := toF32 (fmax (fmul (ofF32 a.t) (ofF32 c.alpha)) (ofF32 c.tmin)), sweep := a.sweep + 1, next := 0 }

/-! ## The state area (Table 12-5) -/

/-- Words of an assignment. -/
def xWords (n : Nat) : Nat := cdiv n 64

/-- E_BEST_F (R430). -/
def Anneal.eBestF (a : Anneal) : U32 :=
  toF32 (fmul (fFP32.round (Num.ofInt a.eBest)) (fdiv (ofF32 a.scale) (Num.ofInt 2047)))

/-- The bytes of the state area with FLAGS; STCRC is over the area with its own field zero. -/
def Anneal.area (a : Anneal) (flags : Nat) : List Byte :=
  let a0 := leBytes 4 flags ++ leBytes 4 a.sweep ++ leBytes 8 (intCode 64 a.e) ++ leBytes 8 (intCode 64 a.eBest)
    ++ leBytes 8 a.s0.toNat ++ leBytes 8 a.s1.toNat ++ leBytes 4 a.t.toNat ++ leBytes 4 a.offset.toNat
    ++ leBytes 4 a.stall ++ leBytes 4 a.bestSweep ++ leBytes 4 a.scale.toNat ++ leBytes 4 a.qerr.toNat
    ++ leBytes 4 a.eBestF.toNat ++ leBytes 2 a.n ++ leBytes 2 a.next ++ leBytes 1 a.deferred.length ++ leBytes 1 a.dsub
    ++ [0, 0] ++ leBytes 4 a.defers ++ leBytes 4 a.incrc
  let dl := (List.range 63).flatMap fun d => match a.deferred[d]? with
    | some c => leBytes 2 c.1 ++ leBytes 2 c.2
    | none => [0, 0, 0, 0]
  let a1 := List.replicate 40 0 ++ dl ++ List.replicate 4 0 ++ leBytes (8 * xWords a.n) a.x ++ leBytes (8 * xWords a.n) a.best
  let crc := crc32c (a0 ++ [0, 0, 0, 0] ++ a1)
  a0 ++ leBytes 4 crc ++ a1

/-- The anneal that continues from a saved state area (R436). -/
def Anneal.continue_ (a : Anneal) (d : List Byte) : Anneal :=
  { a with
    sweep := leAt d 4 4, e := toSigned 64 (leAt d 8 8), eBest := toSigned 64 (leAt d 16 8),
    s0 := BitVec.ofNat 64 (leAt d 24 8), s1 := BitVec.ofNat 64 (leAt d 32 8), t := BitVec.ofNat 32 (leAt d 40 4),
    offset := BitVec.ofNat 32 (leAt d 44 4), stall := leAt d 48 4, bestSweep := leAt d 52 4, next := leAt d 70 2,
    deferred := (List.range (leAt d 72 1)).map fun i => (leAt d (128 + 4 * i) 2 % 2 ^ 14, leAt d (130 + 4 * i) 2),
    dsub := leAt d 73 1, defers := leAt d 76 4, x := leAt d 384 (8 * xWords a.n),
    best := leAt d (384 + 8 * xWords a.n) (8 * xWords a.n) }

/-- A saved state area is whole and marked saved (R436 step 1). -/
def areaSaved (d : List Byte) : Bool :=
  nbit (leAt d 0 4) 1 && leAt d 84 4 == crc32c (patch d 84 [0, 0, 0, 0])

end Sys2Proof.Machine
end

