-- ==== Sys2Proof/WellFormed.lean ====
section
/-! DEFINITION. The terms that the device's surroundings can present: sizes and lengths that fit the formats the manual gives
(02_address_space.md R45, 14_zenier_mesh.md, 18_host_field_interfaces.md). `exec` answers every term; a claim may ask for a
well-formed one. -/

namespace Sys2Proof

/-- A memory request carries 1 to 256 bytes (R45). -/
def MemOp.wellFormed : MemOp → Bool
  | .read n => decide (1 ≤ n) && decide (n ≤ 256)
  | .write d => decide (1 ≤ d.length) && decide (d.length ≤ 256)
  | .fetchAdd _ => true
  | .cas _ _ => true

/-- The operation is a 64-bit atomic (R46). -/
def MemOp.isAtomic : MemOp → Bool
  | .read _ => false
  | .write _ => false
  | .fetchAdd _ => true
  | .cas _ _ => true

/-- A start-check item, instance and response code of 08_start_check.md. -/
def ScFail.wellFormed (f : ScFail) : Bool :=
  decide (f.item < 64) && decide (f.inst < 256) && decide (f.sub < 256) && decide (f.resp < 16)

/-- A packet's payload: at most 256 bytes, or a BSEG segment of at most 16 KiB (R516). -/
def Packet.wellFormed (p : Packet) : Bool := decide (p.data.length ≤ 16384)

/-- A CAN frame holds at most 8 bytes, a CAN FD frame at most 64; CAN FD has no remote frames (R642). -/
def CanFrame.wellFormed (f : CanFrame) : Bool :=
  decide (f.data.length ≤ if f.fdf then 64 else 8) && !(f.fdf && f.rtr) && (f.fdf || !f.brs)

/-- A command that its sender can present. -/
def Instr.wellFormed : Instr → Bool
  | .registerWrite _ _ size _ _ => decide (1 ≤ size) && decide (size ≤ 256)
  | .memoryRequest _ _ _ _ op => op.wellFormed
  | .basinScrub _ => true
  | .memoryTrainingDone cap0 cap1 => decide (cap0.toNat ≤ 4) && decide (cap1.toNat ≤ 4)
  | .lockMismatch _ _ _ => true
  | .compDiverge _ _ _ => true
  | .craneCompletion _ _ _ => true
  | .craneTimeout _ _ => true
  | .add _ _ _ _ => true
  | .sub _ _ _ _ => true
  | .and _ _ _ _ => true
  | .or _ _ _ _ => true
  | .xor _ _ _ _ => true
  | .shl _ _ _ _ => true
  | .shr _ _ _ _ => true
  | .sar _ _ _ _ => true
  | .mul _ _ _ _ => true
  | .min _ _ _ _ => true
  | .max _ _ _ _ => true
  | .cmp _ _ _ => true
  | .addi _ _ _ _ => true
  | .andi _ _ _ _ => true
  | .ori _ _ _ _ => true
  | .xori _ _ _ _ => true
  | .shli _ _ _ _ => true
  | .shri _ _ _ _ => true
  | .sari _ _ _ _ => true
  | .cmpi _ _ _ => true
  | .movi _ _ _ => true
  | .movhi _ _ _ _ => true
  | .amov _ _ _ => true
  | .gmov _ _ _ => true
  | .aaddi _ _ _ _ => true
  | .ld _ _ _ _ => true
  | .ldw _ _ _ _ => true
  | .st _ _ _ _ => true
  | .stw _ _ _ _ => true
  | .fadd _ _ _ _ => true
  | .cas _ _ _ _ => true
  | .loadComplete _ => true
  | .b _ _ _ => true
  | .call _ _ => true
  | .ret _ => true
  | .loop _ _ _ _ => true
  | .loopi _ _ _ _ => true
  | .illegalInstruction _ _ => true
  | .wo _ _ _ => true
  | .woEntryFree _ => true
  | .send _ _ _ => true
  | .sendnb _ _ _ => true
  | .sendAccept _ => true
  | .mooringTimeout _ => true
  | .poll _ _ _ _ _ _ => true
  | .pollSatisfied _ => true
  | .pollTimeout _ => true
  | .relq _ _ => true
  | .waitt _ _ => true
  | .waittResume _ => true
  | .rdtide _ _ => true
  | .fence _ _ => true
  | .fenceRetire _ => true
  | .commit _ _ _ => true
  | .commitPublish _ => true
  | .squash _ _ => true
  | .stamp _ _ _ => true
  | .yield _ => true
  | .yieldResume _ => true
  | .halt _ => true
  | .seqCtlStop _ _ => true
  | .seqCtlResume _ _ => true
  | .matmul _ => true
  | .conv _ => true
  | .dwconv _ => true
  | .pool _ => true
  | .elem _ => true
  | .reduce _ => true
  | .s2d _ => true
  | .d2s _ => true
  | .fmcomp _ => true
  | .fmdecomp _ => true
  | .attnblk _ => true
  | .kvappend _ => true
  | .cvt _ => true
  | .copy _ => true
  | .workOrderComplete _ _ => true
  | .fmtCntClr _ => true
  | .fmcCntClr _ => true
  | .craneCntClr _ => true
  | .holdEccClr _ => true
  | .basinEccClr => true
  | .mcEccClr _ => true
  | .kvCntClr => true
  | .drgCntClr => true
  | .inCntClr => true
  | .quayCntClr _ => true
  | .bootLoad => true
  | .residentChartLoad => true
  | .reportTimeout => true
  | .chartBatch _ _ len _ _ => decide (len ≤ 0xF8000)
  | .batchAnswer _ _ => true
  | .batchTimeout _ => true
  | .chartStart => true
  | .berthAvailableTimeout _ => true
  | .pilotBoot => true
  | .load => true
  | .rechart _ => true
  | .store => true
  | .porNFall _ => true
  | .porNRise _ _ _ _ => true
  | .wake _ => true
  | .tideAlarm => true
  | .referenceCheck _ => true
  | .pllLock _ => true
  | .pllLockTimeout _ => true
  | .domainOn _ fails => fails.all ScFail.wellFormed
  | .domainPowerOn _ _ => true
  | .domainPowerOff _ _ => true
  | .domainReset _ _ => true
  | .drainOutboundDone _ => true
  | .drainTimeout _ => true
  | .domainResetHoldEnd _ => true
  | .warmReset _ => true
  | .serviceEnter _ => true
  | .sleepRequest _ => true
  | .sleepEntryComplete => true
  | .aoTick _ => true
  | .xtalSwitch => true
  | .tideSyncTimer => true
  | .sync _ _ _ _ _ => true
  | .tideParentTimeout => true
  | .masterElectionTimeout => true
  | .masterClaim _ => true
  | .timePps => true
  | .tideSet _ _ => true
  | .segmentRequest _ bytes _ => decide (bytes ≤ 65536)
  | .holdupRetry _ => true
  | .startCheck => true
  | .scInjectionWindow f => f.wellFormed
  | .startCheckDone => true
  | .manualInjection _ _ _ => true
  | .frameStart _ _ _ _ => true
  | .linePacket _ _ _ data _ _ => decide (data.length ≤ 65535)
  | .frameEnd _ _ _ _ => true
  | .frameTimeout _ => true
  | .ringWriteComplete _ _ => true
  | .intakeLink _ => true
  | .streamClaim _ _ => true
  | .streamRel _ _ _ => true
  | .streamCntClr _ _ => true
  | .streamEnable _ _ => true
  | .streamDisable _ _ => true
  | .cgOutcome _ _ _ => true
  | .fsyncPulse _ => true
  | .fsyncPulseEnd _ => true
  | .kvOpen _ _ _ => true
  | .kvClose _ _ _ => true
  | .kvFork _ _ _ _ _ => true
  | .kvTrunc _ _ _ _ => true
  | .kvDispatch _ _ _ _ _ => true
  | .kvStow _ _ _ => true
  | .kvQuery _ _ _ => true
  | .kvRestore _ => true
  | .kvUnstow _ => true
  | .submit _ _ _ _ => true
  | .pause _ _ _ => true
  | .resume _ _ _ => true
  | .stop _ _ _ => true
  | .collect _ _ _ => true
  | .drgStatus _ _ _ => true
  | .drgProblemStart => true
  | .drgLoadDone => true
  | .drgStep => true
  | .manifestDelivery _ _ => true
  | .creditReturn _ _ _ => true
  | .blockNack _ => true
  | .headFlitRoute _ p => p.wellFormed
  | .flitGroup _ _ _ flits => flits.all Packet.wellFormed
  | .cred _ _ _ => true
  | .credTimer _ => true
  | .ack _ _ _ => true
  | .nak _ _ _ => true
  | .ackTimer _ => true
  | .replayTimeout _ => true
  | .sleepNotice _ => true
  | .quiesce _ => true
  | .linkLoss _ _ => true
  | .linkTraining _ => true
  | .laneTestEnd _ _ => true
  | .linkActive _ _ => true
  | .trainRetry _ => true
  | .quayWake _ => true
  | .routeStall _ => true
  | .boardWindowRequest p => p.wellFormed
  | .resp p => p.wellFormed
  | .lighterEnqueue _ => true
  | .bopen _ _ _ _ => true
  | .bgrant _ _ => true
  | .bgrantBusyRepeat => true
  | .bgrantTimeout _ => true
  | .bseg _ _ _ _ _ _ data => decide (data.length ≤ 16384)
  | .bsegTimeout _ _ _ => true
  | .ltRelease _ _ => true
  | .hmMismatch _ _ => true
  | .hmDiverge _ _ => true
  | .clkMonWindow _ _ _ => true
  | .rcCheck _ _ => true
  | .stampArrival _ _ _ => true
  | .lhAgeExpiry _ => true
  | .lhPeriodExpiry _ => true
  | .lhFirstExpiry _ => true
  | .blkFaultWrite _ _ _ => true
  | .blkFmaskWrite _ _ _ => true
  | .blkIrqWrite _ _ _ => true
  | .blkAck _ _ => true
  | .graceExpiry _ => true
  | .soCmdWrite _ _ => true
  | .safeNLow _ => true
  | .soRbMism _ => true
  | .safeExit _ => true
  | .logEntryWrite _ => true
  | .mirrorNow _ => true
  | .mirrorPeriod => true
  | .mirrorThresh => true
  | .mirrorSegmentDone _ _ => true
  | .logClear _ => true
  | .spareVote => true
  | .logRdRead _ _ => true
  | .inputFilterChange _ => true
  | .chatter _ => true
  | .chatterRunEnd _ => true
  | .wakeStuck _ => true
  | .serviceStuck => true
  | .serviceStuckRelease => true
  | .presenceWindowExpiry => true
  | .sealSample _ => true
  | .estopLow _ _ => true
  | .estopRise _ => true
  | .estopDisc => true
  | .estopStable => true
  | .touchScan raw => decide (raw.length = 8)
  | .touchStuck _ => true
  | .pcieMemWrite _ _ data => decide (1 ≤ data.length) && decide (data.length ≤ 256)
  | .pcieMemRead _ _ len => decide (1 ≤ len) && decide (len ≤ 4096)
  | .pcieAtomicOp _ _ op => op.wellFormed && op.isAtomic
  | .perstNLow => true
  | .flr => true
  | .hotReset => true
  | .regRd _ _ => true
  | .regWr _ _ data => decide (data.length ≤ 256)
  | .buoyRd _ _ _ _ => true
  | .buoyRdPoll => true
  | .memRd _ _ => true
  | .memWr _ _ data => decide (data.length ≤ 256)
  | .spiStatus => true
  | .spiCsNRise => true
  | .i3cPrivateWrite frame => decide (frame.length ≤ 268)
  | .i3cPrivateRead => true
  | .entdaa _ => true
  | .setdasa _ _ => true
  | .setnewda _ => true
  | .rstdaa => true
  | .enec => true
  | .disec => true
  | .getpid => true
  | .getbcr => true
  | .getdcr => true
  | .getstatus => true
  | .getmwl => true
  | .getmrl => true
  | .canReceive _ f _ _ => f.wellFormed
  | .canTransmit _ _ => true
  | .canBusoffRecovery _ => true
  | .ethReceive _ frame _ _ => decide (14 ≤ frame.length)
  | .ethKick _ _ => true
  | .ethTransmitDone _ => true
  | .ethMdio _ _ _ _ => true
  | .xspiRead _ _ => true
  | .xspiProgram _ _ => true
  | .xspiErase4k _ => true
  | .xspiErase64k _ => true
  | .xspiOpDone _ => true
  | .spicStart _ => true
  | .spicDone _ rx => decide (rx.length ≤ 4096)
  | .uartReceive _ _ _ => true
  | .uartTransmit _ _ => true
  | .bypass => true
  | .idcode => true
  | .samplePreload _ => true
  | .extest _ => true
  | .clamp => true
  | .debug _ op => op.wellFormed
  | .svcLeaveWrite _ => true
  | .pcieConfigRequest _ => true
  | .pcieLinkDown => true
  | .pcieLinkUp gen _ => decide (1 ≤ gen.toNat) && decide (gen.toNat ≤ 5)
  | .ethLinkDown _ => true
  | .safeNHigh => true
  | .safeFbChange _ _ => true
  | .aoIoRailsInRange => true
  | .safepolPinChange _ => true
  | .xtalStartTimeout => true
  | .linkDetect _ _ => true
  | .domainSwitchGroup => true
  | .spiBadFrame err => decide (1 ≤ err) && decide (err ≤ 5)
  | .i3cOtherCcc _ => true
  | .canEnWrite _ _ _ => true

end Sys2Proof
end

