-- ==== Sys2Proof/Decode.lean ====
section
/-! DEFINITION. Encodings. The command table gives no row any bits, so `decodeTableWord` spells no command. The one
encoding the manual has is that of the Berth sequencer's 32-bit instructions (04_sequencer_work_orders.md R123 to R126,
Tables 4-1 and 4-2): which words are legal, the command a legal word stands for, and the word of a command. -/

namespace Sys2Proof

/-- The command that a word spells by the table's bits: no row of the table has bits. -/
def decodeTableWord (_nbits _w : Nat) : Option Instr := none

/-! ## Legal words -/

/-- Bits [hi:lo] of an instruction word. -/
def wordBits (w : U32) (hi lo : Nat) : Nat := w.toNat / 2 ^ lo % 2 ^ (hi + 1 - lo)

/-- The fields (hi, lo) of a word that shall be zero, by opcode (R124, Tables 4-1 and 4-2); `none` for an unlisted opcode
(R126). -/
def zeroFields (op : Nat) : Option (List (Nat × Nat)) :=
  if 0x01 ≤ op ∧ op ≤ 0x0B then some [(13, 0)]
  else match op with
    | 0x0C => some [(25, 22), (13, 0)]
    | 0x10 => some [] | 0x11 => some [] | 0x12 => some [] | 0x13 => some []
    | 0x14 => some [(17, 6)] | 0x15 => some [(17, 6)] | 0x16 => some [(17, 6)]
    | 0x17 => some [(25, 22)]
    | 0x18 => some []
    | 0x19 => some [(19, 16)]
    | 0x1A => some [(17, 0)] | 0x1B => some [(17, 0)]
    | 0x1C => some []
    | 0x20 => some [] | 0x21 => some [] | 0x22 => some [] | 0x23 => some []
    | 0x24 => some [(13, 0)] | 0x25 => some [(13, 0)]
    | 0x28 => some []
    | 0x29 => some [(25, 22)]
    | 0x2A => some [(25, 0)]
    | 0x2C => some [(23, 22), (17, 12)]
    | 0x2D => some []
    | 0x30 => some [(17, 0)] | 0x31 => some [(17, 0)] | 0x32 => some [(17, 0)]
    | 0x33 => some []
    | 0x34 => some [(23, 0)]
    | 0x35 => some [(25, 22), (17, 0)]
    | 0x36 => some [(21, 0)]
    | 0x37 => some [(25, 1)]
    | 0x38 => some [(17, 0)]
    | 0x39 => some [(25, 22), (17, 0)]
    | 0x3A => some [(25, 22), (17, 6)]
    | 0x3E => some [(25, 0)] | 0x3F => some [(25, 0)]
    | _ => none

/-- The top bits of the fields that name an address register, which shall be zero (R125). -/
def addrFields (op : Nat) : List (Nat × Nat) :=
  match op with
  | 0x1A => [(25, 25)]
  | 0x1B => [(21, 21)]
  | 0x1C => [(25, 25), (21, 21)]
  | 0x20 => [(21, 21)] | 0x21 => [(21, 21)] | 0x22 => [(21, 21)] | 0x23 => [(21, 21)]
  | 0x24 => [(21, 21)] | 0x25 => [(21, 21)]
  | 0x30 => [(21, 21)] | 0x31 => [(21, 21)] | 0x32 => [(21, 21)] | 0x33 => [(21, 21)]
  | _ => []

/-- The opcode of a word (R123). -/
def wordOp (w : U32) : Nat := wordBits w 31 26

/-- The cause for which a word is illegal, numbered as Table 4-12 lists the conditions; 0 for a legal word. -/
def illegalCause (w : U32) : Nat :=
  match zeroFields (wordOp w) with
  | none => 3
  | some z =>
    if z.any fun f => wordBits w f.1 f.2 != 0 then 1
    else if (addrFields (wordOp w)).any fun f => wordBits w f.1 f.2 != 0 then 2
    else if wordOp w = 0x28 ∧ 11 ≤ wordBits w 25 22 then 4
    else if wordOp w = 0x33 ∧ wordBits w 13 12 = 3 then 5
    else 0

/-! ## The word of a command -/

/-- A word from its opcode and the four fields of format R: d, a, b and the low 14 bits. -/
def wordR (op d a b x : Nat) : U32 := BitVec.ofNat 32 (op * 2 ^ 26 + d * 2 ^ 22 + a * 2 ^ 18 + b * 2 ^ 14 + x)

/-- Format I: d, a, imm18. -/
def wordI (op d a : Nat) (imm : BitVec 18) : U32 := BitVec.ofNat 32 (op * 2 ^ 26 + d * 2 ^ 22 + a * 2 ^ 18 + imm.toNat)

/-- Formats W and B: four bits and 22 bits. -/
def wordW (op d : Nat) (imm : BitVec 22) : U32 := BitVec.ofNat 32 (op * 2 ^ 26 + d * 2 ^ 22 + imm.toNat)

/-- The instruction word of a command of a Berth's sequencer, without its Berth; `none` for every other command. -/
def seqWord : Instr → Option U32
  | .add _ d a b => some (wordR 0x01 d a b 0)
  | .sub _ d a b => some (wordR 0x02 d a b 0)
  | .and _ d a b => some (wordR 0x03 d a b 0)
  | .or _ d a b => some (wordR 0x04 d a b 0)
  | .xor _ d a b => some (wordR 0x05 d a b 0)
  | .shl _ d a b => some (wordR 0x06 d a b 0)
  | .shr _ d a b => some (wordR 0x07 d a b 0)
  | .sar _ d a b => some (wordR 0x08 d a b 0)
  | .mul _ d a b => some (wordR 0x09 d a b 0)
  | .min _ d a b => some (wordR 0x0A d a b 0)
  | .max _ d a b => some (wordR 0x0B d a b 0)
  | .cmp _ a b => some (wordR 0x0C 0 a b 0)
  | .addi _ d a i => some (wordI 0x10 d a i)
  | .andi _ d a i => some (wordI 0x11 d a i)
  | .ori _ d a i => some (wordI 0x12 d a i)
  | .xori _ d a i => some (wordI 0x13 d a i)
  | .shli _ d a i => some (wordI 0x14 d a i)
  | .shri _ d a i => some (wordI 0x15 d a i)
  | .sari _ d a i => some (wordI 0x16 d a i)
  | .cmpi _ a i => some (wordI 0x17 0 a i)
  | .movi _ d i => some (wordW 0x18 d i)
  | .movhi _ d hw i => some (BitVec.ofNat 32 (0x19 * 2 ^ 26 + d.val * 2 ^ 22 + hw.val * 2 ^ 20 + i.toNat))
  | .amov _ d a => some (wordR 0x1A d a 0 0)
  | .gmov _ d a => some (wordR 0x1B d a 0 0)
  | .aaddi _ d a i => some (wordI 0x1C d a i)
  | .ld _ d a i => some (wordI 0x20 d a i)
  | .ldw _ d a i => some (wordI 0x21 d a i)
  | .st _ d a i => some (wordI 0x22 d a i)
  | .stw _ d a i => some (wordI 0x23 d a i)
  | .fadd _ d a b => some (wordR 0x24 d a b 0)
  | .cas _ d a b => some (wordR 0x25 d a b 0)
  | .b _ cond off => some (wordW 0x28 cond.toNat off)
  | .call _ off => some (wordW 0x29 0 off)
  | .ret _ => some (wordR 0x2A 0 0 0 0)
  | .loop _ l c len => some (BitVec.ofNat 32 (0x2C * 2 ^ 26 + l.val * 2 ^ 24 + c.val * 2 ^ 18 + len.toNat))
  | .loopi _ l count len => some (BitVec.ofNat 32 (0x2D * 2 ^ 26 + l.val * 2 ^ 24 + count.toNat * 2 ^ 12 + len.toNat))
  | .wo _ d a => some (wordR 0x30 d a 0 0)
  | .send _ d a => some (wordR 0x31 d a 0 0)
  | .sendnb _ d a => some (wordR 0x32 d a 0 0)
  | .poll _ d a b unit count => some (wordR 0x33 d a b (unit.toNat * 2 ^ 12 + count.toNat))
  | .relq _ q => some (BitVec.ofNat 32 (0x34 * 2 ^ 26 + q.val * 2 ^ 24))
  | .waitt _ a => some (wordR 0x35 0 a 0 0)
  | .rdtide _ d => some (wordR 0x36 d 0 0 0)
  | .fence _ w => some (wordR 0x37 0 0 0 (if w then 1 else 0))
  | .commit _ d a => some (wordR 0x38 d a 0 0)
  | .squash _ a => some (wordR 0x39 0 a 0 0)
  | .stamp _ a idx => some (wordR 0x3A 0 a 0 idx)
  | .yield _ => some (wordR 0x3E 0 0 0 0)
  | .halt _ => some (wordR 0x3F 0 0 0 0)
  | _ => none

/-! ## The command of a word -/

/-- A field as a general register, an address register or another small number. -/
def wordFin (k : Nat) (w : U32) (hi lo : Nat) : Fin (k + 1) := ⟨wordBits w hi lo % (k + 1), Nat.mod_lt _ (Nat.succ_pos k)⟩

/-- The command that a word stands for in the program of Berth `n`; an illegal word is rejected (R124 to R126). -/
def seqDecode (n : Fin 32) (w : U32) : Option Instr :=
  let d := wordFin 15 w 25 22
  let a := wordFin 15 w 21 18
  let b := wordFin 15 w 17 14
  let ad := wordFin 7 w 24 22
  let aa := wordFin 7 w 20 18
  let i18 := BitVec.ofNat 18 (wordBits w 17 0)
  let i22 := BitVec.ofNat 22 (wordBits w 21 0)
  let len := BitVec.ofNat 12 (wordBits w 11 0)
  let l := wordFin 3 w 25 24
  if illegalCause w ≠ 0 then none
  else match wordOp w with
    | 0x01 => some (.add n d a b) | 0x02 => some (.sub n d a b) | 0x03 => some (.and n d a b)
    | 0x04 => some (.or n d a b) | 0x05 => some (.xor n d a b) | 0x06 => some (.shl n d a b)
    | 0x07 => some (.shr n d a b) | 0x08 => some (.sar n d a b) | 0x09 => some (.mul n d a b)
    | 0x0A => some (.min n d a b) | 0x0B => some (.max n d a b) | 0x0C => some (.cmp n a b)
    | 0x10 => some (.addi n d a i18) | 0x11 => some (.andi n d a i18) | 0x12 => some (.ori n d a i18)
    | 0x13 => some (.xori n d a i18) | 0x14 => some (.shli n d a i18) | 0x15 => some (.shri n d a i18)
    | 0x16 => some (.sari n d a i18) | 0x17 => some (.cmpi n a i18)
    | 0x18 => some (.movi n d i22)
    | 0x19 => some (.movhi n d (wordFin 3 w 21 20) (BitVec.ofNat 16 (wordBits w 15 0)))
    | 0x1A => some (.amov n ad a) | 0x1B => some (.gmov n d aa) | 0x1C => some (.aaddi n ad aa i18)
    | 0x20 => some (.ld n d aa i18) | 0x21 => some (.ldw n d aa i18)
    | 0x22 => some (.st n d aa i18) | 0x23 => some (.stw n d aa i18)
    | 0x24 => some (.fadd n d aa b) | 0x25 => some (.cas n d aa b)
    | 0x28 => some (.b n (BitVec.ofNat 4 (wordBits w 25 22)) i22)
    | 0x29 => some (.call n i22) | 0x2A => some (.ret n)
    | 0x2C => some (.loop n l a len)
    | 0x2D => some (.loopi n l (BitVec.ofNat 12 (wordBits w 23 12)) len)
    | 0x30 => some (.wo n d aa) | 0x31 => some (.send n d aa) | 0x32 => some (.sendnb n d aa)
    | 0x33 => some (.poll n d aa b (BitVec.ofNat 2 (wordBits w 13 12)) len)
    | 0x34 => some (.relq n l) | 0x35 => some (.waitt n a) | 0x36 => some (.rdtide n d)
    | 0x37 => some (.fence n (wordBits w 0 0 == 1))
    | 0x38 => some (.commit n d a) | 0x39 => some (.squash n a)
    | 0x3A => some (.stamp n a (wordFin 63 w 5 0))
    | 0x3E => some (.yield n) | 0x3F => some (.halt n)
    | _ => none

end Sys2Proof
end

