-- ==== Sys2Proof/Machine/Flit.lean ====
section
/-! DEFINITION. Flits, head flits, planes and directions, the state of a Quay, and the head flit of a board-window request
(14_zenier_mesh.md).
Log entries: 14 DESIGN CHOICE. -/

namespace Sys2Proof.Machine

/-! ## Head flits (Table 14-6) -/

/-- `n` bytes of a head flit from byte `i`. -/
def hNum (p : Packet) (i n : Nat) : Nat := p.head.toNat / 2 ^ (8 * i) % 2 ^ (8 * n)
def hKind (p : Packet) : Nat := hNum p 0 1 % 16
def hVc (p : Packet) : Nat := hNum p 0 1 / 16 % 8
def hPoison (p : Packet) : Bool := nbit (hNum p 0 1) 7
def hDestX (p : Packet) : Nat := hNum p 1 1
def hDestY (p : Packet) : Nat := hNum p 2 1
def hSrcX (p : Packet) : Nat := hNum p 3 1
def hSrcY (p : Packet) : Nat := hNum p 4 1
def hReq (p : Packet) : Nat := hNum p 5 1 % 64
def hTag (p : Packet) : Nat := hNum p 6 1
def hEpoch (p : Packet) : Nat := hNum p 7 1 % 4
def hOp (p : Packet) : Nat := hNum p 7 1 / 4 % 16
def hLen (p : Packet) : Nat := hNum p 8 1 + 1
def hUnit (p : Packet) : Nat := hNum p 9 1
def hAddr (p : Packet) : Nat := hNum p 10 5
def hXfer (p : Packet) : U32 := BitVec.ofNat 32 (hNum p 16 4)
def hManifest (p : Packet) : Manifest := BitVec.ofNat 256 (hNum p 32 32)

/-- The header's fields in the order of Table 14-6. -/
structure Head where
  kind : Nat
  vc : Nat
  poison : Bool := false
  dx : Nat
  dy : Nat
  sx : Nat
  sy : Nat
  req : Nat
  tag : Nat := 0
  epoch : Nat := 0
  op : Nat := 0
  len : Nat := 1
  unit : Nat := 0
  addr : Nat := 0
  opr : Nat := 0
  body : Nat := 0

/-- A head flit from its fields. -/
def Head.flit (h : Head) (data : List Byte) : Packet :=
  { head := BitVec.ofNat 512 (h.kind + h.vc * 2 ^ 4 + b2n h.poison * 2 ^ 7 + h.dx * 2 ^ 8 + h.dy * 2 ^ 16 + h.sx * 2 ^ 24 + h.sy * 2 ^ 32
      + h.req * 2 ^ 40 + h.tag * 2 ^ 48 + h.epoch * 2 ^ 56 + h.op * 2 ^ 58 + (h.len - 1) * 2 ^ 64 + h.unit * 2 ^ 72
      + h.addr * 2 ^ 80 + h.opr * 2 ^ 128 + h.body * 2 ^ 256),
    data := data }

/-- Flits of a packet, or of the part of it that is meant. -/
def flitsOf (p : Packet) : Nat := (if p.cont then 0 else 1) + cdiv p.data.length 64

/-- The first `k` flits of a packet, and the data flits that are left. -/
def cutPacket (p : Packet) (k : Nat) : Packet × Option Packet :=
  if flitsOf p ≤ k then (p, none)
  else
    let n := 64 * (if p.cont then k else k - 1)
    ({ p with data := p.data.take n, more := true }, some { p with cont := true, data := p.data.drop n })

/-- A field that Table 14-6 marks zero is not zero, or KIND or the VC is none of Tables 14-3 and 14-7. -/
def badHead (p : Packet) : Bool :=
  hKind p == 0 || decide (9 < hKind p) || decide (5 < hVc p)
    || (([3, 4, 6, 8, 9].contains (hKind p) || ([2, 5].contains (hKind p) && decide (32 < hLen p))) && decide (hNum p 32 32 ≠ 0))
    || decide (64 ≤ hNum p 5 1) || decide (64 ≤ hNum p 7 1) || decide (hNum p 15 1 ≠ 0)
    || (!([1, 6].contains (hKind p)) && decide (hUnit p ≠ 0))

/-! ## Planes and directions (R503 to R506) -/

/-- Global coordinates lie in this chip's board domain. -/
def State.inDomain (s : State) (x y : Nat) : Bool :=
  let ox := s.fld 9 F.MESH_ORIGIN_OX 0
  let oy := s.fld 9 F.MESH_ORIGIN_OY 0
  decide (ox ≤ x) && decide (x < ox + s.side) && decide (oy ≤ y) && decide (y < oy + s.side)

/-- The plane of a destination at this chip: true for YX. -/
def State.plane (s : State) (x y : Nat) : Bool :=
  if s.inDomain x y then
    nbit (s.reg 9 .ROUTE_DOM 0).toNat ((y - s.fld 9 F.MESH_ORIGIN_OY 0) * 8 + (x - s.fld 9 F.MESH_ORIGIN_OX 0))
  else
    match (List.range 16).find? fun e => s.fld 9 F.ROUTE_REG_EN e == 1
        && decide (s.fld 9 F.ROUTE_REG_X_LO e ≤ x) && decide (x ≤ s.fld 9 F.ROUTE_REG_X_HI e)
        && decide (s.fld 9 F.ROUTE_REG_Y_LO e ≤ y) && decide (y ≤ s.fld 9 F.ROUTE_REG_Y_HI e) with
    | some e => s.fld 9 F.ROUTE_REG_PLANE e == 1
    | none => false

/-- The virtual channel of a packet kind with a class on a plane (Table 14-3). -/
def vcOf (kind cls : Nat) (yx : Bool) : Nat :=
  if kind = 5 ∨ kind = 8 then 4
  else if kind = 1 ∧ cls = 2 then 5
  else if (kind = 1 ∧ cls = 0) ∨ kind = 6 then b2n yx
  else 2 + b2n yx

/-- The Quay towards a destination: 0 N, 1 E, 2 S, 3 W; `none` for this chip (R506). -/
def State.direction (s : State) (x y : Nat) (yx : Bool) : Option Nat :=
  let ew := if s.gx < x then some 1 else if x < s.gx then some 3 else none
  let ns := if s.gy < y then some 2 else if y < s.gy then some 0 else none
  if yx then ns.or ew else ew.or ns

/-- The plane that a packet travels on here: that of its VC; RSP and D packets follow this chip's tables. -/
def State.planeOf (s : State) (p : Packet) : Bool :=
  if hVc p < 4 then hVc p % 2 == 1 else s.plane (hDestX p) (hDestY p)

/-! ## Quays -/

def qslot (q : Nat) : Nat := 4 + q
def State.quay (s : State) (q : Nat) : Quay := Tab.get {} s.mesh.quays q
def State.setQuay (s : State) (q : Nat) (x : Quay) : State :=
  { s with mesh := { s.mesh with quays := Tab.set {} s.mesh.quays q x } }
def State.qstate (s : State) (q : Nat) : Nat := s.fld (qslot q) F.QUAY_STAT_STATE 0
def State.setQstate (s : State) (q st : Nat) : State := s.setFld (qslot q) F.QUAY_STAT_STATE 0 st

/-- The Quay sends a block. -/
def State.linkSend (s : State) (q : Nat) (o : LinkOut) : State :=
  s.setQuay q { s.quay q with sent := (s.quay q).sent ++ [o] }

/-- A sleeping neighbour is woken by the first head flit that is routed to it (R502). -/
def State.askWake (s : State) (q : Nat) : State :=
  let x := s.quay q
  if s.qstate q = 8 ∧ x.woken = false then s.setQuay q { x with wakeReq := true, woken := true } else s

/-! ## Sending -/

/-- A packet of this chip waits to enter the mesh. -/
def State.meshOut (s : State) (p : Packet) : State := { s with mesh := { s.mesh with out := s.mesh.out ++ [(p, s.clk.now)] } }

/-- The head of a packet that this chip sends to another. -/
def State.headTo (s : State) (kind cls x y req : Nat) : Head :=
  { kind := kind, vc := vcOf kind cls (s.plane x y), dx := x, dy := y, sx := s.gx, sy := s.gy, req := req }

/-- The unit code of a requester (Tables 13-2 and 14-6). -/
def reqCode : Requester → Nat
  | .berth n => n
  | .wharfinger => 32
  | .dredger => 33
  | .pilot => 34
  | .lighter => 35
  | .intake => 36
  | .host _ => 37
  | _ => 38

/-- The request head flit for an offset of another chip of the board domain (R510). -/
def State.windowHead (s : State) (req tag epoch chip off : Nat) (op : MemOp) : Packet :=
  let x := s.fld 9 F.MESH_ORIGIN_OX 0 + chip % 8
  let y := s.fld 9 F.MESH_ORIGIN_OY 0 + chip / 8
  let mk (kind op len opr body : Nat) (d : List Byte) : Packet :=
    { s.headTo kind 1 x y req with tag := tag, epoch := epoch, op := op, len := len, addr := off, opr := opr, body := body }.flit d
  match op with
  | .read k => mk 3 0 k 0 0 []
  | .write d => if d.length ≤ 32 then mk 2 1 d.length 0 (leNat d) [] else mk 2 1 d.length 0 0 d
  | .fetchAdd v => mk 4 2 8 v.toNat 0 []
  | .cas c w => mk 4 3 8 (c.toNat + w.toNat * 2 ^ 64) 0 []

/-- The Quay on which a packet leaves is not ACTIVE, or its domain is draining or off: the router answers DOWN (R507, R522, R524). -/
def State.wayDown (s : State) (q : Nat) : Bool := s.qstate q != 7 || !s.serves (domainOf (qslot q))

/-- The status with which this chip answers a request of its own to another chip, if it does (R55, R507). -/
def State.routerSays (s : State) (p : Packet) : Option Status :=
  if 128 ≤ hDestY p then some .poison
  else match s.direction (hDestX p) (hDestY p) (s.planeOf p) with
    | some q => if s.wayDown q then some .down else none
    | none => none

end Sys2Proof.Machine
end

