-- ==== Sys2Proof/Machine/Mem.lean ====
section
/-! DEFINITION. The address space of 02_address_space.md: decoding, permissions, SECDED and the requests that reach the
Holds, the Basin, LPDDR5X, the page tables, the coupling store and the Boot ROM.
Log entries: 7 DESIGN CHOICE, 12 DEDUCED, 13 DEDUCED, 14 DESIGN CHOICE, 18 DESIGN CHOICE, 19 UNVERIFIED, 21 DEDUCED,
41 DEDUCED, 85 DEDUCED, 97 DEDUCED, 117 DESIGN CHOICE, 118 DEDUCED, 134 DEDUCED. -/

namespace Sys2Proof.Machine

/-! ## Bytes of the local map -/

/-- The byte at a local map offset; a byte that nothing has written reads as zero. -/
def State.byte (s : State) (a : Nat) : Byte := Tab.get 0 s.mem a

/-- Writes one byte. -/
def State.putByte (s : State) (a : Nat) (b : Byte) : State := { s with mem := Tab.set 0 s.mem a b }

/-- `n` bytes from a local map offset. -/
def State.bytes (s : State) : Nat → Nat → List Byte
  | _, 0 => []
  | a, n + 1 => s.byte a :: State.bytes s (a + 1) n

/-- Writes bytes from a local map offset. -/
def State.putBytes : State → Nat → List Byte → State
  | s, _, [] => s
  | s, a, b :: t => State.putBytes (s.putByte a b) (a + 1) t

/-- The little-endian number of `n` bytes. -/
def State.num (s : State) (a n : Nat) : Nat := leNat (s.bytes a n)

/-- Writes a number as `n` little-endian bytes. -/
def State.putNum (s : State) (a n x : Nat) : State := s.putBytes a (leBytes n x)

/-- Gives the bytes of a range their unwritten value. -/
def State.wipe (s : State) (lo hi : Nat) : State :=
  { s with mem := Tab.drop s.mem fun a => decide (lo ≤ a) && decide (a < hi),
           ecc := Tab.drop s.ecc fun k => decide (lo ≤ k / 2) && decide (k / 2 < hi) }

/-- The words of a range take fresh check bits. -/
def State.freshEcc (s : State) (lo hi : Nat) : State :=
  { s with ecc := Tab.drop s.ecc fun k => decide (lo ≤ k / 2) && decide (k / 2 < hi) }

/-! ## The local map (Table 2-2) -/

def holdBase (n : Nat) : Nat := 0x8000000000 + n * 0x100000
def basinBase : Nat := 0x8100000000
def pageTables : Nat := 0x8200000000
def couplingStore : Nat := 0x8300000000
def regBase : Nat := 0xF000000000
def romBase : Nat := 0xFF00000000

/-- What a 48-bit physical address names (Tables 2-1 and 2-2). -/
inductive Place where
  | hold (n off : Nat)
  | basin (off : Nat)
  | lpddr (off : Nat)
  | tables (off : Nat)
  | store (off : Nat)
  | regs (slot off : Nat)
  | rom (off : Nat)
  | remote (chip off : Nat)
  | hole
  deriving DecidableEq, Repr

/-- The usable top of LPDDR5X in bytes (R68, Table 2-10). -/
def State.usableTop (s : State) : Nat := s.fld 0x0A F.MC_CFG_USABLE_TOP 0 * 256

/-- Decodes an offset of the own local map (R42). -/
def State.local (s : State) (o : Nat) : Place :=
  if o < s.usableTop then .lpddr o
  else if 0x8000000000 ≤ o ∧ o < 0x8002000000 then .hold ((o - 0x8000000000) / 0x100000) (o % 0x100000)
  else if basinBase ≤ o ∧ o < basinBase + 0x1000000 then .basin (o - basinBase)
  else if pageTables ≤ o ∧ o < pageTables + 0x200000 then .tables (o - pageTables)
  else if couplingStore ≤ o ∧ o < couplingStore + 0x400000 then .store (o - couplingStore)
  else if regBase ≤ o ∧ o < regBase + 0x400000 then .regs ((o - regBase) / 0x10000) (o % 0x10000)
  else if romBase ≤ o ∧ o < romBase + 0x40000 then .rom (o - romBase)
  else .hole

/-- The place that an offset of a board-window address names on the indexed chip: only the Basin and LPDDR5X (R51). -/
def State.windowPlace (s : State) (o : Nat) : Place :=
  match s.local o with
  | .basin o => .basin o
  | .lpddr o => .lpddr o
  | _ => .hole

/-- Decodes an address (R40 to R42, R51 to R53). -/
def State.place (s : State) (a : Addr) : Place :=
  let hi := a.toNat / 2 ^ 40
  let o := a.toNat % 2 ^ 40
  if hi < 128 then (if hi = 0 then s.local o else .hole)
  else if 64 ≤ hi % 128 then .hole
  else
    let c := hi % 64
    if s.side ≤ c % 8 ∨ s.side ≤ c / 8 then .hole
    else if c = s.chip then s.windowPlace o
    else if o < 0x0800000000 ∨ (basinBase ≤ o ∧ o < basinBase + 0x1000000) then .remote c o
    else .hole

/-- The address of an own-chip window taken back to the local map (R53, R157). -/
def State.localAddr (s : State) (a : Addr) : Addr :=
  if a.toNat / 2 ^ 40 = 128 + s.chip then BitVec.ofNat 48 (a.toNat % 2 ^ 40) else a

/-- The place that an address names for Berth `n`: its own Hold also through the window of its own chip (R132), otherwise as for
every requester. -/
def State.berthPlace (s : State) (n : Nat) (a : Addr) : Place :=
  match s.place (s.localAddr a) with
  | .hold m off => if m = n then .hold m off else s.place a
  | _ => s.place a

/-- The place that an address names for a requester. -/
def State.placeBy (s : State) (who : Requester) (a : Addr) : Place :=
  match who with
  | .berth n => s.berthPlace n a
  | _ => s.place a

/-! ## Recording a refused request -/

/-- The slot in which a requester's holes are recorded and the group (R47, R669). A request of another chip is recorded at neither
end (log entry 117, DESIGN CHOICE). -/
def holeGroup : Requester → Option (Nat × Nat)
  | .berth n => some (bslot n, 0)
  | .pilot => some (1, 3)
  | .wharfinger => some (0x0E, 0)
  | .dredger => some (0x0F, 0)
  | .lighter => some (8, 5)
  | .intake => some (0x0D, 4)
  | .field => some (0x11, 0)
  | .host _ => some (0x10, 0)
  | .remote _ _ _ => none

/-- Records ADDR_HOLE for a requester. -/
def State.recordHole (s : State) (who : Requester) : State :=
  match holeGroup who with
  | some (sl, g) => s.record sl g
  | none => s

/-- Records ADDR_GUARD in the target's group (R669). -/
def State.recordGuard (s : State) : Place → State
  | .hold n _ => s.record (bslot n) 1
  | .basin _ => s.record 0x0C 1
  | .tables _ => s.record 0x0E 9
  | .store _ => s.record 0x0F 6
  | .rom _ => s.record 1 0
  | _ => s

/-! ## Permissions -/

/-- The Berth belongs to a critical partition. -/
def State.critical (s : State) (n : Nat) : Bool :=
  s.fld (bslot n) F.BERTH_CFG_MEMBER 0 == 1 && s.fld (bslot n) F.BERTH_CFG_CRIT 0 == 1

/-- The requester may write guarded memory (R48). -/
def State.mayWriteGuarded (s : State) : Requester → Bool
  | .berth n => s.critical n
  | .pilot => true
  | .wharfinger => s.serving 0x0E
  | .dredger => s.serving 0x0F
  | .remote x y u => u == 34 || (decide (u.toNat < 34) && Config.remoteCritical x y u)
  | _ => false

/-- The byte range `[lo, hi)` of a Hold that is its shadow region (Table 3-6). -/
def State.shadowRange (s : State) (n : Nat) : Nat × Nat :=
  let b := s.fld (bslot n) F.BERTH_CFG_SHADOW_BASE 0 * 0x10000
  (b, b + s.fld (bslot n) F.BERTH_CFG_SHADOW_SIZE 0 * 0x10000)

/-- The byte range of a Hold that is its program region (Table 4-16). -/
def State.progRange (s : State) (n : Nat) : Nat × Nat :=
  let b := s.fld (bslot n) F.SEQ_CFG_PROG_BASE 0 * 0x1000
  (b, b + s.fld (bslot n) F.SEQ_CFG_PROG_SIZE 0 * 0x1000)

/-- The ranges `[a, a + n)` and `r` overlap. -/
def hits (a n : Nat) (r : Nat × Nat) : Bool := decide (a < r.2) && decide (r.1 < a + n) && decide (r.1 < r.2)

/-- A write is refused by a guard, a shadow region, the program region or the owner rule (R48 to R50, R120). -/
def State.refusesWrite (s : State) (who : Requester) (p : Place) (n : Nat) : Bool :=
  match p with
  | .hold b off =>
    (hits off n (s.shadowRange b) && !(match who with | .berth m => m.val == b | _ => false))
      || (hits off n (s.progRange b) && who != .pilot)
      || (s.critical b && !s.mayWriteGuarded who)
  | .basin off =>
    (List.range 16).any (fun k => nbit (s.fld 0x0C F.BASIN_RET_GUARD 0) k && hits off n (k * 0x100000, (k + 1) * 0x100000))
      && !s.mayWriteGuarded who
  | .tables _ => who != .wharfinger && who != .pilot
  | .store _ => who != .dredger && who != .pilot
  | .rom _ => true
  | _ => false

/-- A read is refused by a shadow region (R49). -/
def State.refusesRead (s : State) (who : Requester) (p : Place) (n : Nat) : Bool :=
  match p with
  | .hold b off => hits off n (s.shadowRange b) && !(match who with | .berth m => m.val == b | _ => false)
  | _ => false

/-! ## SECDED (R64, R70, R112, R113, R724) -/

/-- The key of a stored word's errors: twice its local map offset, plus 1 for the Aft copy of a Hold. -/
def eccKey (word aft : Nat) : Nat := 2 * word + aft

/-- Errors of a stored word: 0 none, 1 correctable, 2 uncorrectable. -/
def State.eccOf (s : State) (word aft : Nat) : Fin 3 := Tab.get 0 s.ecc (eccKey word aft)
def State.setEcc (s : State) (word aft : Nat) (v : Fin 3) : State := { s with ecc := Tab.set 0 s.ecc (eccKey word aft) v }

/-- The 8-byte words that a byte range touches. -/
def wordsOf (a n : Nat) : List Nat := if n = 0 then [] else (List.range ((a + n - 1) / 8 - a / 8 + 1)).map fun i => (a / 8 + i) * 8

/-- The controller of an LPDDR5X offset: bit 8 selects it when both channels are fitted (R69). -/
def State.mcOf (s : State) (o : Nat) : Nat := if s.fld 0x0B F.MC_CFG_CAP 0 = 0 then 0 else o / 256 % 2

/-- Records a fault of the Wharfinger; KV_ERR takes the first (Table 11-12). -/
def State.kvFault (s : State) (g q page unit : Nat) : State :=
  let s1 := if s.fld 0x0E F.KV_ERR_VALID 0 = 1 then s
    else s.setReg 0x0E .KV_ERR 0 (BitVec.ofNat 64 (2 ^ 63 + g * 2 ^ 56 + q % 4096 * 2 ^ 32 + page % 65536 * 2 ^ 16 + unit % 65536))
  s1.record 0x0E g

/-- A fault at a word of the page tables: a descriptor names its page, an entry its sequence (Table 11-2). -/
def State.tableFault (s : State) (g word : Nat) : State :=
  let o := word - pageTables
  if o < 0x80000 then s.kvFault g 0 (o / 8) 0
  else if o < 0xC0000 then s.kvFault g ((o - 0x80000) / 64) 0 0
  else s.kvFault g 0 0 0

/-- Records a fault of the Dredger; DRG_ERR takes the first (Table 12-11). -/
def State.drgFault (s : State) (g k reason addr : Nat) : State :=
  let s1 := if s.fld 0x0F F.DRG_ERR_VALID 0 = 1 then s
    else s.setReg 0x0F .DRG_ERR 0 (BitVec.ofNat 64 (2 ^ 63 + k % 8 * 2 ^ 60 + g * 2 ^ 56 + reason * 2 ^ 48 + addr % 2 ^ 48))
  s1.record 0x0F g

/-- A correctable error of a word is corrected, counted and recorded. The stored word is corrected too, as R64 and R112 state for
the Basin and a Hold; for LPDDR5X that is the model's reading of R70 (log entry 118, DEDUCED). -/
def State.correct (s : State) (p : Place) (word aft : Nat) : State :=
  let s1 := s.setEcc word aft 0
  match p with
  | .hold n _ => (s1.count (bslot n) F.HOLD_ECC_CE_CNT 0 1).record (bslot n) 2
  | .basin _ => (s1.count 0x0C F.BASIN_ECC_CE_CNT 0 1).record 0x0C 2
  | .lpddr _ => (s1.count (0x0A + s.mcOf word) F.MC_ECC_CE_CNT 0 1).record (0x0A + s.mcOf word) 2
  | .tables _ => s1.tableFault 6 word
  | .store _ => s1.drgFault 2 (s1.drg.run.getD 0) 0 word
  | _ => s1

/-- Latches the first uncorrectable word's offset (Tables 2-9, 2-12 and 3-12). -/
def State.latchUe (s : State) (p : Place) (word aft : Nat) : State :=
  match p with
  | .hold n _ =>
    if s.fld (bslot n) F.HOLD_ERR_VALID 0 = 1 then s
    else s.setReg (bslot n) .HOLD_ERR 0 (BitVec.ofNat 64 (2 ^ 63 + aft * 2 ^ 62 + word % 0x100000))
  | .basin _ =>
    if s.fld 0x0C F.BASIN_ERR_VALID 0 = 1 then s
    else (s.setFld 0x0C F.BASIN_ERR_VALID 0 1).setFld 0x0C F.BASIN_ERR_OFFSET 0 (word - basinBase)
  | .lpddr _ =>
    let sl := 0x0A + s.mcOf word
    if s.fld sl F.MC_ERR_VALID 0 = 1 then s else s.setReg sl .MC_ERR 0 (BitVec.ofNat 64 (2 ^ 63 + word))
  | _ => s

/-- An uncorrectable word of a copy is counted, latched and recorded. The coupling store records one that both copies hold
(Table 12-6). -/
def State.uncorrectable (s : State) (p : Place) (word aft : Nat) : State :=
  let s1 := s.latchUe p word aft
  match p with
  | .hold n _ => (s1.count (bslot n) F.HOLD_ECC_UE_CNT 0 1).record (bslot n) 3
  | .basin _ => (s1.count 0x0C F.BASIN_ECC_UE_CNT 0 1).record 0x0C 3
  | .lpddr _ => (s1.count (0x0A + s.mcOf word) F.MC_ECC_UE_CNT 0 1).record (0x0A + s.mcOf word) 3
  | .tables _ => s1.tableFault 7 word
  | _ => s1

/-- The copies of a place: one a half for a Hold, the page tables and the coupling store (R373, R439), one otherwise. -/
def copiesOf : Place → List Nat
  | .hold _ _ => [0, 1]
  | .tables _ => [0, 1]
  | .store _ => [0, 1]
  | _ => [0]

/-- Reads check every copy of the words of a range: correctable errors are corrected, uncorrectable ones recorded. -/
def State.checkWords (s : State) (p : Place) (ws : List Nat) : State :=
  ws.foldl (fun t w => (copiesOf p).foldl (fun u c =>
    if u.eccOf w c = 1 then u.correct p w c else if u.eccOf w c = 2 then u.uncorrectable p w c else u) t) s

/-- What the first uncorrectable word of a read makes of it: POISON where no copy is whole, DOWN where the copies differ, which
becomes a mismatch (R87, R113, R410, R440, R724). -/
def State.copiesSay (s : State) (p : Place) (ws : List Nat) : Status :=
  match ws.find? fun w => (copiesOf p).any fun c => s.eccOf w c == 2 with
  | none => .ok
  | some w => if (copiesOf p).all fun c => s.eccOf w c == 2 then .poison else .down

/-! ## A difference inside a pair (R84, R89, R90, R97) -/

/-- The slot and domain of a compared pair. -/
def pairSlot : PairUnit → Nat
  | .berth n => bslot n
  | .wharfinger => 0x0E
  | .dredger => 0x0F

/-- BERTH_MISM and BERTH_MISM_T take the first event since they were cleared (R90). The Wharfinger and the Dredger
have no such registers. -/
def State.captureMism (s : State) (u : PairUnit) (buses comp diverge : Nat) : State :=
  match u with
  | .berth n =>
    if s.fld (bslot n) F.BERTH_MISM_VALID 0 = 1 then s
    else
      (s.setReg (bslot n) .BERTH_MISM 0
        (BitVec.ofNat 64 (2 ^ 63 + comp * 2 ^ 61 + diverge * 2 ^ 60 + buses))).setReg (bslot n) .BERTH_MISM_T 0 s.tide
  | _ => s

/-- HOLDS of a sequence entry (Table 11-3). -/
def holdsAt (q : Nat) : Nat := pageTables + 0x80000 + q * 64 + 8

/-- Work orders that complete or stop end their read holds (R391). -/
def State.endHolds (s : State) (ws : List Wo) : State :=
  ws.foldl (fun t w => match w.hold with
    | some q => t.putByte (holdsAt q) (if t.byte (holdsAt q) = 0 then 0 else t.byte (holdsAt q) - 1)
    | none => t) s

/-- The pair enters FAULTED: the sequencer halts and no work order makes further progress (R97). A Berth withdraws every
request that has not left it (R98); a stow of the Wharfinger goes no further (R406). -/
def State.enterFaulted (s : State) (u : PairUnit) : State :=
  let d := domainOf (pairSlot u)
  let s1 := s.setDom d { s.dom d with faulted := true }
  match u with
  | .berth n =>
    let b := s1.berth n
    (s1.endHolds b.woq).setBerth n { b with tags := b.tags.filter fun t => t.2.sent, held := [], egS := [], egA := [], egD := []
                                            woq := b.woq.map fun w => { w with hold := none } }
  | .wharfinger =>
    { s1 with wharf := { s1.wharf with stow := none },
              hm := { s1.hm with deferred := s1.hm.deferred.filter fun g => g.user != .wharfinger } }
  | .dredger => s1

/-- Records a fault of a compared pair in its slot. -/
def State.pairFault (s : State) (u : PairUnit) (g : Nat) : State :=
  match u with
  | .berth n => s.record (bslot n) g
  | .wharfinger => s.kvFault g 0 0 0
  | .dredger => s.drgFault g (s.drg.run.getD 0) 0 0

/-- A mismatch (R87, R89, R97). -/
def State.mismatch (s : State) (u : PairUnit) (buses comp : Nat) : State :=
  ((s.captureMism u buses comp 0).enterFaulted u).pairFault u 4

/-! ## Requests -/

/-- Status, data and the state after a request. -/
structure Ans where
  st : Status
  data : List Byte
  s : State

/-- The local map offset of a place in memory. -/
def offsetOf : Place → Nat
  | .hold n off => holdBase n + off
  | .basin off => basinBase + off
  | .lpddr off => off
  | .tables off => pageTables + off
  | .store off => couplingStore + off
  | .rom off => romBase + off
  | .regs sl off => regBase + sl * 0x10000 + off
  | .remote _ off => off
  | .hole => 0

/-- The domain that serves a place. -/
def State.domainAt (s : State) : Place → Nat
  | .hold n _ => n
  | .basin _ => 43
  | .lpddr o => 39 + s.mcOf o
  | .tables _ => 32
  | .store _ => 33
  | _ => 0xFF

/-- A request completes POISON with zero data, at no target. -/
def poison (n : Nat) (s : State) : Ans := ⟨.poison, List.replicate n 0, s⟩

/-- The pair whose halves hold the copies of a place. -/
def pairOf : Place → Option PairUnit
  | .hold n _ => if h : n < 32 then some (.berth ⟨n, h⟩) else none
  | .tables _ => some .wharfinger
  | .store _ => some .dredger
  | _ => none

/-- The two halves act differently on a word that is uncorrectable in one copy only: a mismatch follows (R113, R410,
R440, R724). The manual does not say which buses differ; the free value fills BUSES. -/
def State.halvesDiffer (s : State) (p : Place) : State :=
  match pairOf p with
  | some u => let f := s.freeVal; f.2.mismatch u (f.1.toNat % 64) 3
  | none => s

/-- A read of words of a place: correctable errors are corrected, uncorrectable ones recorded, and differing copies make the halves
differ. -/
def State.readWords (s : State) (p : Place) (ws : List Nat) : Status × State :=
  let t := s.checkWords p ws
  match s.copiesSay p ws, p with
  | .down, p => (.down, t.halvesDiffer p)
  | .poison, .store o => (.poison, t.drgFault 3 (t.drg.run.getD 0) 0 (couplingStore + o))
  | st, _ => (st, t)

/-- The shadow line of a Hold offset is FREE: it lies in the shadow region and no tag is listed for it (R329). -/
def State.freeLine (s : State) (n off : Nat) : Bool :=
  decide ((s.shadowRange n).1 ≤ off) && decide (off < (s.shadowRange n).2)
    && (Tab.find (s.berth n).lines (off / 256)).isNone

/-- The bytes a read returns: FREE shadow lines read as zero (R333). -/
def State.seen (s : State) (p : Place) (n : Nat) : List Byte :=
  match p with
  | .hold b off => (List.range n).map fun i => if s.freeLine b (off + i) then 0 else s.byte (holdBase b + off + i)
  | p => s.bytes (offsetOf p) n

/-- The domain of Berth `n` is on and the Berth neither in self-test, FAULTED nor excluded; it may be draining. -/
def State.runs (s : State) (n : Nat) : Bool :=
  (s.dom n).power == .on && !(s.dom n).selfTest && !(s.dom n).faulted && !(s.dom n).excluded

/-- Sleep entry has drained every domain but the memory controllers and the Basin, which then enters retention (R76, R261). -/
def State.retaining (s : State) : Bool :=
  s.dev == .entering && s.hm.sleepQ == []
    && (List.range 43).all fun d => !(s.dom d).draining && (d == 39 || d == 40 || (s.dom d).power == .off)

/-- The block of a place serves a requester (R80, R99): a draining Berth still serves its own work orders (R169), and the Basin that
enters retention takes no further request (R76). -/
def State.servesAt (s : State) (who : Requester) (p : Place) : Bool :=
  (s.serves (s.domainAt p) && !(s.domainAt p == 43 && s.retaining)) || (match who, p with
    | .berth m, .hold n _ => m.val == n && s.runs n
    | _, _ => false)

/-- An event of R145 at a Berth. -/
def State.pokeBerth (s : State) (n : Nat) : State := s.setBerth n { s.berth n with poke := true }

/-- A write into a Hold by another requester ends a YIELD of its Berth (R145). -/
def State.pokeAt (s : State) (who : Requester) (p : Place) : State :=
  match p with
  | .hold n _ => if (match who with | .berth m => m.val == n | _ => false) then s else s.pokeBerth n
  | _ => s

/-- A read of `n` bytes at a place in memory (R47 to R50, R64, R70, R80, R99, R724). -/
def State.readAt (s : State) (who : Requester) (p : Place) (n : Nat) : Ans :=
  match p with
  | .hole => poison n (s.recordHole who)
  | .rom off => ⟨.ok, (List.range n).map fun i => Config.bootRom (off + i), s⟩
  | .regs _ _ => poison n s
  | .remote _ _ => poison n s
  | p =>
    if !s.servesAt who p then ⟨.down, List.replicate n 0, s⟩
    else if s.refusesRead who p n then poison n (s.recordGuard p)
    else
      let r := s.readWords p (wordsOf (offsetOf p) n)
      if r.1 = .ok then ⟨.ok, s.seen p n, r.2⟩ else ⟨r.1, List.replicate n 0, r.2⟩

/-- Words of a range that the range covers only in part. -/
def partialWords (a n : Nat) : List Nat := (wordsOf a n).filter fun w => decide (w < a) || decide (a + n < w + 8)

/-- A write of bytes at a place in memory. A write that covers part of an uncorrectable word is not performed; one that
covers the whole word replaces it (R724). -/
def State.writeAt (s : State) (who : Requester) (p : Place) (d : List Byte) : Ans :=
  match p with
  | .hole => ⟨.poison, [], s.recordHole who⟩
  | .regs _ _ => ⟨.poison, [], s⟩
  | .remote _ _ => ⟨.poison, [], s⟩
  | p =>
    if !s.servesAt who p then ⟨.down, [], s⟩
    else if s.refusesWrite who p d.length then ⟨.poison, [], s.recordGuard p⟩
    else
      let a := offsetOf p
      let part := partialWords a d.length
      let r := s.readWords p part
      if r.1 ≠ .ok then ⟨r.1, [], r.2⟩
      else
        let s2 := ((wordsOf a d.length).filter fun w => !part.contains w).foldl
          (fun t w => (copiesOf p).foldl (fun u c => u.setEcc w c 0) t) r.2
        ⟨.ok, [], (s2.putBytes a d).pokeAt who p⟩

/-- A 64-bit atomic at a place: only the Basin and LPDDR5X, aligned (R46). The data is the value before the update
(R60). -/
def State.atomicAt (s : State) (who : Requester) (p : Place) (f : Nat → Nat) : Ans :=
  let go (q : Place) : Ans :=
    if offsetOf q % 8 ≠ 0 then poison 8 (s.recordHole who)
    else if !s.serves (s.domainAt q) then ⟨.down, List.replicate 8 0, s⟩
    else if s.refusesWrite who q 8 then poison 8 (s.recordGuard q)
    else
      let r := s.readWords q [offsetOf q]
      if r.1 ≠ .ok then poison 8 r.2
      else ⟨.ok, s.bytes (offsetOf q) 8, r.2.putNum (offsetOf q) 8 (f (s.num (offsetOf q) 8))⟩
  match p with
  | .basin o => go (.basin o)
  | .lpddr o => go (.lpddr o)
  | _ => poison 8 (s.recordHole who)

/-- The length of an operation's request. -/
def opLen : MemOp → Nat
  | .read n => n
  | .write d => d.length
  | .fetchAdd _ => 8
  | .cas _ _ => 8

/-- The update of an atomic. -/
def atomFn : MemOp → Nat → Nat
  | .fetchAdd v, x => (x + v.toNat) % 2 ^ 64
  | .cas c w, x => if x = c.toNat then w.toNat else x
  | _, x => x

/-- An operation at a place in memory. -/
def State.perform (s : State) (who : Requester) (p : Place) : MemOp → Ans
  | .read n => s.readAt who p n
  | .write d => s.writeAt who p d
  | .fetchAdd v => s.atomicAt who p (atomFn (.fetchAdd v))
  | .cas c w => s.atomicAt who p (atomFn (.cas c w))

/-! ## Spans: runs of requests that each keep to one block of 256 bytes -/

/-- A status by its code (Table 4-4). -/
def statusOf (c : Nat) : Status :=
  match c with
  | 0 => .ok | 1 => .busy | 2 => .stalled | 3 => .down | 4 => .linkLost | 5 => .poolFull | 6 => .qfull | 7 => .poison
  | _ => .chartFit

/-- The status that comes back from another chip. -/
def remoteSays (k : Nat) : Status :=
  match Config.remoteStatus k with
  | 0 => .ok
  | 1 => .poison
  | 2 => .down
  | 3 => .linkLost

/-- A request of a block other than a Crane to another chip. This chip's router answers one that it cannot send on; any other leaves as
a head flit (R54), and what comes back is open. -/
def State.remoteAsk (s : State) (who : Requester) (chip off : Nat) (op : MemOp) : Ans :=
  let p := s.windowHead (reqCode who) (s.fresh % 256) 0 chip off op
  let n := match op with
    | .write _ => 0
    | op => opLen op
  match s.routerSays p with
  | some .poison => poison n ((s.count 9 F.ROUTE_STAT_REFUSED 0 1).record 9 0)
  | some st =>
    let t := match s.direction (hDestX p) (hDestY p) (s.planeOf p) with
      | some q => s.askWake q
      | none => s
    ⟨st, List.replicate n 0, t.count 9 F.ROUTE_STAT_DOWN 0 1⟩
  | none =>
    let t := { s.meshOut p with fresh := s.fresh + 1 }
    let st := remoteSays s.fresh
    ⟨st, if st = .ok then (List.range n).map fun i => Config.remoteByte s.fresh i else List.replicate n 0, t⟩

/-- A read at a place here or on another chip. -/
def State.readAny (s : State) (who : Requester) (p : Place) (n : Nat) : Ans :=
  match p with
  | .remote c off => s.remoteAsk who c off (.read n)
  | p => s.readAt who p n

/-- A write at a place here or on another chip. -/
def State.writeAny (s : State) (who : Requester) (p : Place) (d : List Byte) : Ans :=
  match p with
  | .remote c off => s.remoteAsk who c off (.write d)
  | p => s.writeAt who p d

/-- Reads `n` bytes from an address, block by block, at most `fuel` blocks: the first status other than OK, and the data. -/
def State.readSpan (who : Requester) : Nat → State → Nat → Nat → Ans
  | 0, s, _, _ => ⟨.ok, [], s⟩
  | fuel + 1, s, a, n =>
    if n = 0 then ⟨.ok, [], s⟩
    else
      let k := min n (256 - a % 256)
      let r := s.readAny who (s.placeBy who (BitVec.ofNat 48 a)) k
      let t := State.readSpan who fuel r.s (a + k) (n - k)
      ⟨if r.st = .ok then t.st else r.st, r.data ++ t.data, t.s⟩

/-- Writes bytes from an address, block by block. -/
def State.writeSpan (who : Requester) : Nat → State → Nat → List Byte → Ans
  | 0, s, _, _ => ⟨.ok, [], s⟩
  | fuel + 1, s, a, d =>
    if d = [] then ⟨.ok, [], s⟩
    else
      let k := min d.length (256 - a % 256)
      let r := s.writeAny who (s.placeBy who (BitVec.ofNat 48 a)) (d.take k)
      let t := State.writeSpan who fuel r.s (a + k) (d.drop k)
      ⟨if r.st = .ok then t.st else r.st, [], t.s⟩

/-- Blocks that a span of `n` bytes touches at most. -/
def spanFuel (n : Nat) : Nat := n / 256 + 2

/-- The request keeps R45: 1 to 256 bytes inside one 256-byte block. -/
def wellSized (a n : Nat) : Bool := decide (1 ≤ n) && decide (a % 256 + n ≤ 256)

end Sys2Proof.Machine
end

