-- ==== Sys2Proof/Machine/Flash.lean ====
section
/-! DEFINITION. The xSPI flash as bytes, and the two copies of an object in it (07_sleep_wake_clocks_straps.md R280, R281).
Log entries: 7 DESIGN CHOICE, 57 DEDUCED. -/

namespace Sys2Proof.Machine

/-- The key of a flash byte. -/
def flashKey (cs off : Nat) : Nat := cs * 2 ^ 32 + off

/-- A flash byte; an erased byte reads 0xFF. -/
def State.flashByte (s : State) (cs off : Nat) : Byte := Tab.get 0xFF s.flash (flashKey cs off)

/-- Bytes of the flash. -/
def State.flashBytes (s : State) (cs off n : Nat) : List Byte := (List.range n).map fun i => s.flashByte cs (off + i)

/-- Gives flash bytes a value, from an offset. -/
def State.flashPut : State → Nat → Nat → List Byte → State
  | s, _, _, [] => s
  | s, cs, off, b :: t => State.flashPut { s with flash := Tab.set 0xFF s.flash (flashKey cs off) b } cs (off + 1) t

/-- Programs bytes: a program operation only clears bits of the byte it meets. -/
def State.flashProgram (s : State) (cs off : Nat) (d : List Byte) : State :=
  s.flashPut cs off ((d.zip (s.flashBytes cs off d.length)).map fun p => p.1 &&& p.2)

/-- Erases `n` bytes. -/
def State.flashErase (s : State) (cs off n : Nat) : State :=
  { s with flash := Tab.drop s.flash fun k => decide (flashKey cs off ≤ k) && decide (k < flashKey cs (off + n)) }

/-- A program or erase operation that did not run to its end leaves any contents in its range (R284). -/
def State.flashCut (s : State) (cs off n : Nat) : State :=
  { s with fresh := s.fresh + 1 }.flashPut cs off ((List.range n).map fun i => Config.cutByte s.fresh i)

/-- A range lies inside the device on a chip select (R652). -/
def flashHas (cs off n : Nat) : Bool := decide (off + n ≤ Config.flashSize (if cs = 0 then 0 else 1))

/-- A 64-byte header: SEQ, LEN, CRC-32C over bytes 0 to 7 and zeros (R221, R280). -/
def nvHeader (seq len : Nat) : List Byte :=
  let h := leBytes 4 seq ++ leBytes 4 len
  h ++ leBytes 4 (crc32c h) ++ List.replicate 52 0

/-- SEQ of the header at an offset when the header is valid: its CRC is right and LEN lies within the limit (R280). -/
def State.nvSeq (s : State) (cs off limit : Nat) : Option Nat :=
  let h := s.flashBytes cs off 8
  if leNat (s.flashBytes cs (off + 8) 4) = crc32c h ∧ leNat (h.drop 4) ≤ limit then some (leNat (h.take 4)) else none

/-- SEQ `a` is not older than SEQ `b`, as a signed 32-bit difference. -/
def seqGe (a b : Nat) : Bool := decide ((a + 2 ^ 32 - b) % 2 ^ 32 < 2 ^ 31)

/-- The copy a reader takes: valid header, valid content, greater SEQ, copy A on a tie (R280). `some false` is A. -/
def nvChoose (a b : Option Nat) : Option Bool :=
  match a, b with
  | none, none => none
  | some _, none => some false
  | none, some _ => some true
  | some x, some y => some (!seqGe x y)

/-- The copy a writer writes and its SEQ (R281). `false` is A. -/
def nvTarget (a b : Option Nat) : Bool × Nat :=
  match nvChoose a b with
  | none => (false, 1)
  | some false => (true, ((a.getD 0) + 1) % 2 ^ 32)
  | some true => (false, ((b.getD 0) + 1) % 2 ^ 32)

end Sys2Proof.Machine
end

