-- ==== Sys2Proof/Machine/Logbook.lean ====
section
/-! DEFINITION. The Logbook (16_fault_reaction_logbook.md): entries, the ring, the spare log, reading, clearing and the
mirror in flash.
Log entries: 111 DEDUCED. -/

namespace Sys2Proof.Machine

/-! ## Entries -/

/-- The 32 bytes of an entry (Table 16-4), byte 0 in bits [7:0]. Flags: 1 SPARE, 2 PINNED, 4 LOST, 8 GAP. -/
def entryImage (s : State) (e : Entry) (seq : U32) (flags : Nat) : BitVec 256 :=
  let b := leBytes 8 e.tide.toNat ++ leBytes 8 e.detail.toNat ++ leBytes 4 seq.toNat ++ leBytes 2 s.log.boot.toNat
    ++ leBytes 1 e.slot ++ leBytes 1 e.group ++ leBytes 2 e.code ++ leBytes 1 flags ++ leBytes 1 s.chip ++ [0, 0]
  BitVec.ofNat 256 (leNat (b ++ leBytes 2 (crc16 b)))

/-- An entry with LOST = 1 and every other field zero (R592). -/
def lostImage : BitVec 256 := BitVec.ofNat 256 (4 * 2 ^ 208)

/-- Writes the three copies of a spare entry. -/
def State.spareWrite (s : State) (k : Nat) (v : BitVec 256) : State :=
  { s with log := { s.log with spareA := Tab.set 0 s.log.spareA k v, spareB := Tab.set 0 s.log.spareB k v,
                               spareC := Tab.set 0 s.log.spareC k v } }

/-- Gives an entry the next SEQ and GAP, and writes it to the next unpinned spare entry (R590, R591). -/
def State.toSpare (s : State) (e : Entry) : State :=
  let v := entryImage s e s.log.seq (1 + 8 * b2n s.log.gap)
  let s1 := s.spareWrite s.log.spareNext v
  { s1 with log := { s1.log with seq := s.log.seq + 1, gap := false, since := s.log.since + 1,
                                 spareNext := if s.log.spareNext = 15 then 1 else s.log.spareNext + 1 } }

/-- Gives an entry the next SEQ and GAP, and writes it to the ring (R583, R584). -/
def State.toRing (s : State) (e : Entry) : State :=
  let v := entryImage s e s.log.seq (8 * b2n s.log.gap)
  let i := s.log.seq.toNat % 2048
  { s with log := { s.log with ring := Tab.set 0 s.log.ring i v, seq := s.log.seq + 1, gap := false,
                               since := s.log.since + 1,
                               ecc := Tab.drop s.log.ecc fun o => o / 32 == i } }

/-- Moves logging to the spare log for an uncorrectable word at an offset (R590, R594). -/
def State.sramFail (s : State) (off : Nat) : State :=
  let e : Entry := ⟨s.tide, 3, 0xFF, 0x0040, BitVec.ofNat 64 off⟩
  let v := entryImage s e s.log.seq (3 + 8 * b2n s.log.gap)
  let s1 := s.spareWrite 0 v
  let s2 := { s1 with log := { s1.log with seq := s.log.seq + 1, gap := false, since := s.log.since + 1, degraded := true, spareNext := 1 } }
  s2.record 3 1

/-- The log takes one entry from the ingress queue in an RC cycle (R583). An uncorrectable SRAM error found in that
cycle places the entry in the spare log after entry 0 (R595); its offset is a free multiple of 8. -/
def State.logWrite (s : State) (uncorrectable : Bool) : State :=
  match s.log.ingress with
  | [] => s
  | e :: rest =>
    let s0 := { s with log := { s.log with ingress := rest } }
    if s.log.degraded then s0.toSpare e
    else if uncorrectable then
      let f := s0.freeVal
      (f.2.sramFail (f.1.toNat % 8192 * 8)).toSpare e
    else s0.toRing e

/-! ## Reading and voting -/

/-- Votes one spare entry (R592). -/
def State.voteOne (s : State) (k : Nat) : State :=
  let a := Tab.get 0 s.log.spareA k
  let b := Tab.get 0 s.log.spareB k
  let c := Tab.get 0 s.log.spareC k
  if a = b ∨ a = c then s.spareWrite k a
  else if b = c then s.spareWrite k b
  else
    let s1 := s.spareWrite k lostImage
    { s1 with log := { s1.log with lost := BitVec.ofNat 16 (satAdd 0xFFFF s.log.lost.toNat 1) } }.record 3 2

/-- Votes every spare entry. -/
def State.voteAll (s : State) : State := (List.range 16).foldl State.voteOne s

/-- Word `w` of an entry image. -/
def entryWord (v : BitVec 256) (w : Nat) : U64 := BitVec.ofNat 64 (v.toNat / 2 ^ (64 * w))

/-- The value that a read of LOG_RDw returns and the state after it: a spare entry is voted at each read (R592); a ring
word is corrected, or moves logging to the spare log (R584, R590). -/
def State.logRead (s : State) (w : Nat) : U64 × State :=
  let idx := s.fld 3 F.LOG_RD_IDX_INDEX 0
  if s.fld 3 F.LOG_RD_IDX_SPARE 0 = 1 then
    let s1 := s.voteAll
    (entryWord (Tab.get 0 s1.log.spareA (idx % 16)) w, s1)
  else if s.log.degraded then (0, s)
  else
    let off := idx * 32 + 8 * w
    let m := Tab.get 0 s.log.ecc off
    if m = 2 then (0, s.sramFail off)
    else
      let v := entryWord (Tab.get 0 s.log.ring idx) w
      if m = 1 then (v, { s with log := { s.log with ecc := Tab.del s.log.ecc off } }.record 3 0) else (v, s)

/-- Clears the ring and appends LOG_CLEARED (R586). -/
def State.logClear (s : State) : State :=
  let s1 := { s with log := { s.log with ring := [], ecc := [] } }
  s1.logEntry 3 0xFF 0x0041 (s.log.seq - 1).toNat

/-! ## The mirror (R587 to R589, Table 16-7) -/

/-- The ring image of a mirror copy. -/
def ringBytes (t : Tab (BitVec 256)) : List Byte := (List.range 2048).flatMap fun i => leBytes 32 (Tab.get 0 t i).toNat

/-- Bytes 4 to 1,023 of the state block; the spare entries are written voted. -/
def State.stateBlock (s : State) : List Byte :=
  let v := s.voteAll
  leBytes 4 s.log.seq.toNat ++ leBytes 2 s.log.boot.toNat ++ leBytes 2 s.log.lost.toNat
    ++ leBytes 1 (b2n s.log.degraded + 2 * b2n (!s.log.degraded)) ++ [0, 0, 0]
    ++ (List.range 16).flatMap (fun k => leBytes 32 (Tab.get 0 v.log.spareA k).toNat) ++ List.replicate 496 0

/-- SEQ of a mirror copy that is valid in header and content (R280). -/
def State.mirrorSeq (s : State) (off : Nat) : Option Nat :=
  match s.nvSeq 0 off 0x20000 with
  | none => none
  | some q =>
    let blk := s.flashBytes 0 (off + 0x1000) 1024
    let body := if nbit (leNat ((blk.drop 12).take 1)) 1 then blk.drop 4 ++ s.flashBytes 0 (off + 0x10000) 0x10000
      else blk.drop 4
    if leNat (blk.take 4) = crc32c body then some q else none

/-- Where the two mirror copies lie. -/
def State.mirrorAt (s : State) (b : Bool) : Nat := if b then s.fld 3 F.LOG_NV_NV_B 0 else s.fld 3 F.LOG_NV_NV_A 0

/-- The read of the whole ring and of the spare entries that a mirror begins with: words are corrected in ascending order up to the
first one that is uncorrectable, which moves logging to the spare log (R584, R590, R592). -/
def State.mirrorRead (s0 : State) : State :=
  (s0.log.ecc.foldl (fun (s : State) p =>
    if s.log.degraded then s
    else if p.2 = 2 then s.sramFail p.1
    else { s with log := { s.log with ecc := Tab.del s.log.ecc p.1 } }.record 3 0) s0).voteAll

/-- Starts a mirror of the Logbook, or keeps the trigger while one runs (R587). -/
def State.mirrorStart (s0 : State) : State :=
  match s0.log.mirror with
  | some _ => { s0 with log := { s0.log with trigger := true } }
  | none =>
    let s := s0.mirrorRead
    let t := nvTarget (s.mirrorSeq (s.mirrorAt false)) (s.mirrorSeq (s.mirrorAt true))
    { s with log := { s.log with
        mirror := some { copy := if t.1 then 1 else 0, seq := BitVec.ofNat 32 t.2, ringed := !s.log.degraded,
                         block := s.stateBlock, image := s.log.ring }
        trigger := false, since := 0 } }

/-- A mirror ends; a kept trigger starts the next one (R587). -/
def State.mirrorEnd (s : State) : State :=
  let s1 := { s with log := { s.log with mirror := none, lastEnd := s.clk.now } }
  if s.log.trigger then s1.mirrorStart else s1

/-- The flash offset and length of a mirror's current segment (R588). -/
def State.mirrorRange (s : State) (m : Mirror) : Nat × Nat :=
  let base := s.mirrorAt (m.copy == 1)
  if m.seg = 2 then (base + 0x10000, 0x10000) else (base, 0x10000)

/-- The flash contents after a mirror segment's erase and program operations (R588). -/
def State.mirrorWrite (s : State) (m : Mirror) : State :=
  let base := s.mirrorAt (m.copy == 1)
  if m.seg = 1 then
    let body := if m.ringed then m.block ++ ringBytes m.image else m.block
    (s.flashErase 0 base 0x10000).flashProgram 0 (base + 0x1000) (leBytes 4 (crc32c body) ++ m.block)
  else if m.seg = 2 then (s.flashErase 0 (base + 0x10000) 0x10000).flashProgram 0 (base + 0x10000) (ringBytes m.image)
  else s.flashProgram 0 base (nvHeader m.seq.toNat 0x20000)

/-- A status code (Table 4-4). -/
def statusCode : Status → Nat
  | .ok => 0 | .busy => 1 | .stalled => 2 | .down => 3 | .linkLost => 4 | .poolFull => 5 | .qfull => 6 | .poison => 7
  | .chartFit => 8

/-- A mirror whose segment was deferred by the hold-up check is abandoned; that is no NVM_FAIL (R278, R589). -/
def State.mirrorAbandon (s : State) : State := (s.setFld 3 F.LOG_MSTAT_STATUS 0 (statusCode .busy)).mirrorEnd

/-- A mirror segment has ended: the next segment follows, or NVM_FAIL is appended and recorded and the segment is
repeated up to LOG_MIR.RETRIES times (R588, R589). What a failed segment leaves in its range is open. -/
def State.mirrorSegment (s : State) (m : Mirror) (st : Status) (differs : Bool) : State :=
  let r := s.mirrorRange m
  let s1 := if st = .ok ∧ differs = false then s.mirrorWrite m else s.flashCut 0 r.1 (if m.seg = 3 then 64 else r.2)
  if st = .ok ∧ differs = false then
    if m.seg = 3 then
      (s1.setReg 3 .LOG_MSTAT 0 (BitVec.ofNat 64 (m.copy.val * 2 ^ 36 + m.seq.toNat))).mirrorEnd
    else
      let next := if m.seg = 1 ∧ m.ringed = false then 3 else m.seg + 1
      { s1 with log := { s1.log with mirror := some { m with seg := next, attempt := 0 } } }
  else
    let off := (s.mirrorRange m).1
    let s2 := (s1.logEntry 3 0xFF 0x0042 (off + m.attempt * 2 ^ 32 + statusCode st * 2 ^ 36)).record 3 3
    let s3 := s2.setFld 3 F.LOG_MSTAT_STATUS 0 (statusCode st)
    if m.attempt < s.fld 3 F.LOG_MIR_RETRIES 0 then
      { s3 with log := { s3.log with mirror := some { m with attempt := m.attempt + 1 } } }
    else s3.mirrorEnd

end Sys2Proof.Machine
end

