-- ==== Sys2Proof/Machine/SafeStage.lean ====
section
/-! DEFINITION. The common block header's write effects, grace, the safe output stage, leaving Safe, and the commands of
16_fault_reaction_logbook.md and 19_register_map.md.
Log entries: 2 DESIGN CHOICE, 67 DEDUCED, 127 DEDUCED. -/

namespace Sys2Proof.Machine

/-! ## The host as a requester -/

/-- The requester is the host interface. -/
def isHost : Requester → Bool
  | .host _ => true
  | _ => false

/-! ## Clearing fault bits -/

/-- Capture registers that a W1C of fault bits clears (the "Registers" section of each chapter). -/
def State.clearCaptures (s : State) (slot mask : Nat) : State :=
  if 0x20 ≤ slot then
    let s1 := if nbit mask 4 || nbit mask 5 then (s.clearReg slot .BERTH_MISM 0).clearReg slot .BERTH_MISM_T 0 else s
    let s2 := if nbit mask 3 then s1.clearReg slot .HOLD_ERR 0 else s1
    let s3 := if s2.fld slot F.SEQ_FLT_VALID 0 = 1 ∧ nbit mask (8 + s2.fld slot F.SEQ_FLT_GROUP 0) then s2.clearReg slot .SEQ_FLT 0
      else s2
    let s4 := if nbit mask 11 || nbit mask 14 then s3.clearReg slot .WO_ERR 0 else s3
    if s4.fld slot F.MSG_ERR_VALID 0 = 1 ∧ nbit mask (16 + s4.fld slot F.MSG_ERR_GROUP 0) then s4.clearReg slot .MSG_ERR 0 else s4
  else match slot with
    | 0x00 =>
      let s1 := if nbit mask 0 || nbit mask 1 then s.clearReg 0 .HM_MISM 0 else s
      let s2 := if nbit mask 7 then s1.clearReg 0 .HM_CLKMON 0 else s1
      if nbit mask 8 then s2.clearReg 0 .HM_REGPAR 0 else s2
    | 0x0A => if nbit mask 3 then s.clearReg 0x0A .MC_ERR 0 else s
    | 0x0B => if nbit mask 3 then s.clearReg 0x0B .MC_ERR 0 else s
    | 0x0C =>
      let s1 := if nbit mask 3 then (s.setFld 0x0C F.BASIN_ERR_VALID 0 0).setFld 0x0C F.BASIN_ERR_OFFSET 0 0 else s
      if nbit mask 4 then
        let s2 := s1.setFld 0x0C F.BASIN_ERR_RET_BANKS 0 0
        let s3 := if s2.hm.retLatched then (s2.setFld 0x0C F.BASIN_ERR_VALID 0 0).setFld 0x0C F.BASIN_ERR_OFFSET 0 0 else s2
        { s3 with hm := { s3.hm with retLatched := false } }
      else s1
    | 0x0E => if s.fld 0x0E F.KV_ERR_VALID 0 = 1 ∧ nbit mask (s.fld 0x0E F.KV_ERR_GROUP 0) then s.clearReg 0x0E .KV_ERR 0 else s
    | 0x0F => if s.fld 0x0F F.DRG_ERR_VALID 0 = 1 ∧ nbit mask (s.fld 0x0F F.DRG_ERR_GROUP 0) then s.clearReg 0x0F .DRG_ERR 0 else s
    | 0x10 => if nbit mask 0 then s.clearReg 0x10 .HOST_ERR 0 else s
    | _ => s

/-- Fault bits that their source sets again in every cycle, so that a W1C leaves them set (R13, R576, R610). -/
def State.standing (s : State) (slot : Nat) : Nat :=
  if slot = 0x00 ∧ s.estopLine then 2 ^ 10
  else if slot = 0x13 ∧ s.safeNLine then 2 ^ 1
  else 0

/-- A W1C of fault bits: the bits clear with their reactions and captures (R561, R564, R674). -/
def State.faultW1C (s : State) (slot v : Nat) : State :=
  let m := maskOf (setBits 32 (v % 2 ^ 32)) fun g => nbit (s.faults slot) g && !nbit (s.standing slot) g
  (s.clearFaults slot m).clearCaptures slot m

/-! ## The readback and SAFE_N -/

/-- The safe level: high when SAFEPOL is 1 (R244); GPIO[10] itself while POR_N is low (R694). -/
def State.safeLevel (s : State) : Bool := if s.pins.porLow then s.pins.safepol else nbit s.strap 10

/-- The level the stage commands on SAFE_OUT `k`. -/
def State.outLevel (s : State) (k : Nat) : Bool := if s.outActive k then !s.safeLevel else s.safeLevel

/-- What the chip drives on SAFE_OUT `k`: nothing, high impedance, until VDD_AO and VDDIO_33 are in range (R244, R695). -/
def State.outPin (s : State) (k : Nat) : Option Bool := if s.pins.rails then some (s.outLevel k) else none

/-- SAFE_FB `k` differs from the commanded level. -/
def State.fbDiffers (s : State) (k : Nat) : Bool := nbit s.pins.safeFb.toNat k != s.outLevel k

/-- The chip drives SAFE_N low (R575). -/
def State.drivesSafeN (s : State) : Bool :=
  s.fld 0x13 F.SO_CFG_DRIVE_N 0 == 1 &&
    (s.estopLine || (allSlots.any fun sl => if sl = 0x13 then nbit (s.faults 0x13) 0 else s.safeLine sl))

/-- The chip pulls the SAFE_N ball low; until both rails are in range it is released (R695). -/
def State.pullsSafeN (s : State) : Bool := s.pins.rails && s.drivesSafeN

/-- SO_STAT as it reads (Table 16-10). -/
def State.soStat (s : State) : U64 :=
  let out := maskOf (List.range 4) s.outActive
  let fb := maskOf (List.range 4) fun k => nbit s.pins.safeFb.toNat k == s.safeLevel
  let mism := maskOf (List.range 4) fun k => nbit (s.fld 0x13 F.SO_CFG_FB_EN 0) k && s.fbDiffers k
  BitVec.ofNat 64 (out + fb * 16 + mism * 256 + b2n s.anyLine * 2 ^ 12 + b2n s.pins.safeNLow * 2 ^ 13
    + b2n s.drivesSafeN * 2 ^ 14 + s.fld 0x13 F.SO_STAT_LATCHED 0 * 2 ^ 15)

/-- SO_REQ as it reads (Table 16-10). -/
def State.soReq (s : State) : U64 :=
  let slots := maskOf allSlots s.safeLine
  BitVec.ofNat 64 (slots % 2 ^ 20 + slots / 2 ^ 32 * 2 ^ 32 + b2n s.safeNLine * 2 ^ 20 + b2n s.estopLine * 2 ^ 21)

/-! ## Run and the Lighthouses' first-stamp watch (R542) -/

/-- LH_CFGi is valid (R538). -/
def State.lhValid (s : State) (i : Nat) : Bool :=
  let p := s.fld 0x12 F.LH_LIM_PERIOD i
  let m := s.fld 0x12 F.LH_LIM_MAXAGE i
  if s.fld 0x12 F.LH_CFG_CRIT i = 1 then p != 0 && m != 0 else p != 0 || m != 0

/-- Lighthouse `i` watches (R538). -/
def State.lhEnabled (s : State) (i : Nat) : Bool := s.fld 0x12 F.LH_CFG_EN i == 1 && s.lhValid i

/-- Starts the first-stamp watch of the enabled Lighthouses that satisfy a test (R542). -/
def State.lhWatch (s : State) (p : Nat → Bool) : State :=
  (List.range 64).foldl (fun t i =>
    if t.lhEnabled i && p i then t.setLh i { armed := false, watch := some t.tide, ageFired := none, periodFired := false }
    else t) s

/-- Enters Run: every enabled Lighthouse that is not armed starts its first-stamp watch (R542). -/
def State.enterRun (s : State) (cause : Nat) : State := ((s.setDev .run cause).lhWatch fun i => !(s.lh i).armed).settle 6

/-! ## Leaving Safe (R581, R582) -/

/-- The reason for which a safe exit is refused, 0 for none (Table 16-3). -/
def State.exitRefusal (s : State) : Nat :=
  if s.dev ≠ .safe then 6
  else if s.anyLine then 1
  else if s.person.aLow || s.person.bLow then 2
  else if s.hm.estopAtSafe && s.fld 0 F.ESTOP_STAT_STABLE 0 = 0 then 3
  else if s.hm.central ≠ [] then 4
  else if s.hm.broken then 5
  else 0

/-- A safe exit by the host. -/
def State.safeExit (s : State) : State :=
  let r := s.exitRefusal
  if r = 0 then
    let s1 := s.logEntry 0 0xFF 0x0003 (s.reg 0 .HM_SAFE_T 0).toNat
    let s2 := (s1.setFld 0 F.HM_SAFE_STAT_REFUSED 0 0).setFld 0 F.HM_SAFE_STAT_IN_SAFE 0 0
    let s3 := { s2 with hm := { s2.hm with estopAtSafe := false } }
    if s.chartOn then s3.enterRun 10 else (s3.setDev .idle 10).settle 6
  else
    let s1 := s.setFld 0 F.HM_SAFE_STAT_REFUSED 0 r
    s1.logEntry 0 0xFF 0x0004 (r + if r = 1 then s.lineCode * 256 else 0)

/-! ## Commands -/

/-- BLK_FAULT: each bit written as 1 clears (Table 19-4, R564, R674). -/
def execBlkFaultWrite (_who : Requester) (slot : BitVec 6) (v : U64) (s : State) : Out :=
  let sl := slot.toNat
  when (s.awake && allSlots.contains sl) s (s.faultW1C sl v.toNat)

/-- BLK_FMASK: the bits of groups that have a source take the value, from the next cycle (R665, R675). -/
def State.fmaskWrite (s : State) (slot v : Nat) : State :=
  (s.setFld slot F.BLK_FMASK_BITS 0 (v &&& sourceMask slot)).notify s [slot]

def execBlkFmaskWrite (_who : Requester) (slot : BitVec 6) (v : U64) (s : State) : Out :=
  let sl := slot.toNat
  when (s.awake && allSlots.contains sl) s (s.fmaskWrite sl v.toNat)

/-- BLK_IRQ: vector and pins take the value (R673, R675); a pin that becomes asserted may raise an in-band interrupt. -/
def State.irqWrite (s : State) (slot : Nat) (v : U64) : State :=
  ((s.setFld slot F.BLK_IRQ_PINS 0 (F.BLK_IRQ_PINS.get v)).setFld slot F.BLK_IRQ_VECTOR 0 (F.BLK_IRQ_VECTOR.get v)).notify s []

def execBlkIrqWrite (_who : Requester) (slot : BitVec 6) (v : U64) (s : State) : Out :=
  let sl := slot.toNat
  when (s.awake && allSlots.contains sl) s (s.irqWrite sl v)

/-- A grace timer expires: GRACE_EXP is set, GRACE_EXPIRED appended and the safe-request line asserted (R569). -/
def State.graceExpire (s : State) (slot : Nat) : State :=
  let h := s.hdr slot
  let bits := maskOf (setBits 32 (s.faults slot)) fun g => s.took slot g == 2
  let s1 := s.setHdr slot { h with graceEnd := none, graceExp := true }
  let us := if h.graceEnd.isSome then h.graceFor else s.graceUs slot
  (s1.append slot 0xFF 0x0002 (bits + us * 2 ^ 32)).settle 6

/-! ## Injections that take 1 µs (R305, Table 8-10) -/

/-- An injected expiry of a slot is due: BLK_INJ names the kind and the target, and its 1 µs is over. -/
def State.injDue (s : State) (slot kind target : Nat) : Bool :=
  (s.hdr slot).injAt.any (fun t => decide (t ≤ s.clk.now)) && s.fld slot F.BLK_INJ_KIND 0 == kind
    && s.fld slot F.BLK_INJ_TARGET 0 == target

/-- The injection in progress has been answered: BUSY and KIND read 0 and RESULT 1. -/
def State.injEnd (s : State) (slot : Nat) : State :=
  (s.setReg slot .BLK_INJ 0 (BitVec.ofNat 64 (s.fld slot F.BLK_INJ_TARGET 0 * 256 + 2 ^ 56))).setHdr slot
    { s.hdr slot with injAt := none }

/-- A running grace timer has reached the end of BLK_GRACE. -/
def State.graceDue (s : State) (slot : Nat) : Bool := (s.hdr slot).graceEnd.any fun t => decide (t ≤ s.clk.now)

/-- BLK_ACK: with no grace-class bit set, a running timer stops and GRACE_EXP clears (R568, R570). A timer that has reached its end
is not stopped: its reaction follows (R33). -/
def State.ack (s : State) (slot : Nat) : State :=
  if s.graceDue slot then s.graceExpire slot
  else if s.hasReaction slot 2 then s
  else s.setHdr slot { s.hdr slot with graceEnd := none, graceExp := false }

def execBlkAck (_who : Requester) (slot : BitVec 6) (s : State) : Out :=
  let sl := slot.toNat
  when (s.awake && allSlots.contains sl) s (s.ack sl)

/-- The injected grace time of a slot has ended (kind 11). -/
def State.graceInjDue (s : State) (slot : Nat) : Bool := s.injDue slot 11 (s.fld slot F.BLK_INJ_TARGET 0)

/-- A grace timer expires, genuine or injected. -/
def State.graceExpiry (s : State) (slot : Nat) : State :=
  let t := if s.graceInjDue slot then s.injEnd slot else s
  if s.graceDue slot || !(s.hdr slot).graceExp then t.graceExpire slot else t

def execGraceExpiry (slot : BitVec 6) (s : State) : Out :=
  let sl := slot.toNat
  when ((s.graceDue sl || s.graceInjDue sl) && allSlots.contains sl) s (s.graceExpiry sl)

/-- SO_CMD is written by a Berth of the owner partition, and by the host when HOST_OK (R574). -/
def State.soCmdOk (s : State) (who : Requester) : Bool :=
  match who with
  | .berth n => s.fld (bslot n) F.BERTH_CFG_MEMBER 0 == 1 && s.fld (bslot n) F.BERTH_CFG_PART 0 == s.fld 0x13 F.SO_CFG_OWNER 0
  | .host _ => s.fld 0x13 F.SO_CFG_HOST_OK 0 == 1
  | _ => false

/-- A write of SO_CMD. Outside Run, or with an input line asserted, it is ignored and ACT reads 0 (R574, R595). -/
def State.soCmd (s : State) (who : Requester) (v : U64) : State :=
  if !s.soCmdOk who then s
  else (s.setFld 0x13 F.SO_CMD_ACT 0 (if s.dev == .run && !s.anyLine then F.SO_CMD_ACT.get v else 0)).markOut s

def execSoCmdWrite (who : Requester) (v : U64) (s : State) : Out := .next (s.soCmd who v)

/-- A low on SAFE_N: 50 ns or more is recognised; whether a shorter low is recognised is open (R576). -/
def State.safeNFall (s : State) : State :=
  let s1 := { s with pins := { s.pins with safeNLow := true } }
  if s1.safeNLine && s.dev != .off then s1.record 0x13 1 else s1

def execSafeNLow (lowNs : Nat) (s : State) : Out :=
  if 50 ≤ lowNs then .next s.safeNFall
  else
    let f := s.freeVal
    if lowNs = 0 then .next s else if nbit f.1.toNat 0 then .next f.2.safeNFall else .next f.2

/-- SAFE_N counts high again (R576). -/
def execSafeNHigh (s : State) : Out := .next { s with pins := { s.pins with safeNLow := false } }

/-- The level on SAFE_FB `k` changes. -/
def execSafeFbChange (k : Fin 4) (level : Bool) (s : State) : Out :=
  let v := putBit s.pins.safeFb.toNat k level
  if nbit s.pins.safeFb.toNat k == level then .next s
  else .next { s with pins := { s.pins with safeFb := BitVec.ofNat 4 v, fbAt := Tab.put s.pins.fbAt k s.clk.now } }

/-- A readback difference has lasted 8 µs without a break (R577). -/
def State.rbDue (s : State) (k : Nat) : Bool :=
  nbit (s.fld 0x13 F.SO_CFG_FB_EN 0) k && s.fbDiffers k
    && decide (Tab.get 0 s.pins.fbAt k + 8000 ≤ s.clk.now) && decide (Tab.get 0 s.pins.outAt k + 8000 ≤ s.clk.now)

def execSoRbMism (k : Fin 4) (s : State) : Out := when (s.awake && s.rbDue k) s (s.record 0x13 0)

/-- HM_SAFE.EXIT: only the host interface asks for it (R581). -/
def execSafeExit (who : Requester) (s : State) : Out := when (s.awake && isHost who) s s.safeExit

/-- The Logbook writes one queued entry in an RC cycle (R583). -/
def execLogEntryWrite (uncorrectable : Bool) (s : State) : Out := .next (s.logWrite uncorrectable)

/-- LOG_CTL.MIRROR_NOW (R587). -/
def execMirrorNow (_who : Requester) (s : State) : Out := when s.awake s s.mirrorStart

/-- PERIOD_S seconds have passed since the last mirror and entries have been appended since (R587). -/
def execMirrorPeriod (s : State) : Out :=
  let p := s.fld 3 F.LOG_MIR_PERIOD_S 0
  when (s.awake && p != 0 && s.log.since != 0 && decide (s.log.lastEnd + p * 1000000000 ≤ s.clk.now)) s s.mirrorStart

/-- THRESH entries have been appended since the last mirror (R587). -/
def execMirrorThresh (s : State) : Out :=
  let t := s.fld 3 F.LOG_MIR_THRESH 0
  when (s.awake && t != 0 && decide (t ≤ s.log.since)) s s.mirrorStart

/-- A granted mirror segment has run (R588, R589). -/
def execMirrorSegmentDone (st : Status) (differs : Bool) (s : State) : Out :=
  match s.log.mirror, s.hm.granted with
  | some m, some g =>
    if g.user = .logbook then .next ({ s with hm := { s.hm with granted := none } }.mirrorSegment m st differs) else nothing s
  | _, _ => nothing s

/-- LOG_CLEAR is RWP (R586). -/
def execLogClear (_who : Requester) (s : State) : Out :=
  if !s.awake then nothing s
  else if s.presence then .next s.logClear
  else .next (s.logEntry 0 0xFF 0x0030 (3 + 0x0C8 * 256))

/-- The vote of every spare entry, once every 1,024 AO ticks from POR_N rising (R592). -/
def execSpareVote (s : State) : Out :=
  when (s.dev != .off && decide (s.clk.ticks % 1024 = 0) && decide (0 < s.clk.ticks)) s s.voteAll

/-- A read of LOG_RDw answers its requester. -/
def execLogRdRead (who : Requester) (w : Fin 4) (s : State) : Out :=
  let r := s.logRead w
  when s.awake s { r.2 with resps := r.2.resps ++ [⟨who, 0, 0, .ok, leBytes 8 r.1.toNat⟩] }

end Sys2Proof.Machine
end

