-- ==== Sys2Proof/Machine/Detect.lean ====
section
/-! DEFINITION. Detection: the pair comparators (03_berth_pairs.md, R530), the clock monitors and the Lighthouses of
15_fault_detection.md.
Log entries: 30 DEDUCED, 42 DEDUCED, 45 DEDUCED, 46 DEDUCED, 126 DESIGN CHOICE, 127 DEDUCED. -/

namespace Sys2Proof.Machine

/-! ## Pair comparators -/

/-- The number of a compared pair's domain. -/
def pairDomain (u : PairUnit) : Nat := domainOf (pairSlot u)

/-- A comparison in which some comparator found a difference (R87 to R90, R97, R111): `comp` is 1 for A, 2 for B, 3 for
both. When only one flagged, the verdicts disagree and COMP_DIVERGE is recorded with LOCK_MISMATCH. -/
def State.pairEvent (s : State) (u : PairUnit) (buses comp : Nat) : State :=
  let s1 := ((s.captureMism u buses comp (b2n (comp != 3))).enterFaulted u).pairFault u 4
  if comp = 3 then s1 else s1.pairFault u 5

/-- The pair's comparators run: its domain is on (R85, R530). -/
def State.compares (s : State) (u : PairUnit) : Bool := (s.dom (pairDomain u)).power == .on

def execLockMismatch (u : PairUnit) (buses : BitVec 6) (comp : BitVec 2) (s : State) : Out :=
  when (s.compares u && comp != 0) s (s.pairEvent u buses.toNat comp.toNat)

def execCompDiverge (u : PairUnit) (buses : BitVec 6) (comp : BitVec 2) (s : State) : Out :=
  when (s.compares u && (comp == 1 || comp == 2)) s (s.pairEvent u buses.toNat comp.toNat)

/-! ## Harbourmaster comparators (R531, R532) -/

/-- HM_MISM captures the first difference of the Harbourmaster copies: the groups, the comparators, and whether they disagree. -/
def State.captureHm (s : State) (groups comp : Nat) : State :=
  if s.fld 0 F.HM_MISM_VALID 0 = 1 then s
  else s.setReg 0 .HM_MISM 0 (BitVec.ofNat 64 (2 ^ 63 + comp * 2 ^ 61 + b2n (comp != 3) * 2 ^ 60 + groups))

/-! ## Clock monitors (R536, R537) -/

/-- Records CLK_MON and captures the clock and its count; a mesh clock also records TIDE_LOSS (R273). -/
def State.clkMon (s : State) (clock count : Nat) : State :=
  let s1 := if s.fld 0 F.HM_CLKMON_VALID 0 = 1 then s
    else s.setReg 0 .HM_CLKMON 0 (BitVec.ofNat 64 (2 ^ 63 + count * 65536 + clock))
  let s2 := s1.record 0 7
  if clock = 2 then s2.record 2 0 else s2

/-- The count lies outside ±5 % of the expected count. -/
def outOf5 (count expected : Nat) : Bool := decide (count * 100 < expected * 95) || decide (expected * 105 < count * 100)

def execClkMonWindow (clock : Fin 5) (count expected : BitVec 16) (s : State) : Out :=
  if !s.awake then nothing s
  else
    let bad := outOf5 count.toNat expected.toNat
    let n := if bad then Tab.get 0 s.clk.badWindows clock + 1 else 0
    let s1 := { s with clk := { s.clk with badWindows := Tab.set 0 s.clk.badWindows clock (if n = 0 then 0 else 1) } }
    if 2 ≤ n ∨ count = 0 then .next (s1.clkMon clock count.toNat) else .next s1

/-- RC cycles in 1,024 periods of the crystal at their nominal frequencies, 16 MHz and 32.768 kHz (Table 7-3). -/
def rcExpected : Nat := 500000

/-- RC_CHECK: the RC counted over the `window`th 1,024 AO ticks of the crystal, which have just ended. HM_CLKMON's 16 bits do not hold such
a count, so that what they capture is open. -/
def execRcCheck (window count : Nat) (s : State) : Out :=
  let f := s.freeVal
  when (s.dev != .off && !nbit s.strap 11 && decide (s.clk.ticks = 1024 * window) && decide (0 < window) && outOf5 count rcExpected) s
    (f.2.clkMon 5 (f.1.toNat % 65536))

/-! ## Lighthouses -/

/-- TIDE_LOSS is set: no age and no period is measured (R550). -/
def State.tideLost (s : State) : Bool := nbit (s.faults 2) 0

/-- The Lighthouse failed start-check item 10 (R543). -/
def State.lhUnusable (s : State) (i : Nat) : Bool := nbit (s.fld 0 F.HM_SC_LH_FAILED 0) i

/-- A Lighthouse fires (R544): cause 1 age, 2 period, 3 FIRST, 4 UNUSABLE. -/
def State.lhFire (s : State) (i cause : Nat) (both : Bool) : State :=
  let s1 := s.setReg 0x12 .LH_FIRED 0 (BitVec.ofNat 64 ((s.reg 0x12 .LH_FIRED 0).toNat ||| 2 ^ i))
  let s2 := ((s1.setFld 0x12 F.LH_STAT_LAST_CAUSE i cause).setFld 0x12 F.LH_STAT_BOTH i (b2n both)).count 0x12 F.LH_STAT_FIRES i 1
  if s.fld 0x12 F.LH_CFG_CRIT i = 1 then s2.record 0x12 2
  else if cause = 1 then (s2.record 0x12 0).recordIf both 0x12 1
  else s2.record 0x12 1

/-- STATE of a Lighthouse (Table 15-9). -/
def State.lhState (s : State) (i : Nat) : Nat :=
  if s.fld 0x12 F.LH_CFG_EN i = 0 then 0
  else if !s.lhValid i then 4
  else if (s.lh i).armed then 3
  else if (s.lh i).watch.isSome then 2 else 1

/-- The age check's bound is passed for a stamp value that has not fired it (R540). -/
def State.ageDue (s : State) (i : Nat) : Bool :=
  let st := s.reg 0x12 .LH_STAMP i
  s.lhEnabled i && (s.lh i).armed && s.fld 0x12 F.LH_LIM_MAXAGE i != 0 && !s.tideLost && (s.lh i).ageFired != some st
    && decide (st.toNat + s.fld 0x12 F.LH_LIM_MAXAGE i * 1000 < s.tide.toNat)

/-- The period has elapsed since the latest stamp's arrival (R541). -/
def State.periodDue (s : State) (i : Nat) : Bool :=
  s.lhEnabled i && (s.lh i).armed && s.fld 0x12 F.LH_LIM_PERIOD i != 0 && !s.tideLost && !(s.lh i).periodFired
    && decide ((s.reg 0x12 .LH_ARRIVE i).toNat + s.fld 0x12 F.LH_LIM_PERIOD i * 1000 ≤ s.tide.toNat)

/-- The first-stamp watch's bound in nanoseconds: FIRST_MS, or PERIOD when it is zero (R542). -/
def State.firstNs (s : State) (i : Nat) : Nat :=
  let f := s.fld 0x12 F.LH_LIM_FIRST_MS i
  if f = 0 then s.fld 0x12 F.LH_LIM_PERIOD i * 1000 else f * 1000000

/-- The first-stamp watch has run out and has not fired. -/
def State.firstDue (s : State) (i : Nat) : Bool :=
  match (s.lh i).watch with
  | some t0 => s.lhEnabled i && !s.tideLost && !(s.lh i).periodFired && s.firstNs i != 0 && decide (t0.toNat + s.firstNs i ≤ s.tide.toNat)
  | none => false

/-- The age check fires; with the period's bound passed as well both causes are recorded and it fires once (R547). -/
def State.lhAgeFire (s : State) (i : Nat) : State :=
  let both := s.periodDue i
  (s.setLh i { s.lh i with ageFired := some (s.reg 0x12 .LH_STAMP i), periodFired := (s.lh i).periodFired || both }).lhFire i 1 both

/-- The period check or the first-stamp watch fires. -/
def State.lhPeriodFire (s : State) (i cause : Nat) : State := (s.setLh i { s.lh i with periodFired := true }).lhFire i cause false

/-- Lets a Lighthouse fire for every bound that is passed: before a stamp is accepted or the Lighthouse is disarmed in the same
cycle (R32, R548). -/
def State.lhPassed (s : State) (i : Nat) : State :=
  if s.ageDue i then s.lhAgeFire i
  else if s.periodDue i then s.lhPeriodFire i 2
  else if s.firstDue i then s.lhPeriodFire i 3
  else s

/-- Disarms the Lighthouses that satisfy a test; one whose bound is passed fires first (R38, R548, R549). -/
def State.lhDisarm (s : State) (p : Nat → Bool) : State :=
  (List.range 64).foldl (fun t i =>
    if p i then
      let t1 := t.lhPassed i
      t1.setLh i { t1.lh i with armed := false, watch := none, periodFired := false }
    else t) s

/-- A stamp is accepted with a value (R539): a Lighthouse whose bound is passed fires first (R32); the stamp is then the latest, and
arms a Lighthouse that awaits its first. -/
def State.lhAccept (s0 : State) (i : Nat) (t : U64) : State :=
  let s := s0.lhPassed i
  let s1 := (s.setReg 0x12 .LH_STAMP i t).setReg 0x12 .LH_ARRIVE i s.tide
  let x := s.lh i
  if x.armed then s1.setLh i { x with periodFired := false }
  else if x.watch.isSome then
    let s2 := s1.setLh i { x with armed := true, watch := none, periodFired := false }
    if s.lhUnusable i then s2.lhFire i 4 false else s2
  else s1

/-- A stamp at the Lighthouse block (R539). -/
def State.lhStamp (s : State) (i : Nat) (t : U64) : State :=
  if t.toNat ≤ s.tide.toNat then s.lhAccept i t
  else if t.toNat ≤ s.tide.toNat + 1000 then s.lhAccept i s.tide
  else (s.setFld 0x12 F.LH_STAT_STAMP_BAD i 1).record 0x12 3

/-- Another Berth with a higher number has stamped the Lighthouse in this cycle: a stamp of a lower one is taken before it (R551), so
that one which comes now belongs to a later cycle. -/
def State.stampLate (s : State) (n i : Nat) : Bool :=
  match (s.lh i).last with
  | some (t, m) => t == s.clk.now && decide (n < m)
  | none => false

/-- A stamp sent by a Berth reaches Lighthouse `i`, which takes it when it watches (R538). -/
def execStampArrival (n : Fin 32) (i : Fin 64) (t : U64) (s : State) : Out :=
  let s1 : State := { s with stamps := s.stamps.erase (n.val, i.val, t) }
  let s2 := s1.setLh i { s1.lh i with last := some (s.clk.now, n.val) }
  when (s.awake && s.stamps.contains (n.val, i.val, t) && !s.stampLate n i) s (if s.lhEnabled i then s2.lhStamp i t else s1)

/-- An injected expiry (kinds 8 and 9, Table 8-10) that is due fires the Lighthouse with its cause. -/
def State.lhInjected (s : State) (kind i cause : Nat) : State :=
  if s.injDue 0x12 kind i then (s.injEnd 0x12).lhFire i cause false else s

def execLhAgeExpiry (i : Fin 64) (s : State) : Out :=
  when (s.ageDue i || s.injDue 0x12 9 i) s
    (let t := s.lhInjected 9 i 1
     if s.ageDue i then t.lhAgeFire i else t)

/-- The period check fires, once for each accepted stamp (R541). -/
def execLhPeriodExpiry (i : Fin 64) (s : State) : Out :=
  when (s.periodDue i || s.injDue 0x12 8 i) s
    (let t := s.lhInjected 8 i 2
     if !s.periodDue i then t else if s.ageDue i then t.lhAgeFire i else t.lhPeriodFire i 2)

/-- The first-stamp watch fires (R542). -/
def execLhFirstExpiry (i : Fin 64) (s : State) : Out := when (s.firstDue i) s (s.lhPeriodFire i 3)

end Sys2Proof.Machine
end

