-- ==== Sys2Proof/Machine/Msg.lean ====
section
/-! DEFINITION. Manifests, receive queues, Buoys, classes, NACKs and flows (13_manifests_buoys.md).
Log entries: 93 DEDUCED, 109 DEDUCED, 120 DESIGN CHOICE, 127 DEDUCED, 130 DEDUCED, 137 DEDUCED. -/

namespace Sys2Proof.Machine

/-! ## The Manifest (Table 13-1) -/

/-- `n` bytes of a Manifest from byte `i`, as a number. -/
def mNum (m : Manifest) (i n : Nat) : Nat := m.toNat / 2 ^ (8 * i) % 2 ^ (8 * n)

/-- The Manifest with `n` bytes from byte `i` replaced. -/
def mPut (m : Manifest) (i n x : Nat) : Manifest :=
  BitVec.ofNat 256 (m.toNat - mNum m i n * 2 ^ (8 * i) + x % 2 ^ (8 * n) * 2 ^ (8 * i))

/-- The bytes of a Manifest. -/
def mBytes (m : Manifest) : List Byte := leBytes 32 m.toNat

def mTarget (m : Manifest) : Nat := mNum m 2 1 % 64
def mQueue (m : Manifest) : Nat := mNum m 2 1 / 64
def mClass (m : Manifest) : Nat := mNum m 3 1 % 4
def mFlag (m : Manifest) (i : Nat) : Bool := nbit (mNum m 3 1) i
def mInline (m : Manifest) : Bool := mFlag m 2
def mNack (m : Manifest) : Bool := mFlag m 3
def mIrq (m : Manifest) : Bool := mFlag m 4
def mTag (m : Manifest) : Nat := mNum m 4 2
def mSrcUnit (m : Manifest) : Nat := mNum m 8 1 % 64
def mPointer (m : Manifest) : Nat := mNum m 12 6
def mLength (m : Manifest) : Nat := mNum m 20 4

/-- CRC-16 over bytes 0 to 29 (R446). -/
def mCrc (m : Manifest) : Nat := crc16 ((mBytes m).take 30)

/-- The CRC of the Manifest is right. -/
def mCrcOk (m : Manifest) : Bool := mNum m 30 2 == mCrc m

/-- The Manifest with its CRC filled in. -/
def mSeal (m : Manifest) : Manifest := mPut m 30 2 (mCrc m)

/-- A unit of this chip fills source, sequence number and CRC (R445). -/
def State.mFill (s : State) (m : Manifest) (unit : Nat) (seq : BitVec 16) : Manifest :=
  mSeal (mPut (mPut (mPut (mPut (mPut m 6 1 s.gx) 7 1 s.gy) 8 1 unit) 9 1 0) 10 2 seq.toNat)

/-- The Manifest is addressed to this chip. -/
def State.mHere (s : State) (m : Manifest) : Bool := mNum m 0 1 == s.gx && mNum m 1 1 == s.gy

/-- A block unit sends a Manifest; its sequence counter advances (R447). -/
def State.unitSend (s : State) (unit : Nat) (m : Manifest) : State :=
  let q := Tab.get 0 s.unitSeq unit
  { s with net := s.net ++ [s.mFill m unit q], unitSeq := Tab.set 0 s.unitSeq unit (q + 1) }

/-- A packet carries a Manifest. -/
def carries (m : Manifest) (p : Packet) : Bool := hKind p == 1 && hManifest p == m

/-- The Manifest was sent by a Berth of this chip. -/
def State.mOwn (s : State) (m : Manifest) : Bool := mNum m 6 1 == s.gx && mNum m 7 1 == s.gy && decide (mSrcUnit m < 32)

/-- Egress entries of a class. -/
def Berth.eg (b : Berth) (c : Nat) : List Manifest := if c = 0 then b.egS else if c = 1 then b.egA else b.egD

/-- Credits of a flow, or egress entries of a class (16 + class), that have returned at a time: they are usable from the next
nanosecond on (R30, R472). -/
def Berth.backAt (b : Berth) (k now : Nat) : Nat :=
  match Tab.find b.back k with
  | some (t, n) => if t = now then n else 0
  | none => 0

def State.gaveBack (s : State) (n k : Nat) : State :=
  let b := s.berth n
  s.setBerth n { b with back := Tab.put b.back k (s.clk.now, b.backAt k s.clk.now + 1) }

/-- Takes a Manifest out of the egress, the network or the router's inbox. -/
def State.unsent (s : State) (m : Manifest) : State :=
  let s1 := { s with net := s.net.erase m, mesh := { s.mesh with inbox := s.mesh.inbox.eraseP (carries m) } }
  if s1.mOwn m && ((s1.berth (mSrcUnit m)).eg (mClass m)).contains m then
    let b := s1.berth (mSrcUnit m)
    let s2 := s1.setBerth (mSrcUnit m) { b with egS := b.egS.erase m, egA := b.egA.erase m, egD := b.egD.erase m,
                                                egOrd := if mClass m = 1 then Tab.del b.egOrd (mNum m 10 2) else b.egOrd }
    s2.gaveBack (mSrcUnit m) (16 + mClass m)
  else s1

/-- A Manifest that belongs to a flow of before a re-chart has been consumed (R37). -/
def State.unstale (s : State) (m : Manifest) : State := { s with stale := s.stale.erase m }

/-! ## NACKs (R462 to R464) -/

/-- The NACK that answers a Manifest. -/
def nackOf (m : Manifest) (st : Status) : Manifest :=
  let d := mPut (mPut (mPut m 0 1 (mNum m 6 1)) 1 1 (mNum m 7 1)) 2 1 (mSrcUnit m + 3 * 64)
  let c := mPut d 3 1 (2 + 8)
  let r := mPut (mPut (mPut (mPut c 6 1 (mNum m 0 1)) 7 1 (mNum m 1 1)) 8 1 (mTarget m)) 9 1 (statusCode st)
  mSeal r

/-- A credit on its way back for a Manifest (R457, R475). -/
def creditFor (m : Manifest) (cause : Nat) : Credit :=
  { x := BitVec.ofNat 8 (mNum m 6 1), y := BitVec.ofNat 8 (mNum m 7 1), unit := BitVec.ofNat 6 (mSrcUnit m),
    fromX := BitVec.ofNat 8 (mNum m 0 1), fromY := BitVec.ofNat 8 (mNum m 1 1), fromUnit := BitVec.ofNat 6 (mTarget m),
    queue := mQueue m, cause := cause }

/-- Answers a Manifest that cannot be delivered: a NACK is never answered (R463); a flow's credit returns (R457). -/
def State.nack (s : State) (m : Manifest) (flow : Bool) (st : Status) : State :=
  if mNack m then s
  else
    let s1 := { s with net := s.net ++ [nackOf m st] }
    if flow && !s.stale.contains m then { s1 with credits := s1.credits ++ [creditFor m 2] } else s1.unstale m

/-- The router answers for a unit that is draining or off (R99, R524). -/
def State.nackDown (s : State) (m : Manifest) (flow : Bool) : State :=
  if mNack m then s else (s.nack m flow .down).count 9 F.ROUTE_STAT_DOWN 0 1

/-! ## Queues of a Berth -/

def Berth.rx (b : Berth) (q : Nat) : List RxEntry := if q = 0 then b.rx0 else if q = 1 then b.rx1 else if q = 2 then b.rx2 else b.rx3
def Berth.setRx (b : Berth) (q : Nat) (l : List RxEntry) : Berth :=
  if q = 0 then { b with rx0 := l } else if q = 1 then { b with rx1 := l }
  else if q = 2 then { b with rx2 := l } else { b with rx3 := l }

/-- OCC_S and OCC_AD of a queue. -/
def Berth.occS (b : Berth) (q : Nat) : Nat := ((b.rx q).filter (·.flow)).length
def Berth.occAD (b : Berth) (q : Nat) : Nat := ((b.rx q).filter fun e => !e.flow).length

/-- Writes bytes into a Hold from inside the device: both copies receive fresh check bits. -/
def State.holdPut (s : State) (n off : Nat) (d : List Byte) : State :=
  let a := holdBase n + off
  let whole := (wordsOf a d.length).filter fun w => !(partialWords a d.length).contains w
  (whole.foldl (fun t w => (t.setEcc w 0 0).setEcc w 1 0) s).putBytes a d

/-- A Hold offset of a queue's Buoy and of its entry for delivery number `k` (Table 13-13, R451). -/
def State.qBuoy (s : State) (n q : Nat) : Nat := s.fld (bslot n) F.MSG_Q_BUOY q * 8
def State.qEntry (s : State) (n q k : Nat) : Nat :=
  s.fld (bslot n) F.MSG_Q_BASE q * 32 + k % s.fld (bslot n) F.MSG_Q_DEPTH q * 32

/-- The Buoy after OVF advances (Table 13-3). -/
def State.ovf (s : State) (n q : Nat) : State :=
  if s.fld (bslot n) F.MSG_Q_DEPTH q = 0 then s
  else
    let o := s.qBuoy n q
    let v := BitVec.ofNat 64 (s.num (holdBase n + o) 8)
    s.holdPut n o (leBytes 8 (withBits v 55 48 (bitsOf v 55 48 + 1)).toNat)

/-- The Buoy word after a delivery (Table 13-3). -/
def buoyAfter (v : U64) (m : Manifest) : U64 :=
  let v1 := withBits v 31 0 (bitsOf v 31 0 + 1)
  let v2 := withBits v1 47 32 (mTag m)
  if mNack m then withBits v2 63 56 (bitsOf v2 63 56 + 1) else v2

/-- Writes the entry and updates the Buoy and the counts (R451, R454); IRQ raises the event bit (Table 13-15) and a NACK
is recorded (Table 13-8). -/
def State.enqueue (s : State) (n q : Nat) (m : Manifest) (flow : Bool) : State :=
  let b := s.berth n
  let k := Tab.get 0 b.delivered q
  let e : RxEntry := ⟨flow, BitVec.ofNat 8 (mNum m 6 1), BitVec.ofNat 8 (mNum m 7 1), BitVec.ofNat 6 (mSrcUnit m), s.stale.contains m⟩
  let s1 := (s.unstale m).holdPut n (s.qEntry n q k) (mBytes m)
  let o := s.qBuoy n q
  let s2 := s1.holdPut n o (leBytes 8 (buoyAfter (BitVec.ofNat 64 (s1.num (holdBase n + o) 8)) m).toNat)
  let b1 := (b.setRx q (b.rx q ++ [e]))
  let s3 := s2.setBerth n { b1 with delivered := Tab.set 0 b1.delivered q (k + 1), poke := true }
  let s4 := if mIrq m then
      (s3.setFld (bslot n) F.MSG_STAT_QIRQ 0 (s3.fld (bslot n) F.MSG_STAT_QIRQ 0 ||| 2 ^ q)).notify s3 [bslot n]
    else s3
  if mNack m && q == 3 then s4.record (bslot n) 18 else s4

/-- MSG_ERR takes the first MSG_BAD or MSG_CRC since BLK_FAULT was cleared (Table 13-12). -/
def State.msgErr (s : State) (n group reason : Nat) (m : Manifest) : State :=
  if s.fld (bslot n) F.MSG_ERR_VALID 0 = 1 then s
  else s.setReg (bslot n) .MSG_ERR 0 (BitVec.ofNat 64
    (2 ^ 63 + (group - 16) * 2 ^ 56 + reason * 2 ^ 48 + mTag m * 2 ^ 32 + mNum m 2 1 * 2 ^ 24 + mNum m 1 1 * 2 ^ 16 + mNum m 0 1 * 2 ^ 8))

/-- STREAM_CNTs.EVT_LOST advances (R324). -/
def State.evtLost (s : State) (st : Nat) : State := s.count 0x0D F.STREAM_CNT_EVT_LOST st 1

/-- Delivery to a Berth (R99, R451, R454, R462, R465). A Class A Manifest that is not accepted stays where it is; a NACK that meets a Berth
that does not serve is counted in its Q3 while its Hold is there (R463). -/
def State.deliverBerth (s : State) (n : Nat) (m : Manifest) (flow : Bool) : State :=
  let q := mQueue m
  let t := s.unsent m
  if !s.serves n then (if mNack m then (if (s.dom n).power = .on then t.ovf n 3 else t) else t.nackDown m flow)
  else if !mCrcOk m then
    (((t.unstale m).count (bslot n) F.MSG_STAT_CRC_DROP 0 1).msgErr n 17 0 m).record (bslot n) 17
  else if s.fld (bslot n) F.MSG_Q_DEPTH q = 0 then t.nack m flow .poison
  else
    let room := decide ((s.berth n).occAD q + s.fld (bslot n) F.MSG_Q_RES_S q < s.fld (bslot n) F.MSG_Q_DEPTH q)
    if flow && mClass m == 0 then t.enqueue n q m true
    else if room then t.enqueue n q m false
    else if mClass m = 1 then s
    else if mClass m = 0 then
      let t1 := t.ovf n q
      if mSrcUnit m = 36 then t1.evtLost (mTag m % 16) else t1
    else (t.ovf n q).nack m flow .qfull

/-- The domain of a block unit with a queue 0. -/
def unitDomain (u : Nat) : Nat := if u = 32 then 32 else if u = 33 then 33 else 0xFF

/-- Delivery to queue 0 of the Wharfinger, the Dredger or the Pilot (R450, RES_S 8 of 16 entries). -/
def State.deliverBlock (s : State) (u : Nat) (m : Manifest) (flow : Bool) : State :=
  let t := s.unsent m
  let q := Tab.get [] s.blockQ u
  let put : State := { t with blockQ := Tab.set [] t.blockQ u (q ++ [(m, flow)]) }
  if !s.serves (unitDomain u) then t.nackDown m flow
  else if !mCrcOk m then t.unstale m
  else if flow && mClass m == 0 then put
  else if (q.filter fun e => !e.2).length < 8 then put
  else if mClass m = 1 then s
  else if mClass m = 0 then t
  else t.nack m flow .qfull

/-- A queue of this chip takes a Manifest of Class A or D now. -/
def State.takes (s : State) (m : Manifest) : Bool :=
  let u := mTarget m
  let q := mQueue m
  if u < 32 then
    s.serves u && mCrcOk m && s.fld (bslot u) F.MSG_Q_DEPTH q != 0
      && decide ((s.berth u).occAD q + s.fld (bslot u) F.MSG_Q_RES_S q < s.fld (bslot u) F.MSG_Q_DEPTH q)
  else decide (u ≤ 34) && q == 0 && s.serves (unitDomain u) && mCrcOk m
    && decide (((Tab.get [] s.blockQ u).filter fun e => !e.2).length < 8)

/-- A Class A Manifest waits at its queue (R454). -/
def State.mustWait (s : State) (m : Manifest) : Bool :=
  let u := mTarget m
  mClass m == 1 && !s.takes m && mCrcOk m &&
    (if u < 32 then s.serves u && s.fld (bslot u) F.MSG_Q_DEPTH (mQueue m) != 0
     else decide (u ≤ 34) && mQueue m == 0 && s.serves (unitDomain u))

/-- Two Manifests are of one class, from one source unit, to one destination queue: they are delivered in issue order (R459). -/
def sameOrder (a b : Manifest) : Bool :=
  mClass a == mClass b && mNum a 6 3 % 2 ^ 22 == mNum b 6 3 % 2 ^ 22 && mNum a 2 1 == mNum b 2 1

/-- The packet is a Class A Manifest or a request of the source of a Manifest (R58). -/
def sameSource (m : Manifest) (p : Packet) : Bool :=
  [1, 2, 3, 4].contains (hKind p) && hSrcX p == mNum m 6 1 && hSrcY p == mNum m 7 1 && hReq p == mSrcUnit m

/-- A Manifest is the next of its order to reach its queue: the oldest in the network, at the head of its class in its Berth's egress,
or, from another chip, behind no older packet of its source. -/
def State.arrives (s : State) (m : Manifest) : Bool :=
  match s.net.find? (sameOrder m) with
  | some a => a == m
  | none =>
    if s.mOwn m then ((s.berth (mSrcUnit m)).eg (mClass m)).head? == some m
    else if mNum m 6 1 = s.gx ∧ mNum m 7 1 = s.gy then false
    else match s.mesh.inbox.find? (sameSource m) with
      | some p => mClass m != 1 || carries m p
      | none => true

/-- A Class S Manifest of a Berth is sent under a flow (R455). -/
def mFlow (m : Manifest) : Bool := mClass m == 0 && decide (mSrcUnit m < 32)

/-- A Manifest reaches its target on this chip; a NACK to a block unit goes to the block's message port (R464) and is
the command BLOCK_NACK's. -/
def State.deliver (s : State) (m : Manifest) (flow : Bool) : State :=
  let u := mTarget m
  if mNack m && decide (32 ≤ u) then s
  else if u < 32 then s.deliverBerth u m flow
  else if u ≤ 34 ∧ mQueue m = 0 then s.deliverBlock u m flow
  else (s.unsent m).nack m flow .poison

/-- Releases the oldest unreleased entry of a queue; the credit of a flow's entry returns to it (R149, R453, R457). -/
def State.release (s : State) (n q : Nat) : State :=
  let b := s.berth n
  match b.rx q with
  | [] => s
  | e :: rest =>
    let s1 := s.setBerth n (b.setRx q rest)
    let c : Credit := ⟨e.x, e.y, e.unit, BitVec.ofNat 8 s.gx, BitVec.ofNat 8 s.gy, BitVec.ofNat 6 n, q, 1⟩
    if e.flow && !e.stale then { s1 with credits := s1.credits ++ [c] } else s1

/-- A block takes up the oldest entry of its queue 0 and releases it (R450). -/
def State.blockTake (s : State) (u : Nat) : Option (Manifest × State) :=
  match Tab.get [] s.blockQ u with
  | [] => none
  | (m, flow) :: rest =>
    let s1 := { s with blockQ := Tab.set [] s.blockQ u rest }
    some (m, if flow && !s.stale.contains m then { s1 with credits := s1.credits ++ [creditFor m 1] } else s1.unstale m)

/-! ## Flows (R455, R457, Table 13-14) -/

/-- Flow `f` of Berth `n` is enabled: EN with CREDITS from 1 to 64. -/
def State.flowOn (s : State) (n f : Nat) : Bool :=
  s.fld (bslot n) F.MSG_SFLOW_EN f == 1 && decide (1 ≤ s.fld (bslot n) F.MSG_SFLOW_CREDITS f)
    && decide (s.fld (bslot n) F.MSG_SFLOW_CREDITS f ≤ 64)

/-- The enabled flow whose destination equals a Manifest's. -/
def State.flowFor (s : State) (n : Nat) (m : Manifest) : Option Nat :=
  (List.range 16).find? fun f => s.flowOn n f
    && s.fld (bslot n) F.MSG_SFLOW_DEST_X f == mNum m 0 1 && s.fld (bslot n) F.MSG_SFLOW_DEST_Y f == mNum m 1 1
    && s.fld (bslot n) F.MSG_SFLOW_TARGET f == mTarget m && s.fld (bslot n) F.MSG_SFLOW_QUEUE f == mQueue m

/-- A credit return reaches flow `f` of Berth `n`: its credit is usable from the next nanosecond on, LAST takes the cause. -/
def State.creditBack (s : State) (n f cause : Nat) : State :=
  ((s.setFld (bslot n) F.MSG_SFLOW_AVAIL f (s.fld (bslot n) F.MSG_SFLOW_AVAIL f + 1)).setFld (bslot n) F.MSG_SFLOW_LAST f cause).gaveBack n f

/-- The credit in flight that a flow of this chip would receive. -/
def State.creditInFlight (s : State) (n f cause : Nat) : Option Credit :=
  s.credits.find? fun c => c.x.toNat == s.gx && c.y.toNat == s.gy && c.unit.toNat == n
    && c.fromX.toNat == s.fld (bslot n) F.MSG_SFLOW_DEST_X f && c.fromY.toNat == s.fld (bslot n) F.MSG_SFLOW_DEST_Y f
    && c.fromUnit.toNat == s.fld (bslot n) F.MSG_SFLOW_TARGET f && c.queue == s.fld (bslot n) F.MSG_SFLOW_QUEUE f
    && c.cause == cause

/-- The flow's destination is this chip. -/
def State.flowHere (s : State) (n f : Nat) : Bool :=
  s.fld (bslot n) F.MSG_SFLOW_DEST_X f == s.gx && s.fld (bslot n) F.MSG_SFLOW_DEST_Y f == s.gy

/-- A credit return arrives (R457). One for a destination on this chip is in flight here; a flow never holds more than
its CREDITS. -/
def execCreditReturn (n : Fin 32) (flow : Fin 16) (cause : BitVec 2) (s : State) : Out :=
  if !s.awake || !s.flowOn n flow || cause == 0
      || decide (s.fld (bslot n) F.MSG_SFLOW_CREDITS flow ≤ s.fld (bslot n) F.MSG_SFLOW_AVAIL flow) then nothing s
  else match s.creditInFlight n flow cause.toNat with
    | some c => .next ({ s with credits := s.credits.erase c }.creditBack n flow cause.toNat)
    | none => if s.flowHere n flow then nothing s else .next (s.creditBack n flow cause.toNat)

/-! ## Sending (R445, R448, R455, R460, Tables 13-5 and 13-9) -/

/-- TARGET is reserved as a destination, or names a block with a queue other than 0. -/
def badTarget (m : Manifest) : Bool := decide (34 < mTarget m) || (decide (32 ≤ mTarget m) && mQueue m != 0)

/-- Bytes that firmware writes as zero are not zero, or NACK is set. -/
def badFields (m : Manifest) : Bool :=
  mNum m 6 6 != 0 || mNum m 28 4 != 0 || mNum m 3 1 / 32 != 0 || mNack m
    || (!mInline m && (mNum m 18 2 != 0 || mNum m 24 4 != 0))

/-- The MSG_BAD reason for which a Manifest is refused, 0 for none (Table 13-9). -/
def State.msgBad (s : State) (n : Nat) (m : Manifest) : Nat :=
  let out := !s.inDomain (mNum m 0 1) (mNum m 1 1)
  if badFields m then 1
  else if mClass m = 3 then 2
  else if badTarget m then 3
  else if mClass m = 0 ∧ s.flowFor n m = none then 4
  else if out ∧ ((mClass m = 0 ∧ mInline m = false) ∨ (mClass m ≠ 0 ∧ 16 * 2 ^ 20 < mLength m)) then 5
  else if mInline m ∧ mClass m ≠ 0 then 6
  else 0

/-- A Manifest can be accepted now: a free egress entry of its class and, for Class S, a flow credit (R461), neither of which has
returned in this nanosecond. -/
def State.canAccept (s : State) (n : Nat) (m : Manifest) : Bool :=
  let b := s.berth n
  decide ((b.eg (mClass m)).length + b.backAt (16 + mClass m) s.clk.now < 4) &&
    (if mClass m = 0 then
      match s.flowFor n m with
      | some f => decide (b.backAt f s.clk.now < s.fld (bslot n) F.MSG_SFLOW_AVAIL f)
      | none => false
    else true)

/-- Accepts a Manifest into the egress: source, sequence number and CRC are filled in and a flow's credit is taken
(R445, R447, R457, R461). -/
def State.accept (s : State) (n : Nat) (m : Manifest) : State :=
  let b := s.berth n
  let m1 := s.mFill m n b.msgSeq
  let b1 := { b with msgSeq := b.msgSeq + 1 }
  let b2 := if mClass m = 0 then { b1 with egS := b1.egS ++ [m1] }
    else if mClass m = 1 then { b1 with egA := b1.egA ++ [m1], egOrd := Tab.put b1.egOrd b.msgSeq.toNat b.issued, issued := b.issued + 1 }
    else { b1 with egD := b1.egD ++ [m1] }
  let s1 := s.setBerth n b2
  if mClass m = 0 then
    match s.flowFor n m with
    | some f => s1.setFld (bslot n) F.MSG_SFLOW_AVAIL f (s.fld (bslot n) F.MSG_SFLOW_AVAIL f - 1)
    | none => s1
  else s1

/-- Writing MSG_Qq with a non-zero DEPTH zeroes the queue's Buoy and clears its counts (R452). -/
def State.openQueue (s : State) (n q : Nat) : State :=
  if s.fld (bslot n) F.MSG_Q_DEPTH q = 0 then s
  else
    let b := (s.berth n).setRx q []
    (s.setBerth n { b with delivered := Tab.set 0 b.delivered q 0 }).holdPut n (s.qBuoy n q) (List.replicate 8 0)

end Sys2Proof.Machine
end

