-- ==== Sys2Proof/Machine/Crane.lean ====
section
/-! DEFINITION. The Crane: tags, epochs, completions and timeouts (03_berth_pairs.md R98, R101 to R104).
Log entries: 139 DESIGN CHOICE. -/

namespace Sys2Proof.Machine

/-- The lowest tag that is neither outstanding nor held back after a timeout (R104). -/
def State.freeTag (s : State) (n : Nat) : Option Nat :=
  (List.range 256).find? fun t => (Tab.find (s.berth n).tags t).isNone && decide (Tab.get 0 (s.berth n).blocked t ≤ s.clk.now)

/-- Issues a Crane request under a tag; the tag's epoch advances each time it is reissued (R104). -/
def State.craneIssue (s : State) (n tag : Nat) (addr : Addr) (op : MemOp) (use : TagUse) : State :=
  let b := s.berth n
  let ep := Tab.get 0 b.epochs tag
  s.setBerth n { b with tags := Tab.put b.tags tag ⟨ep, b.issued, s.clk.now, addr, op, use, false⟩, issued := b.issued + 1,
                        epochs := Tab.set 0 b.epochs tag (ep + 1), blocked := Tab.del b.blocked tag }

/-- The Crane sends a request, or holds it while no tag is free (Table 1-3). -/
def State.craneSend (s : State) (n : Nat) (addr : Addr) (op : MemOp) (use : TagUse) : State :=
  let b := s.berth n
  match b.held, s.freeTag n with
  | [], some t => s.craneIssue n t addr op use
  | _, _ => s.setBerth n { b with held := b.held ++ [(addr, op, use)] }

/-- A FENCE waits for this request: a posted store, an atomic, or a store of a work order (R144). -/
def fenced (op : MemOp) (use : TagUse) : Bool :=
  match use with
  | .post _ _ => true
  | .woWrite _ => true
  | .load => match op with
    | .read _ => false
    | _ => true
  | .woRead _ _ => false
  | .gone => false

/-- A held request has taken a tag: a FENCE that counts it names the tag instead. -/
def Wait.tagged (w : Wait) (tag : Nat) (ep : BitVec 2) (counts : Bool) : Wait :=
  match w with
  | .fence tags wos (k + 1) => .fence (if counts then tags ++ [(tag, ep)] else tags) wos k
  | w => w

/-- The oldest held request takes a free tag: one that a completion has returned is free from the following nanosecond on (R30). -/
def State.craneNext (s : State) (n : Nat) : State :=
  match (s.berth n).held, s.freeTag n with
  | (a, op, use) :: rest, some t =>
    let b := s.berth n
    let w := b.wait.tagged t (Tab.get 0 b.epochs t) (fenced op use)
    (s.setBerth n { b with held := rest, wait := w }).craneIssue n t a op use
  | _, _ => s

/-- SEQ_FLT takes the first sequencer fault since it was cleared (Table 4-19). -/
def State.seqFlt (s : State) (n group cause pc : Nat) (word : U32) : State :=
  if s.fld (bslot n) F.SEQ_FLT_VALID 0 = 1 then s
  else s.setReg (bslot n) .SEQ_FLT 0
    (BitVec.ofNat 64 (2 ^ 63 + (group - 8) * 2 ^ 56 + cause * 2 ^ 48 + pc % 65536 * 2 ^ 32 + word.toNat))

/-- A posted store that has failed: SEQ_FLT takes the status and the instruction, and beside it the store's target (R134). -/
def State.storeFlt (s : State) (n : Nat) (st : Status) (addr : Addr) (pc : Nat) (word : U32) : State :=
  let s1 := s.seqFlt n 15 (statusCode st) pc word
  if s.fld (bslot n) F.SEQ_FLT_VALID 0 = 1 then s1 else s1.setBerth n { s1.berth n with fltAddr := addr }

/-- The first status other than OK of a work order (R161). -/
def mergeStatus (a b : Status) : Status := if a = .ok then b else a

/-- Adds a status to the work order with a sequence number. -/
def State.woStatus (s : State) (n : Nat) (q : U32) (st : Status) : State :=
  let b := s.berth n
  s.setBerth n { b with woq := b.woq.map fun w => if w.seq = q then { w with status := mergeStatus w.status st } else w }

/-- A response for a Berth's Crane, by tag and epoch. -/
def State.respFor (s : State) (n : Fin 32) (tag : Nat) (ep : BitVec 2) : Option Resp :=
  s.resps.find? fun r => r.who == .berth n && r.tag == tag && r.epoch == ep

end Sys2Proof.Machine
end

