-- ==== Sys2Proof/Machine/Operands.lean ====
section
/-! DEFINITION. Operand forms of the Berth sequencer (04_sequencer_work_orders.md R119, Tables 4-1 and 4-2): the register
files and the immediate forms. -/

namespace Sys2Proof.Machine

/-- Gr: G0 reads as zero (R119). -/
def Berth.gr (b : Berth) (r : Nat) : U64 := if r = 0 then 0 else Tab.get 0 b.g r

/-- Writes Gr: writes to G0 are ignored (R119). -/
def Berth.setG (b : Berth) (r : Nat) (v : U64) : Berth := if r = 0 then b else { b with g := Tab.set 0 b.g r v }

/-- Ar. -/
def Berth.ar (b : Berth) (r : Nat) : Addr := Tab.get 0 b.a r

/-- Writes Ar. -/
def Berth.setA (b : Berth) (r : Nat) (v : Addr) : Berth := { b with a := Tab.set 0 b.a r v }

/-- Counter Ln. -/
def Berth.lr (b : Berth) (n : Nat) : U32 := Tab.get 0 b.l n
def Berth.setL (b : Berth) (n : Nat) (v : U32) : Berth := { b with l := Tab.set 0 b.l n v }

/-- Sign-extended imm18 as a 64-bit operand. -/
def sext18 (i : BitVec 18) : U64 := i.signExtend 64

/-- Zero-extended imm18 as a 64-bit operand. -/
def zext18 (i : BitVec 18) : U64 := i.zeroExtend 64

/-- Sign-extended imm22. -/
def sext22 (i : BitVec 22) : U64 := i.signExtend 64

/-- The shift count of an operand: its low six bits. -/
def shiftOf (v : U64) : Nat := v.toNat % 64

/-- The effective address Aa + imm18, modulo 2 ^ 48 (R131; AADDI). -/
def Berth.ea (b : Berth) (a : Nat) (i : BitVec 18) : Addr := b.ar a + i.signExtend 48

/-- The half-word `hw` of a register replaced (MOVHI). -/
def putHalf (v : U64) (hw : Nat) (i : BitVec 16) : U64 := withBits v (16 * hw + 15) (16 * hw) i.toNat

end Sys2Proof.Machine
end

