-- ==== Sys2Proof/Machine/Flags.lean ====
section
/-! DEFINITION. The flags of the Berth sequencer: Z, N and C of a comparison (R128), E of a status (R129) and the branch
conditions (Table 4-3). -/

namespace Sys2Proof.Machine

/-- CMP and CMPI: Z when equal, N when less as signed integers, C when less as unsigned integers (R128). -/
def Berth.compare (b : Berth) (x y : U64) : Berth :=
  { b with z := x == y, nf := decide (x.toInt < y.toInt), c := decide (x.toNat < y.toNat) }

/-- E is 1 for a status other than OK (R129). -/
def Berth.setE (b : Berth) (st : Status) : Berth := { b with e := st != .ok }

/-- Gd[3:0] takes a status, the other bits are zero. -/
def statusWord (st : Status) : U64 := BitVec.ofNat 64 (statusCode st)

/-- A branch condition holds; `none` for a reserved condition (Table 4-3). -/
def Berth.cond (b : Berth) (c : Nat) : Option Bool :=
  match c with
  | 0 => some true
  | 1 => some b.z
  | 2 => some (!b.z)
  | 3 => some b.nf
  | 4 => some (!b.nf)
  | 5 => some b.c
  | 6 => some (!b.c)
  | 7 => some b.e
  | 8 => some (!b.e)
  | 9 => some (b.z || b.nf)
  | 10 => some (!b.z && !b.nf)
  | _ => none

end Sys2Proof.Machine
end

