-- ==== Sys2Proof/Machine/Seq.lean ====
section
/-! DEFINITION. The Berth sequencer: issue, loops, branches and the instructions that stay inside the Berth
(04_sequencer_work_orders.md).
Log entries: 11 DEDUCED, 32 DEDUCED, 112 DEDUCED, 121 DEDUCED, 122 DEDUCED, 125 DESIGN CHOICE, 140 DEDUCED, 141 DEDUCED. -/

namespace Sys2Proof.Machine

/-! ## Issue -/

/-- The program region's size in instructions. -/
def State.progWords (s : State) (n : Nat) : Nat := s.fld (bslot n) F.SEQ_CFG_PROG_SIZE 0 * 1024

/-- The sequencer of Berth `n` can issue: the Berth serves and its sequencer runs and waits for nothing. -/
def State.issues (s : State) (n : Nat) : Bool :=
  s.serves n && (s.berth n).seq == .running && (s.berth n).wait == .none

/-- A sequencer fault stops the sequencer at the faulting instruction (R167). -/
def State.seqStop (s : State) (n group cause : Nat) (word : U32) : State :=
  let b := s.berth n
  ((s.seqFlt n group cause b.pc word).setBerth n { b with seq := .faulted, wait := .none }).record (bslot n) group

/-- The fetch of the instruction at the program counter: its status, its word and the state after it. -/
def State.fetch (s : State) (n : Fin 32) : Ans :=
  s.readAt (.berth n) (.hold n ((s.progRange n).1 + 4 * (s.berth n).pc)) 4

/-- The word at the program counter, as the fetch gives it. -/
def State.wordAt (s : State) (n : Fin 32) : U32 := BitVec.ofNat 32 (leNat (s.fetch n).data)

/-- Issues what Berth `n` fetches when the word at its counter satisfies a test (R123): nothing happens unless its sequencer can
issue such a word; a program counter outside the program region, or a fetch that completes POISON, is SEQ_FETCH (Table 4-12),
which captures no word (log entry 125, DESIGN CHOICE). `k` receives the word. -/
def State.issueWord (s : State) (n : Fin 32) (is : U32 → Bool) (k : U32 → State → State) : Out :=
  if !s.issues n then .next s
  else if s.progWords n ≤ (s.berth n).pc then .next (s.seqStop n 9 1 0)
  else
    let r := s.fetch n
    match r.st with
    | .ok => if is (s.wordAt n) then .next (k (s.wordAt n) r.s) else .next s
    | .poison => .next (r.s.seqStop n 9 2 0)
    | _ => .next r.s

/-- Issues an instruction of Berth `n`: the word at the counter is its word (R123). -/
def State.issue (s : State) (i : Instr) (n : Fin 32) (k : U32 → State → State) : Out :=
  s.issueWord n (fun w => seqWord i == some w) k

/-- SEQ_ACCESS with a status (R131, R134, R141, R147, R150). -/
def State.seqAccess (s : State) (n : Nat) (st : Status) (word : U32) : State :=
  (s.seqFlt n 15 (statusCode st) (s.berth n).pc word).record (bslot n) 15

/-- In the cycle in which a Berth enters DRAIN, the instruction that its sequencer issues still issues (R148, R170). -/
def State.drainEdge (s : State) (n : Nat) : Bool :=
  s.runs n && (s.dom n).draining && (s.dom n).drainT == s.clk.now && (s.berth n).drainEdge

/-! ## The next instruction (R136 to R138) -/

/-- The loop nest after the instruction at `pc` when it does not branch: a loop whose body ends there returns to its
first instruction while its count lasts, and ends otherwise. -/
def stepLoops (pc : Nat) : List LoopRec → Tab U32 → Nat × List LoopRec × Tab U32
  | [], l => (pc + 1, [], l)
  | lp :: rest, l =>
    if pc = lp.last then
      if 1 < (Tab.get 0 l lp.ctr).toNat then (lp.first, lp :: rest, Tab.set 0 l lp.ctr (Tab.get 0 l lp.ctr - 1))
      else stepLoops pc rest (Tab.set 0 l lp.ctr 0)
    else (pc + 1, lp :: rest, l)

/-- Execution goes on after the instruction at `pc`. -/
def Berth.nextFrom (b : Berth) (pc : Nat) : Berth :=
  let r := stepLoops pc b.loops b.l
  { b with pc := r.1, loops := r.2.1, l := r.2.2 }

/-- Execution goes on after the present instruction. -/
def Berth.next (b : Berth) : Berth := b.nextFrom b.pc

/-- A taken branch ends every active loop whose body it leaves (R138). -/
def Berth.jump (b : Berth) (t : Nat) : Berth :=
  { b with pc := t, loops := b.loops.filter fun lp => decide (lp.first ≤ t) && decide (t ≤ lp.last) }

/-- The target of a relative branch. -/
def Berth.target (b : Berth) (off : BitVec 22) : Nat := (((b.pc : Int) + off.toInt) % 65536).toNat

/-- The sequencer resumes after a wait: the instruction retires. A STOP that has waited for it takes effect (R168). -/
def Berth.resume (b : Berth) : Berth :=
  { b with seq := if b.stopReq then .stopped else .running, wait := .none, stopReq := false }.next

/-! ## Register instructions -/

/-- An instruction that writes Gd from the Berth's registers. -/
def aluOp (i : Instr) (n : Fin 32) (d : Fin 16) (f : Berth → U64) (s : State) : Out :=
  s.issue i n fun _ t => let b := t.berth n; t.setBerth n (b.setG d (f b)).next

/-- An instruction that changes the Berth's registers. -/
def berthOp (i : Instr) (n : Fin 32) (f : Berth → Berth) (s : State) : Out :=
  s.issue i n fun _ t => t.setBerth n (f (t.berth n)).next

def execAdd (n : Fin 32) (d a b : Fin 16) (s : State) : Out := aluOp (.add n d a b) n d (fun x => x.gr a + x.gr b) s
def execSub (n : Fin 32) (d a b : Fin 16) (s : State) : Out := aluOp (.sub n d a b) n d (fun x => x.gr a - x.gr b) s
def execAnd (n : Fin 32) (d a b : Fin 16) (s : State) : Out := aluOp (.and n d a b) n d (fun x => x.gr a &&& x.gr b) s
def execOr (n : Fin 32) (d a b : Fin 16) (s : State) : Out := aluOp (.or n d a b) n d (fun x => x.gr a ||| x.gr b) s
def execXor (n : Fin 32) (d a b : Fin 16) (s : State) : Out := aluOp (.xor n d a b) n d (fun x => x.gr a ^^^ x.gr b) s
def execShl (n : Fin 32) (d a b : Fin 16) (s : State) : Out := aluOp (.shl n d a b) n d (fun x => x.gr a <<< shiftOf (x.gr b)) s
def execShr (n : Fin 32) (d a b : Fin 16) (s : State) : Out := aluOp (.shr n d a b) n d (fun x => x.gr a >>> shiftOf (x.gr b)) s
def execSar (n : Fin 32) (d a b : Fin 16) (s : State) : Out := aluOp (.sar n d a b) n d (fun x => (x.gr a).sshiftRight (shiftOf (x.gr b))) s
def execMul (n : Fin 32) (d a b : Fin 16) (s : State) : Out := aluOp (.mul n d a b) n d (fun x => x.gr a * x.gr b) s
/-- MIN and MAX are signed. -/
def execMin (n : Fin 32) (d a b : Fin 16) (s : State) : Out :=
  aluOp (.min n d a b) n d (fun x => if (x.gr a).toInt ≤ (x.gr b).toInt then x.gr a else x.gr b) s
def execMax (n : Fin 32) (d a b : Fin 16) (s : State) : Out :=
  aluOp (.max n d a b) n d (fun x => if (x.gr b).toInt ≤ (x.gr a).toInt then x.gr a else x.gr b) s
def execCmp (n : Fin 32) (a b : Fin 16) (s : State) : Out := berthOp (.cmp n a b) n (fun x => x.compare (x.gr a) (x.gr b)) s
def execAddi (n : Fin 32) (d a : Fin 16) (imm : BitVec 18) (s : State) : Out := aluOp (.addi n d a imm) n d (fun x => x.gr a + sext18 imm) s
def execAndi (n : Fin 32) (d a : Fin 16) (imm : BitVec 18) (s : State) : Out := aluOp (.andi n d a imm) n d (fun x => x.gr a &&& zext18 imm) s
def execOri (n : Fin 32) (d a : Fin 16) (imm : BitVec 18) (s : State) : Out := aluOp (.ori n d a imm) n d (fun x => x.gr a ||| zext18 imm) s
def execXori (n : Fin 32) (d a : Fin 16) (imm : BitVec 18) (s : State) : Out := aluOp (.xori n d a imm) n d (fun x => x.gr a ^^^ zext18 imm) s

/-- A shift by an immediate: imm[17:6] shall be zero, or the instruction is illegal (Table 4-2, R124). -/
def shiftOp (i : Instr) (n : Fin 32) (d a : Fin 16) (imm : BitVec 18) (f : U64 → Nat → U64) (s : State) : Out :=
  s.issue i n fun word t =>
    if imm.toNat < 64 then let b := t.berth n; t.setBerth n (b.setG d (f (b.gr a) imm.toNat)).next
    else t.seqStop n 8 1 word

def execShli (n : Fin 32) (d a : Fin 16) (imm : BitVec 18) (s : State) : Out := shiftOp (.shli n d a imm) n d a imm (fun v k => v <<< k) s
def execShri (n : Fin 32) (d a : Fin 16) (imm : BitVec 18) (s : State) : Out := shiftOp (.shri n d a imm) n d a imm (fun v k => v >>> k) s
def execSari (n : Fin 32) (d a : Fin 16) (imm : BitVec 18) (s : State) : Out := shiftOp (.sari n d a imm) n d a imm (fun v k => v.sshiftRight k) s
def execCmpi (n : Fin 32) (a : Fin 16) (imm : BitVec 18) (s : State) : Out := berthOp (.cmpi n a imm) n (fun x => x.compare (x.gr a) (sext18 imm)) s
def execMovi (n : Fin 32) (d : Fin 16) (imm : BitVec 22) (s : State) : Out := aluOp (.movi n d imm) n d (fun _ => sext22 imm) s
def execMovhi (n : Fin 32) (d : Fin 16) (hw : Fin 4) (imm : BitVec 16) (s : State) : Out :=
  aluOp (.movhi n d hw imm) n d (fun x => putHalf (x.gr d) hw imm) s
def execAmov (n : Fin 32) (d : Fin 8) (a : Fin 16) (s : State) : Out := berthOp (.amov n d a) n (fun x => x.setA d ((x.gr a).setWidth 48)) s
def execGmov (n : Fin 32) (d : Fin 16) (a : Fin 8) (s : State) : Out := aluOp (.gmov n d a) n d (fun x => (x.ar a).zeroExtend 64) s
def execAaddi (n : Fin 32) (d a : Fin 8) (imm : BitVec 18) (s : State) : Out := berthOp (.aaddi n d a imm) n (fun x => x.setA d (x.ea a imm)) s
/-- RDTIDE: the tide time the Berth receives. -/
def execRdtide (n : Fin 32) (d : Fin 16) (s : State) : Out := aluOp (.rdtide n d) n d (fun _ => s.tide) s

/-! ## Branches and loops -/

/-- B: a reserved condition is illegal (Table 4-3). -/
def execB (n : Fin 32) (cond : BitVec 4) (off : BitVec 22) (s : State) : Out :=
  s.issue (.b n cond off) n fun word t =>
    let b := t.berth n
    match b.cond cond.toNat with
    | some true => t.setBerth n (b.jump (b.target off))
    | some false => t.setBerth n b.next
    | none => t.seqStop n 8 4 word

def execCall (n : Fin 32) (off : BitVec 22) (s : State) : Out :=
  s.issue (.call n off) n fun _ t =>
    let b := t.berth n
    t.setBerth n ((b.setG 15 (BitVec.ofNat 64 (b.pc + 1))).jump (b.target off))

def execRet (n : Fin 32) (s : State) : Out :=
  s.issue (.ret n) n fun _ t => let b := t.berth n; t.setBerth n (b.jump ((b.gr 15).toNat % 65536))

/-- A loop cannot start (R137): body length 0, counter active, or a body that ends beyond the program region or beyond
the body of an active enclosing loop. -/
def loopBad (b : Berth) (words : Nat) (l : Fin 4) (len : Nat) : Bool :=
  decide (len = 0) || b.loops.any (fun lp => lp.ctr == l) || decide (words ≤ b.pc + len)
    || b.loops.any fun lp => decide (lp.last < b.pc + len)

/-- LOOP and LOOPI (R136, R137): a count of 0 goes on after the body; where the body ends with an enclosing loop's, that loop's return
comes first (log entry 122, DEDUCED). -/
def State.startLoop (t : State) (n : Fin 32) (l : Fin 4) (count len : Nat) (word : U32) : State :=
  let b := t.berth n
  if loopBad b (t.progWords n) l len then t.seqStop n 10 1 word
  else if count = 0 then t.setBerth n (b.nextFrom (b.pc + len))
  else t.setBerth n { b.setL l (BitVec.ofNat 32 count) with pc := b.pc + 1, loops := ⟨l, b.pc + 1, b.pc + len⟩ :: b.loops }

def execLoop (n : Fin 32) (l : Fin 4) (c : Fin 16) (len : BitVec 12) (s : State) : Out :=
  s.issue (.loop n l c len) n fun word t => t.startLoop n l (((t.berth n).gr c).toNat % 2 ^ 32) len.toNat word

def execLoopi (n : Fin 32) (l : Fin 4) (count : BitVec 12) (len : BitVec 12) (s : State) : Out :=
  s.issue (.loopi n l count len) n fun word t => t.startLoop n l count.toNat len.toNat word

/-! ## Illegal words (R124 to R126) -/

/-- A word that is not a legal instruction stops the sequencer. -/
def execIllegalInstruction (n : Fin 32) (word : U32) (s : State) : Out :=
  if illegalCause word = 0 then nothing s
  else s.issueWord n (fun w => w == word) fun _ t => t.seqStop n 8 (illegalCause word) word

/-! ## Waiting, stopping and resuming -/

/-- WAITT (R143): a time that has passed when it issues sets E; a time equal to Ga counts as passed (log entry 121, DEDUCED). E takes
0 when the wait ends: an abandoned WAITT writes no result (R168). -/
def execWaitt (n : Fin 32) (a : Fin 16) (s : State) : Out :=
  s.issue (.waitt n a) n fun _ t =>
    let b := t.berth n
    if (b.gr a).toNat ≤ t.tide.toNat then t.setBerth n ({ b with e := true }).next
    else t.setBerth n { b with seq := .waiting, wait := .waitt (b.gr a) }

def execWaittResume (n : Fin 32) (s : State) : Out :=
  match (s.berth n).wait with
  | .waitt x => when (s.serves n && decide (x.toNat ≤ s.tide.toNat)) s (s.setBerth n { s.berth n with e := false }.resume)
  | _ => nothing s

/-- YIELD stops issue until an event of R145. -/
def execYield (n : Fin 32) (s : State) : Out :=
  s.issue (.yield n) n fun _ t =>
    t.setBerth n { t.berth n with seq := .yielded, wait := .yield (t.after 1000), poke := false }

def execYieldResume (n : Fin 32) (s : State) : Out :=
  match (s.berth n).wait with
  | .yield d => when (s.serves n && ((s.berth n).poke || decide (d ≤ s.clk.now))) s (s.setBerth n (s.berth n).resume)
  | _ => nothing s

/-- HALT (R146). -/
def execHalt (n : Fin 32) (s : State) : Out := s.issue (.halt n) n fun _ t => t.setBerth n { t.berth n with seq := .halted }

/-- A stop at the next instruction boundary: a waiting instruction is abandoned without its results (R168). A load or an atomic is
none of those that are abandoned: the stop waits for its completion. -/
def State.seqHalt (s : State) (n : Nat) : State :=
  let b := s.berth n
  match b.seq with
  | .running => s.setBerth n { b with seq := .stopped, wait := .none }
  | .waiting =>
    match b.wait with
    | .load _ _ => s.setBerth n { b with stopReq := true }
    | _ => s.setBerth n { b with seq := .stopped, wait := .none }
  | .yielded => s.setBerth n { b with seq := .stopped, wait := .none }
  | _ => s

/-- Starts a sequencer (R121): program counter at ENTRY, registers and flags zero. A Berth with PROG_SIZE = 0 has no program
(Table 4-16): nothing starts. -/
def State.seqStart (s : State) (n : Nat) : State :=
  if s.fld (bslot n) F.SEQ_CFG_PROG_SIZE 0 = 0 then s
  else s.setBerth n { s.berth n with g := [], a := [], l := [], z := false, nf := false, c := false, e := false, loops := [],
                                     wait := .none, loaded := none, stopReq := false, seq := .running, pc := s.fld (bslot n) F.SEQ_CFG_ENTRY 0 }

/-- A presence-gated write that is refused appends PRESENCE_DENIED (R11, R722). -/
def State.presenceDenied (s : State) (slot off : Nat) : State := s.logEntry 0 0xFF 0x0030 (slot + off * 256)

/-- SEQ_CTL.STOP (R168), presence-gated. -/
def execSeqCtlStop (_who : Requester) (n : Fin 32) (s : State) : Out :=
  if !s.serves n then nothing s
  else if !s.presence then .next ((s.pokeBerth n).presenceDenied (bslot n) 0x108)
  else .next ((s.pokeBerth n).seqHalt n)

/-- SEQ_CTL.RESUME (R146), presence-gated: restarts a halted or stopped sequencer. -/
def execSeqCtlResume (_who : Requester) (n : Fin 32) (s : State) : Out :=
  if !s.serves n then nothing s
  else if !s.presence then .next ((s.pokeBerth n).presenceDenied (bslot n) 0x108)
  else
    match (s.berth n).seq with
    | .halted => .next ((s.pokeBerth n).seqStart n)
    | .stopped => .next ((s.pokeBerth n).seqStart n)
    | _ => .next (s.pokeBerth n)

end Sys2Proof.Machine
end

