-- ==== Sys2Proof/Machine/Access.lean ====
section
/-! DEFINITION. How a register write is applied field by field (00_scope.md Table 0-4, R722) and the entries of the
writes that are refused.
Log entries: 115 DEDUCED. -/

namespace Sys2Proof.Machine

/-! ## Fields that read the value applied (R277, Table 7-15) -/

/-- MARGIN in 1 / 256; values below 1.1 are applied as 0x011A (R277). -/
def State.margin (s : State) : Nat := let m := s.fld 0 F.HM_HU_CFG0_MARGIN 0; if m < 0x11A then 0x11A else m

/-- HU_TRIES and HU_RETRY as applied (Table 7-15). -/
def State.huTries (s : State) : Nat := let n := s.fld 0 F.HM_HU_CFG1_HU_TRIES 0; if n = 0 then 1 else n
def State.huRetry (s : State) : Nat := let n := s.fld 0 F.HM_HU_CFG1_HU_RETRY 0; if n = 0 then 1 else n

/-- HM_HU_CFG0 and HM_HU_CFG1 as they read. -/
def State.huCfg0 (s : State) : U64 := F.HM_HU_CFG0_MARGIN.put (s.reg 0 .HM_HU_CFG0 0) s.margin
def State.huCfg1 (s : State) : U64 :=
  F.HM_HU_CFG1_HU_RETRY.put (F.HM_HU_CFG1_HU_TRIES.put (s.reg 0 .HM_HU_CFG1 0) s.huTries) s.huRetry

/-- The Pilot applies a partial chart to the block of a slot: to the Berths of the partition and to the Lighthouses (R203, R230). -/
def State.applying (s : State) (slot : Nat) : Bool :=
  match s.pilot.load with
  | some l => l.fitted && l.drains.isEmpty && (slot == 0x12 || l.part.any fun n => bslot n == slot) && (match l.src with
    | .rechart _ => true
    | _ => false)
  | none => false

/-- An RWL field of a slot takes the write (Table 0-4, R203): no chart is running, or the Pilot applies a chart to the block. The
table names the time and not the writer, so that every path writes then (log entry 115, DEDUCED). -/
def State.mayRwl (s : State) (who : Requester) (slot : Nat) : Bool := who == .pilot || !s.chartOn || s.applying slot

/-- The current value of a register's RWL and RWP fields, as they read (R722): HM_HU_CFG0 and HM_HU_CFG1 read the values applied. -/
def State.current (s : State) (slot : Nat) (r : Reg) (i : Nat) : U64 :=
  match r with
  | .HM_HU_CFG0 => s.huCfg0
  | .HM_HU_CFG1 => s.huCfg1
  | r => s.reg slot r i

/-- A locked write that is refused appends LOCKED_WRITE (R722). -/
def State.lockedWrite (s : State) (slot off : Nat) : State := s.logEntry 0 0xFF 0x0031 (slot + off * 256)

/-- A field that a write would change is refused. -/
def refusedBits (mask : Nat) (cur v : U64) : Bool := decide ((cur.toNat ^^^ v.toNat) &&& mask ≠ 0)

/-- The entries of a write's refused fields: at most one of each code (R722). -/
def State.refusals (s : State) (slot off : Nat) (r : Reg) (who : Requester) (cur v : U64) : State :=
  let s1 := if !s.mayRwl who slot && refusedBits r.info.rwl cur v then s.lockedWrite slot off else s
  if !s.presence && who != .pilot && refusedBits r.info.rwp cur v then s1.presenceDenied slot off else s1

/-- The bits that a write to a slot stores. RWP fields are never the Pilot's to write (R203). -/
def State.writable (s : State) (slot : Nat) (r : Reg) (who : Requester) : Nat :=
  r.info.rw ||| (if s.mayRwl who slot then r.info.rwl else 0) ||| (if s.presence && who != .pilot then r.info.rwp else 0)

/-- The value that the stored fields take: stored bits from the write, W1C bits cleared, the others kept. -/
def State.written (s : State) (slot : Nat) (r : Reg) (who : Requester) (cur v : U64) : U64 :=
  let w := BitVec.ofNat 64 (s.writable slot r who)
  let c := BitVec.ofNat 64 r.info.w1c
  (cur &&& ~~~w &&& ~~~(v &&& c)) ||| (v &&& w)

/-- Applies a write to instance `i` of a register kind that has no behaviour of its own. -/
def State.applyWrite (s : State) (slot : Nat) (r : Reg) (i : Nat) (who : Requester) (v : U64) : State :=
  (s.setReg slot r i (s.written slot r who (s.reg slot r i) v)).refusals slot (r.info.off + i * r.info.stride) r who
    (s.current slot r i) v

/-- A write of one RWL field: performed, or refused with LOCKED_WRITE when it would change the field. -/
def State.rwlField (s : State) (slot : Nat) (f : Fld) (i x : Nat) (who : Requester) (k : State → State) : State :=
  if s.mayRwl who slot then k (s.setFld slot f i x)
  else if s.fld slot f i = x then s
  else s.lockedWrite slot (f.reg.info.off + i * f.reg.info.stride)

end Sys2Proof.Machine
end

