-- ==== Sys2Proof/Machine/Intake.lean ====
section
/-! DEFINITION. The sensor intake: receivers, streams, frame rings, claims, events to consumers, confirmation and FSYNC
(09_sensor_intake_commit.md).
Log entries: 79 DEDUCED, 80 DEDUCED, 81 DEDUCED, 82 DEDUCED, 83 DEDUCED, 84 DEDUCED. -/

namespace Sys2Proof.Machine

/-! ## Configuration of a stream -/

/-- The intake's domain. -/
def intakeDomain : Nat := 41

/-- The kind of memory region at an address, 0 where nothing can be placed: a span whose ends have one kind is contiguous. -/
def State.regionAt (s : State) (a : Nat) : Nat :=
  match s.place (BitVec.ofNat 48 a) with
  | .hold _ _ => 1
  | .basin _ => 2
  | .lpddr _ => 3
  | .tables _ => 4
  | .store _ => 5
  | .rom _ => 6
  | .regs _ _ => 0
  | .remote c o => 16 + 2 * c + b2n (decide (o < 0x0800000000))
  | .hole => 0

/-- `n` bytes from an address lie in one memory region. -/
def State.spanOk (s : State) (a n : Nat) : Bool :=
  decide (0 < n) && decide (a + n ≤ 2 ^ 48) && s.regionAt a != 0 && s.regionAt a == s.regionAt (a + n - 1)

def State.lineBytes (s : State) (i : Nat) : Nat := s.fld 0x0D F.STREAM_SHAPE_LINE_BYTES i
def State.lineCount (s : State) (i : Nat) : Nat := s.fld 0x0D F.STREAM_SHAPE_LINES i
def State.ringDepth (s : State) (i : Nat) : Nat := s.fld 0x0D F.STREAM_RING_DEPTH i
def State.streamSrc (s : State) (i : Nat) : Nat := s.fld 0x0D F.STREAM_CFG_SRC i
def State.consumers (s : State) (i : Nat) : Nat := s.fld 0x0D F.STREAM_CONS_BERTHS i

/-- The line stride: LINE_BYTES rounded up to a multiple of 64 (R315). -/
def State.lineStride (s : State) (i : Nat) : Nat := cdiv (s.lineBytes i) 64 * 64

/-- Bytes of a ring slot (R315). -/
def State.slotSize (s : State) (i : Nat) : Nat := s.fld 0x0D F.STREAM_RING_SLOT_64K i * 65536

/-- The address of ring slot `k`. -/
def State.slotAddr (s : State) (i k : Nat) : Nat := s.fld 0x0D F.STREAM_RING_BASE i + k * s.slotSize i

/-- A CSI-2 data type of Table 9-1. -/
def csiType (dt : Nat) : Bool :=
  dt == 0x1E || dt == 0x24 || dt == 0x2A || dt == 0x2B || dt == 0x2C || (decide (0x30 ≤ dt) && decide (dt ≤ 0x37))

/-- The source is one of Table 9-2. -/
def State.sourceOk (s : State) (i : Nat) : Bool :=
  let u := s.fld 0x0D F.STREAM_CFG_UNIT i
  match s.streamSrc i with
  | 0 => decide (u < 8) && csiType (s.fld 0x0D F.STREAM_CFG_DT i)
  | 1 => decide (u < 2)
  | 2 => decide (u < 4)
  | _ => false

/-- The stream's configuration allows it to be enabled (R316, Table 9-10). -/
def State.streamOk (s : State) (i : Nat) : Bool :=
  s.sourceOk i && decide (2 ≤ s.ringDepth i) && decide (s.ringDepth i ≤ 16)
    && decide (64 + s.lineCount i * s.lineStride i ≤ s.slotSize i)
    && decide (s.fld 0x0D F.STREAM_RING_BASE i % 4096 = 0)
    && s.spanOk (s.slotAddr i 0) (s.ringDepth i * s.slotSize i)

/-! ## Ring writes -/

/-- A write by the intake: performed at once on this chip, or on its way to another (`none`). -/
def State.ringPut (s : State) (a : Nat) (d : List Byte) : Option Status × State :=
  match s.place (BitVec.ofNat 48 a) with
  | .remote _ _ => (none, s)
  | p => let r := s.writeAt .intake p d; (some r.st, r.s)

/-- STATE of a slot header (Table 9-3). -/
def frameCode : CgState → Nat
  | .pending => 1 | .confirmed => 2 | .failed => 3

/-- The slot header (Table 9-3). -/
def State.slotHeader (s : State) (i : Nat) (f : Frame) (eof : Nat) : List Byte :=
  let csi := s.streamSrc i == 0
  leBytes 8 f.sof.toNat ++ leBytes 8 eof ++ leBytes 4 f.seq.toNat ++ leBytes 2 f.lines ++ leBytes 1 (frameCode f.st)
    ++ leBytes 1 f.reason ++ leBytes 2 f.frameNo.toNat
    ++ leBytes 1 (if csi then s.fld 0x0D F.STREAM_CFG_VC i else s.fld 0x0D F.STREAM_CFG_UNIT i)
    ++ leBytes 1 (if csi then s.fld 0x0D F.STREAM_CFG_DT i else 0) ++ leBytes 4 f.lastLen ++ List.replicate 32 0

/-- Ring writes that hold a tag. -/
def State.ringTags (s : State) : Nat := ((List.range 16).map fun i => ((s.stream i).writes.filter fun w => w.wait.isNone).length).sum

/-- Issues a write for frame `ord` of a stream, with `n` bytes of the line buffer; without a free tag of the 256 it waits (R344). -/
def State.ringWrite (s : State) (i ord n a : Nat) (d : List Byte) : State :=
  let r : Option Status × State := if s.ringTags < 256 then s.ringPut a d else (none, s)
  let w : RingWrite := ⟨ord, n, r.1, if s.ringTags < 256 then none else some (a, d)⟩
  r.2.setStream i { r.2.stream i with writes := (r.2.stream i).writes ++ [w] }

/-- The first write of a list that waits takes a tag. -/
def State.ringTake (s : State) (i : Nat) : List RingWrite → List RingWrite → State
  | _, [] => s
  | acc, w :: rest =>
    match w.wait with
    | some (a, d) =>
      let r := s.ringPut a d
      r.2.setStream i { r.2.stream i with writes := acc ++ { w with st := r.1, wait := none } :: rest }
    | none => State.ringTake s i (acc ++ [w]) rest

/-- A tag that has come free goes to a write that waits, of the lowest stream first (R344). -/
def State.ringNext (s : State) : State :=
  match (List.range 16).find? fun i => (s.stream i).writes.any fun w => w.wait.isSome with
  | some i => s.ringTake i [] (s.stream i).writes
  | none => s

/-- Writes a slot header: on this chip at once, on another as a ring write with a tag. A status other than OK records INTAKE_WR
(R344). The answer says that no failure is known. -/
def State.writeHeader (s : State) (i k : Nat) (f : Frame) (eof : Nat) : Bool × State :=
  let a := s.slotAddr i k
  match s.place (BitVec.ofNat 48 a) with
  | .remote _ _ => (true, s.ringWrite i f.ord 0 a (s.slotHeader i f eof))
  | _ =>
    let r := s.ringPut a (s.slotHeader i f eof)
    if r.1 = some .ok then (true, r.2) else (false, r.2.record 0x0D 4)

/-! ## Events and outcomes -/

/-- The CG identifier of a frame (R322). -/
def cgOf (i seq : Nat) : Nat := i + seq % 256 * 16

/-- The event Manifest to one consumer (R322, Table 9-4). -/
def State.eventManifest (s : State) (i k : Nat) (f : Frame) (kind n : Nat) : Manifest :=
  let p := kind + (i + k * 16) * 2 ^ 8 + f.lines % 65536 * 2 ^ 16 + f.seq.toNat * 2 ^ 32 + f.sof.toNat * 2 ^ 64
  let d := mPut (mPut (mPut 0 0 1 s.gx) 1 1 s.gy) 2 1 (n + s.fld 0x0D F.STREAM_CONS_QUEUE i * 64)
  mPut (mPut (mPut d 3 1 4) 4 2 (cgOf i f.seq.toNat)) 12 16 p

/-- Sends an event to every consumer (R322, R323). -/
def State.sendEvent (s : State) (i k : Nat) (f : Frame) (kind : Nat) : State :=
  (setBits 32 (s.consumers i)).foldl (fun t n => t.unitSend 36 (s.eventManifest i k f kind n)) s

/-- The outcome of a frame goes to the CG table of every consumer (R324, R328), and is what a group bound later finds
(R329). -/
def State.sendOutcome (s : State) (i : Nat) (f : Frame) (ok : Bool) : State :=
  let c := cgOf i f.seq.toNat
  (setBits 32 (s.consumers i)).foldl (fun t n =>
    let b := t.berth n
    let t1 := match Tab.find b.claims c with
      | some (q, _) => if q = f.seq then t.setBerth n { b with claims := Tab.put b.claims c (q, if ok then .confirmed else .failed) } else t
      | none => t
    { t1 with cgOut := t1.cgOut ++ [(n, c, ok)] }) s

/-! ## Slots -/

/-- The frame in a slot. -/
def State.frameAt (s : State) (i k : Nat) : Option Frame := Tab.find (s.stream i).slots k

/-- Stores a frame in a slot. -/
def State.setFrame (s : State) (i k : Nat) (f : Frame) : State :=
  s.setStream i { s.stream i with slots := Tab.put (s.stream i).slots k f }

/-- Empties a slot. -/
def State.freeSlot (s : State) (i k : Nat) : State :=
  s.setStream i { s.stream i with slots := Tab.del (s.stream i).slots k }

/-- A slot whose frame is decided becomes free when every consumer has released it (R319); a frame that every consumer has
skipped is counted (R342). -/
def State.checkFree (s : State) (i k : Nat) : State :=
  match s.frameAt i k with
  | none => s
  | some f =>
    let c := s.consumers i
    if f.st = .pending ∨ c &&& f.released.toNat ≠ c then s
    else
      let s1 := s.freeSlot i k
      if c ≠ 0 ∧ f.claimed = 0 then s1.count 0x0D F.STREAM_CNT_SKIPPED i 1 else s1

/-- The slot and frame for which packets arrive: filling, and its last packet has not come. -/
def State.filling (s : State) (i : Nat) : Option (Nat × Frame) :=
  (s.stream i).slots.find? fun c => c.2.st == .pending && !c.2.ended

/-- The frame in a slot fails (R325, R323, Table 9-6). -/
def State.failFrame (s : State) (i k : Nat) (f : Frame) (reason : Nat) : State :=
  let g := { f with st := .failed, reason := reason }
  let s1 := (s.setFrame i k g).writeHeader i k g s.tide.toNat
  let s2 := (s1.2.count 0x0D F.STREAM_CNT_FAILED i 1).setFld 0x0D F.STREAM_STAT_LAST_FAIL i reason
  (((s2.record 0x0D 1).sendEvent i k g 4).sendOutcome i g false).checkFree i k

/-- The frame in a slot confirms, unless its header cannot be written (R325, R323, R328, R344). -/
def State.confirmFrame (s : State) (i k : Nat) (f : Frame) : State :=
  let g := { f with st := .confirmed }
  let s1 := (s.setFrame i k g).writeHeader i k g s.tide.toNat
  if s1.1 then ((s1.2.sendEvent i k g 3).sendOutcome i g true).checkFree i k else s1.2.failFrame i k f 8

/-- A frame whose last packet has passed confirms when none of its ring writes is outstanding. -/
def State.tryConfirm (s : State) (i k : Nat) : State :=
  match s.frameAt i k with
  | none => s
  | some f =>
    if f.st = .pending ∧ f.ended ∧ (s.stream i).writes.all (fun w => w.ord != f.ord) then s.confirmFrame i k f else s

/-- A replacement or an edge drop (R341). -/
def State.surplus (s : State) (i : Nat) : State :=
  ((s.count 0x0D F.STREAM_CNT_DROPPED i 1).setFld 0x0D F.STREAM_STAT_SURPLUS i 1).record 0x0D 2

/-- The oldest frame that is decided and that no consumer has claimed (R340). -/
def victim (t : Tab Frame) : Option (Nat × Frame) :=
  (t.filter fun c => c.2.st != .pending && c.2.claimed == 0).foldl (fun best c =>
    match best with
    | none => some c
    | some b => if c.2.ord < b.2.ord then some c else some b) none

/-- Opens a frame in a slot: header and SOF event (R323, Table 9-3). -/
def State.openSlot (s : State) (i k : Nat) (seq : U32) (sof : U64) (frameNo : BitVec 16) : State :=
  let x := s.stream i
  let f : Frame := { seq := seq, ord := x.opened, sof := sof, frameNo := frameNo }
  let s1 := (s.setStream i { x with opened := x.opened + 1, slots := Tab.put x.slots k f }).writeHeader i k f 0
  let s2 := s1.2.sendEvent i k f 1
  if s1.1 then s2 else s2.failFrame i k f 8

/-- A start of frame on a stream: the frame in progress fails with reason 5; the new frame takes the lowest free slot,
replaces the oldest unclaimed decided frame, or is dropped at the edge (R314, R327, R340, R341). -/
def State.startFrame (s : State) (i : Nat) (sof : U64) (frameNo : BitVec 16) : State :=
  let s0 := match s.filling i with
    | some (k, f) => s.failFrame i k f 5
    | none => s
  let x := s0.stream i
  let seq := x.next
  let s1 := s0.setStream i { x with next := seq + 1 }
  match (List.range (s.ringDepth i)).find? fun k => (Tab.find x.slots k).isNone with
  | some k => s1.openSlot i k seq sof frameNo
  | none =>
    match victim x.slots with
    | some (k, f) => (((s1.surplus i).failFrame i k f 9).freeSlot i k).openSlot i k seq sof frameNo
    | none => s1.surplus i

/-! ## Lines -/

/-- RAW10 unpacked to 16 bits a pixel (Table 9-1): four bytes of bits [9:2], then the low bits of the four pixels. -/
def unpack10 : List Byte → List Byte
  | a :: b :: c :: d :: e :: t =>
    let px (h : Byte) (j : Nat) := leBytes 2 (h.toNat * 4 + e.toNat / 4 ^ j % 4)
    px a 0 ++ px b 1 ++ px c 2 ++ px d 3 ++ unpack10 t
  | _ => []

/-- RAW12 unpacked to 16 bits a pixel: two bytes of bits [11:4], then the low bits of the two pixels. -/
def unpack12 : List Byte → List Byte
  | a :: b :: c :: t => leBytes 2 (a.toNat * 16 + c.toNat % 16) ++ leBytes 2 (b.toNat * 16 + c.toNat / 16) ++ unpack12 t
  | _ => []

/-- The bytes a packet stores (Table 9-1). -/
def State.stored (s : State) (i : Nat) (d : List Byte) : List Byte :=
  let dt := s.fld 0x0D F.STREAM_CFG_DT i
  if s.fld 0x0D F.STREAM_CFG_UNPACK i = 1 ∧ dt = 0x2B then unpack10 d
  else if s.fld 0x0D F.STREAM_CFG_UNPACK i = 1 ∧ dt = 0x2C then unpack12 d
  else d

/-- Bytes that wait in the line buffer of receiver `r`: the lines of its streams whose ring writes are outstanding. -/
def State.buffered (s : State) (r : Nat) : Nat :=
  ((List.range 16).map fun i =>
    if s.streamSrc i = 0 ∧ s.fld 0x0D F.STREAM_CFG_UNIT i = r then ((s.stream i).writes.map (·.bytes)).foldl (· + ·) 0 else 0).foldl
    (· + ·) 0

/-- A BAND event is due after line number `n` (R323). -/
def State.bandDue (s : State) (i n : Nat) : Bool :=
  let b := s.fld 0x0D F.STREAM_SHAPE_BAND_LINES i
  let last := if s.streamSrc i = 1 then 1 else s.lineCount i      -- an Ethernet frame is one line (Table 9-2)
  b != 0 && (n % b == 0 || n == last)

/-- A line of `n` bytes lands as the stored bytes `d`: the ring write is issued, LINES_IN advances, BAND follows (R315, R323,
Table 9-3). -/
def State.landLine (s : State) (i k : Nat) (f : Frame) (n : Nat) (d : List Byte) : State :=
  let g := { f with lines := f.lines + 1, lastLen := n }
  let s1 := (s.ringWrite i f.ord n (s.slotAddr i k + 64 + f.lines * s.lineStride i) d).setFrame i k g
  if s.bandDue i g.lines then
    let h := s1.writeHeader i k g 0
    let s2 := h.2.sendEvent i k g 2
    if h.1 then s2 else s2.failFrame i k g 8
  else s1

/-- A line of a filling frame from a CSI-2 receiver: the packet's length, the count and the line buffer are checked (R325, R311,
Table 9-6). -/
def State.csiLine (s : State) (i k : Nat) (f : Frame) (d : List Byte) : State :=
  if d.length ≠ s.lineBytes i then s.failFrame i k f 3
  else if s.lineCount i ≤ f.lines then s.failFrame i k f 4
  else if 16384 < s.buffered (s.fld 0x0D F.STREAM_CFG_UNIT i) + d.length then (s.failFrame i k f 7).record 0x0D 3
  else s.landLine i k f d.length (s.stored i d)

/-- The last packet of a frame has passed: it confirms when its ring writes are done. -/
def State.endFrame (s : State) (i k : Nat) (f : Frame) : State := (s.setFrame i k { f with ended := true }).tryConfirm i k

/-! ## CSI-2 packets -/

/-- The active streams of a receiver's virtual channel. -/
def State.onChannel (s : State) (r vc : Nat) : List Nat :=
  (List.range 16).filter fun i => (s.stream i).active && s.streamSrc i == 0 && s.fld 0x0D F.STREAM_CFG_UNIT i == r
    && s.fld 0x0D F.STREAM_CFG_VC i == vc

/-- Fails the frame in progress of each stream of a list. -/
def State.failAll (s : State) (l : List Nat) (reason : Nat) : State :=
  l.foldl (fun t i => match t.filling i with
    | some (k, f) => t.failFrame i k f reason
    | none => t) s

/-- The receiver takes packets: the intake serves and the receiver is enabled. -/
def State.receives (s : State) (r : Nat) : Bool := s.serves intakeDomain && s.fld 0x0D F.RX_CFG_EN r == 1

/-- The header check of a packet on virtual channel `vc`: a corrected header is counted; an uncorrectable one fails the
frames in progress; a packet bound to no stream is counted (R311, R312). Otherwise `k` receives the state. -/
def State.packet (s : State) (r vc : Nat) (ecc : HdrEcc) (bound : List Nat) (k : State → State) : State :=
  if ecc = .uncorrectable then
    ((s.count 0x0D F.RX_STAT_ECC_UNCORR r 1).record 0x0D 0).failAll (s.onChannel r vc) 1
  else
    let s1 := if ecc = .corrected then s.count 0x0D F.RX_STAT_ECC_CORR r 1 else s
    if bound = [] then s1.count 0x0D F.RX_STAT_UNBOUND r 1 else k s1

/-- A Frame Start packet. -/
def execFrameStart (r : Fin 8) (vc : BitVec 4) (frameNo : BitVec 16) (ecc : HdrEcc) (s : State) : Out :=
  let l := s.onChannel r vc.toNat
  when (s.receives r) s (s.packet r vc.toNat ecc l fun t => l.foldl (fun u i => u.startFrame i u.tide frameNo) t)

/-- A long packet. Its CRC is checked whether or not it is bound (R311); one that is bound to no stream affects no frame (R312). -/
def execLinePacket (r : Fin 8) (vc : BitVec 4) (dt : BitVec 6) (data : List Byte) (ecc : HdrEcc) (crcOk : Bool)
    (s : State) : Out :=
  let l := (s.onChannel r vc.toNat).filter fun i => s.fld 0x0D F.STREAM_CFG_DT i == dt.toNat
  let s1 := if crcOk || ecc == .uncorrectable then s else (s.count 0x0D F.RX_STAT_CRC_ERR r 1).record 0x0D 0
  when (s.receives r) s (s1.packet r vc.toNat ecc l fun t =>
    if crcOk then l.foldl (fun u i => match u.filling i with
      | some (k, f) => u.csiLine i k f data
      | none => u) t
    else t.failAll (t.onChannel r vc.toNat) 2)

/-- The Frame End of a stream (R325). -/
def State.frameEndOf (s : State) (i : Nat) (frameNo : BitVec 16) : State :=
  match s.filling i with
  | none => s
  | some (k, f) =>
    if f.frameNo ≠ frameNo then s.failFrame i k f 6
    else if f.lines ≠ s.lineCount i then s.failFrame i k f 4
    else s.endFrame i k f

/-- A Frame End packet. -/
def execFrameEnd (r : Fin 8) (vc : BitVec 4) (frameNo : BitVec 16) (ecc : HdrEcc) (s : State) : Out :=
  let l := s.onChannel r vc.toNat
  when (s.receives r) s (s.packet r vc.toNat ecc l fun t => l.foldl (fun u i => u.frameEndOf i frameNo) t)

/-- FRAME_TO_MS as applied, in nanoseconds (Table 9-10). -/
def State.frameTimeoutNs (s : State) (i : Nat) : Nat :=
  let m := s.fld 0x0D F.STREAM_CFG_FRAME_TO_MS i
  (if m = 0 then 1023 else m) * 1000000

/-- A frame that is not decided FRAME_TO_MS after its stamp fails with reason 5 (R327). A Frame End in the nanosecond of the timeout
still confirms it (R345). -/
def execFrameTimeout (i : Fin 16) (s : State) : Out :=
  match (s.stream i).slots.find? fun c => c.2.st == .pending && decide (c.2.sof.toNat + s.frameTimeoutNs i < s.tide.toNat) with
  | some (k, f) => when (s.serves intakeDomain) s (s.failFrame i k f 5)
  | none => nothing s

/-- The oldest ring write of a stream completes (R344). On this chip its status is the memory's own. -/
def State.ringDone (s : State) (i : Nat) (w : RingWrite) (rest : List RingWrite) (st : Status) : State :=
  let s1 := (s.setStream i { s.stream i with writes := rest }).ringNext
  match s1.stream i |>.slots.find? fun c => c.2.ord == w.ord with
  | none => if st = .ok then s1 else s1.record 0x0D 4
  | some (k, f) =>
    if st = .ok then s1.tryConfirm i k
    else
      let s2 := s1.record 0x0D 4
      if f.st = .pending then
        let s3 := s2.failFrame i k f 8
        if s.streamSrc i = 2 ∧ f.ended = false then s3.setStream i { s3.stream i with skip := s.lineCount i - f.lines } else s3
      else s2

def execRingWriteComplete (i : Fin 16) (st : Status) (s : State) : Out :=
  match (s.stream i).writes with
  | [] => nothing s
  | w :: rest => when (w.wait.isNone && (w.st == none || w.st == some st)) s (s.ringDone i w rest st)

/-- No clock-lane activity for 10 ms on an enabled receiver (Table 9-5). -/
def execIntakeLink (r : Fin 8) (s : State) : Out := when (s.receives r) s (s.record 0x0D 5)

/-! ## Claims and releases -/

/-- The newest frame of a stream, filling or confirmed, that Berth `n` has not claimed (R318). -/
def State.claimable (s : State) (n i : Nat) : Option (Nat × Frame) :=
  ((s.stream i).slots.filter fun c => c.2.st != .failed && !c.2.claimed.getLsbD n && !c.2.released.getLsbD n).foldl
    (fun best c => match best with
      | none => some c
      | some b => if b.2.ord < c.2.ord then some c else some b) none

/-- Sets bit `n` of a mask. -/
def markBit (m : BitVec 32) (n : Nat) : BitVec 32 := m ||| BitVec.ofNat 32 (2 ^ n)

/-- Every older frame that the Berth has not claimed counts as released by it (R318, R342). -/
def State.skipOlder (s : State) (n i ord : Nat) : State :=
  (s.stream i).slots.foldl (fun t c =>
    if c.2.ord < ord ∧ c.2.claimed.getLsbD n = false then
      (t.setFrame i c.1 { c.2 with released := markBit c.2.released n }).checkFree i c.1
    else t) s

/-- The claim is noted for the groups that bind later (R329); its identifier names a new frame. -/
def State.noteClaim (s : State) (n i : Nat) (f : Frame) : State :=
  let b := s.berth n
  let c := cgOf i f.seq.toNat
  s.setBerth n { b with claims := Tab.put b.claims c (f.seq, f.st), cgDone := b.cgDone.filter (· != c) }

/-- A read of STREAM_CLAIM: the value and the state after it (R318). -/
def State.claim (s : State) (who : Requester) (i : Nat) : U64 × State :=
  match who with
  | .berth n =>
    if nbit (s.consumers i) n then
      match s.claimable n i with
      | none => (0, s)
      | some (k, f) =>
        let g := { f with claimed := markBit f.claimed n }
        (BitVec.ofNat 64 (2 ^ 63 + k * 2 ^ 48 + f.seq.toNat), ((s.setFrame i k g).noteClaim n i f).skipOlder n i f.ord)
    else (0, s)
  | _ => (0, s)

/-- A read of STREAM_CLAIM as a command: the response carries the value. -/
def execStreamClaim (who : Requester) (i : Fin 16) (s : State) : Out :=
  if !s.awake then nothing s
  else if s.serves intakeDomain then
    let r := s.claim who i
    .next { r.2 with resps := r.2.resps ++ [⟨who, 0, 0, .ok, leBytes 8 r.1.toNat⟩] }
  else .next { s with resps := s.resps ++ [⟨who, 0, 0, .down, List.replicate 8 0⟩] }

/-- A write of STREAM_REL with REL = 1: its status and the state after it (R319, R320). -/
def State.releaseFrame (s : State) (who : Requester) (i k : Nat) : Status × State :=
  match who, s.frameAt i k with
  | .berth n, some f =>
    if nbit (s.consumers i) n && decide (k < s.ringDepth i) && f.claimed.getLsbD n && !f.released.getLsbD n then
      (.ok, (s.setFrame i k { f with released := markBit f.released n }).checkFree i k)
    else (.poison, s)
  | _, _ => (.poison, s)

/-- STREAM_CNT cleared (Table 9-9). -/
def State.streamCntClr (s : State) (i : Nat) : State := s.clearReg 0x0D .STREAM_CNT i

/-- HOST_ERR takes the first host access that completed with a status other than OK, and NOT_OK counts it (R622). -/
def State.hostErr (s : State) (p : HostPath) (st : Status) (a : Nat) : State :=
  let code := match p with
    | .pcie => 0 | .spi => 1 | .i3c => 2 | .jtag => 3
  let s1 := s.count 0x10 F.HOST_CNT_NOT_OK 0 1
  if s1.fld 0x10 F.HOST_ERR_VALID 0 = 1 then s1
  else s1.setReg 0x10 .HOST_ERR 0 (BitVec.ofNat 64 (2 ^ 63 + code * 2 ^ 60 + statusCode st * 2 ^ 56 + a % 2 ^ 48))

/-- What a requester records for a posted register write that completes with a status other than OK (R134, R622). -/
def State.postedBad (s : State) (who : Requester) (st : Status) (addr : Nat) (pc : Nat) (word : U32) : State :=
  if st = .ok then s
  else match who with
    | .berth n => (s.storeFlt n st (BitVec.ofNat 48 addr) pc word).record (bslot n) 15
    | .host p => s.hostErr p st addr
    | _ => s

def execStreamRel (who : Requester) (i : Fin 16) (slot : BitVec 4) (s : State) : Out :=
  if !s.awake then nothing s
  else
    let r := if s.serves intakeDomain then s.releaseFrame who i slot.toNat else (.down, s)
    let pc := match who with
      | .berth n => (s.berth n).pc
      | _ => 0
    .next (r.2.postedBad who r.1 (regBase + 0x0D0000 + 0x580 + 0x40 * i) pc 0)

/-- CNT_CLR clears STREAM_CNT, from any requester (R320). -/
def execStreamCntClr (_who : Requester) (i : Fin 16) (s : State) : Out := when (s.serves intakeDomain) s (s.streamCntClr i)

/-- The slots of a stream whose consumers have changed: those that every remaining consumer has released become free (R319). -/
def State.recheck (s : State) (i : Nat) : State := (s.stream i).slots.foldl (fun t c => t.checkFree i c.1) s

/-- Every claim is void (R347). -/
def State.voidClaims (s : State) : State := { s with berths := s.berths.map fun b => (b.1, { b.2 with claims := [] }) }

/-- A Berth's slots count as released (R36). -/
def State.berthGone (s : State) (n : Nat) : State :=
  (List.range 16).foldl (fun t i =>
    (t.stream i).slots.foldl (fun u c =>
      if c.2.claimed.getLsbD n then (u.setFrame i c.1 { c.2 with released := markBit c.2.released n }).checkFree i c.1 else u) t) s

/-- The range lies in the ring slot of a frame that Berth `n` has claimed and not released (R330). -/
def State.claimedRing (s : State) (n a len : Nat) : Bool :=
  (List.range 16).any fun i => (s.stream i).slots.any fun c =>
    let lo := (s.localAddr (BitVec.ofNat 48 (s.slotAddr i c.1))).toNat
    c.2.claimed.getLsbD n && !c.2.released.getLsbD n && decide (lo ≤ a) && decide (a + len ≤ lo + s.slotSize i)

/-! ## Enabling and disabling -/

/-- Every filling frame of a stream fails with reason 11 (R346). -/
def State.stopStream (s : State) (i : Nat) : State :=
  let s1 := (s.stream i).slots.foldl (fun t c => if c.2.st = .pending then t.failFrame i c.1 c.2 11 else t) s
  s1.setStream i { s1.stream i with active := false }

/-- The stream starts: frame numbering at 0, slots that no consumer holds free (R314, R321). -/
def State.startStream (s : State) (i : Nat) : State :=
  let x := s.stream i
  s.setStream i { x with active := true, cfgErr := false, next := 0, writes := [], skip := 0,
                         slots := x.slots.filter fun c => c.2.claimed &&& ~~~c.2.released != 0 }

/-- What follows a change of STREAM_CFG, STREAM_SHAPE, STREAM_RING or STREAM_FILT: an active stream stops; an enabled one
whose configuration is right starts, any other sets CFG_ERR (R316). -/
def State.reconfigure (s : State) (i : Nat) : State :=
  let s1 := if (s.stream i).active then s.stopStream i else s
  if s.fld 0x0D F.STREAM_CFG_EN i = 0 then s1.setStream i { s1.stream i with cfgErr := false }
  else if s1.streamOk i then s1.startStream i
  else s1.setStream i { s1.stream i with cfgErr := true }

/-- A write of STREAM_CFG.EN with the other fields unchanged. -/
def State.streamEn (s : State) (who : Requester) (i en : Nat) : State :=
  if s.mayRwl who 0x0D then
    if s.fld 0x0D F.STREAM_CFG_EN i = en then s
    else
      let s1 := if en = 0 ∧ (s.stream i).active then s.stopStream i else s
      (s1.setFld 0x0D F.STREAM_CFG_EN i en).reconfigure i
  else s.rwlField 0x0D F.STREAM_CFG_EN i en who id

def execStreamEnable (who : Requester) (i : Fin 16) (s : State) : Out := when (s.serves intakeDomain) s (s.streamEn who i 1)
def execStreamDisable (who : Requester) (i : Fin 16) (s : State) : Out := when (s.serves intakeDomain) s (s.streamEn who i 0)

/-- The intake enters DRAIN: every filling frame fails with reason 11 (R346). -/
def State.intakeDrain (s : State) : State := (List.range 16).foldl State.stopStream s

/-- The intake's state after a switch-on, a reset or a power-off (R347). -/
def State.intakeClear (s : State) : State := { s with streams := [], fsyncDone := [], fsyncEnd := [] }

/-- STREAM_STAT as it reads (Table 9-11). -/
def State.streamStat (s : State) (i : Nat) : U64 :=
  let x := s.stream i
  let free := if x.active then maskOf (List.range (s.ringDepth i)) fun k => (Tab.find x.slots k).isNone else 0
  let fill := match x.slots.find? fun c => c.2.st == .pending with
    | some (k, _) => 8 + k * 16
    | none => 0
  BitVec.ofNat 64 (x.next.toNat * 2 ^ 32 + free * 2 ^ 16 + s.fld 0x0D F.STREAM_STAT_LAST_FAIL i * 256 + fill
    + s.fld 0x0D F.STREAM_STAT_SURPLUS i * 4 + b2n x.cfgErr * 2 + b2n x.active)

/-! ## Field sources (Table 9-2, R326) -/

/-- The active streams of a field source. -/
def State.fieldStreams (s : State) (src unit : Nat) (p : Nat → Bool) : List Nat :=
  (List.range 16).filter fun i => (s.stream i).active && s.streamSrc i == src && s.fld 0x0D F.STREAM_CFG_UNIT i == unit && p i

/-- A line of a field source: longer than LINE_BYTES fails the frame with reason 3. -/
def State.fieldLine (s : State) (i : Nat) (d : List Byte) : State :=
  match s.filling i with
  | none => s
  | some (k, f) => if s.lineBytes i < d.length then s.failFrame i k f 3 else s.landLine i k f d.length d

/-- An Ethernet frame on a stream: one line; FCS failure is reason 12 (R326). -/
def State.ethFrame (s : State) (i : Nat) (payload : List Byte) (stamp : U64) (fcsOk : Bool) : State :=
  let s1 := s.startFrame i stamp 0
  match s1.filling i with
  | none => s1
  | some (k, f) =>
    if !fcsOk then s1.failFrame i k f 12
    else
      let s2 := s1.fieldLine i payload
      match s2.filling i with
      | some (k2, f2) => s2.endFrame i k2 f2
      | none => s2

/-- The messages that a dropped or failed CAN frame still has to come are discarded (R344). -/
def State.setSkip (s : State) (i n : Nat) : State := s.setStream i { s.stream i with skip := n }

/-- A message of the frame in progress of a CAN stream. -/
def State.canNext (s : State) (i : Nat) (d : List Byte) : State :=
  match s.filling i with
  | none => s.setSkip i (s.lineCount i - 1)
  | some (_, f0) =>
    let t := s.fieldLine i d
    match t.filling i with
    | some (k, f) => if s.lineCount i ≤ f.lines then t.endFrame i k f else t
    | none => t.setSkip i (s.lineCount i - 1 - f0.lines)

/-- A matching CAN message on a stream: the first opens the frame, the LINES-th ends it (Table 9-2). -/
def State.canLine (s : State) (i : Nat) (d : List Byte) (stamp : U64) : State :=
  if (s.stream i).skip ≠ 0 then s.setSkip i ((s.stream i).skip - 1)
  else match s.filling i with
    | some _ => s.canNext i d
    | none => (s.startFrame i stamp 0).canNext i d

/-- A matching message was lost: the frame in progress fails with reason 12 (Table 9-6). -/
def State.canLost (s : State) (i : Nat) : State :=
  match s.filling i with
  | some (k, f) => s.failFrame i k f 12
  | none => s

/-! ## FSYNC (R338, R339) -/

/-- Pulses of FSYNC `k` scheduled up to a tide time, that time included when `incl`. -/
def State.fsyncCount (s : State) (k : Nat) (incl : Bool) : Nat :=
  let st := (s.reg 0x0D .FSYNC_START k).toNat
  let p := s.fld 0x0D F.FSYNC_PER_PERIOD k
  let t := s.tide.toNat + b2n incl
  if p = 0 then 0 else cdiv (t - st) p

/-- PERIOD and WIDTH lie in their ranges. -/
def State.fsyncOk (s : State) (k : Nat) : Bool :=
  let p := s.fld 0x0D F.FSYNC_PER_PERIOD k
  let w := s.fld 0x0D F.FSYNC_PER_WIDTH k
  decide (1000 ≤ p) && decide (10 ≤ w) && decide (w + 10 ≤ p)

/-- A write of FSYNC_START or FSYNC_PER: pulses scheduled before now have passed. -/
def State.fsyncSet (s : State) (k : Nat) : State := { s with fsyncDone := Tab.set 0 s.fsyncDone k (s.fsyncCount k false) }

def execFsyncPulse (k : Fin 8) (s : State) : Out :=
  when (s.serves intakeDomain && s.fld 0x0D F.FSYNC_PER_EN k == 1 && s.fsyncOk k
      && decide (Tab.get 0 s.fsyncDone k < s.fsyncCount k true)) s
    { s with fsyncDone := Tab.set 0 s.fsyncDone k (s.fsyncCount k true),
             fsyncEnd := Tab.put s.fsyncEnd k (s.tide + BitVec.ofNat 64 (s.fld 0x0D F.FSYNC_PER_WIDTH k)) }

def execFsyncPulseEnd (k : Fin 8) (s : State) : Out :=
  match Tab.find s.fsyncEnd k with
  | some t => when (decide (t.toNat ≤ s.tide.toNat)) s { s with fsyncEnd := Tab.del s.fsyncEnd k }
  | none => nothing s

end Sys2Proof.Machine
end

