-- ==== Sys2Proof/Machine/Cg.lean ====
section
/-! DEFINITION. Confirmation groups and the shadow region: the CG table, line tags, COMMIT, SQUASH and the outcome of a frame
(04_sequencer_work_orders.md R151 to R153, 09_sensor_intake_commit.md R329 to R337).
Log entries: 25 DEDUCED, 29 DEDUCED, 38 DEDUCED, 85 DEDUCED. -/

namespace Sys2Proof.Machine

/-! ## The CG table -/

/-- The outstanding group with an identifier, and its entry. -/
def Berth.cg (b : Berth) (id : Nat) : Option (Nat × Cg) := b.cgs.find? fun c => c.2.id == id

/-- Identifiers of the outstanding groups. -/
def Berth.cgIds (b : Berth) : List Nat := b.cgs.map (·.2.id)

/-- A line's tag (R329). -/
def Berth.line (b : Berth) (l : Nat) : Option LineTag := Tab.find b.lines l

/-- The lines of 256 bytes that a Hold range touches inside the shadow region. -/
def State.shadowLines (s : State) (n off len : Nat) : List Nat :=
  let r := s.shadowRange n
  (List.range ((off + len + 255) / 256 - off / 256)).filterMap fun i =>
    let l := off / 256 + i
    if r.1 ≤ l * 256 ∧ l * 256 < r.2 ∧ 0 < len then some l else none

/-- Lines tagged with a group become FREE (R336). -/
def Berth.freeLines (b : Berth) (id : Nat) : Berth := { b with lines := b.lines.filter fun c => c.2 != .cg id }

/-- A group fails (R336). -/
def Berth.failOne (b : Berth) (id : Nat) : Berth :=
  { b.freeLines id with cgs := b.cgs.map fun c => if c.2.id = id then (c.1, { c.2 with st := .failed }) else c }

/-- Every group that depends on one of the list fails, in `fuel` rounds (R335). -/
def Berth.failDeps : Nat → Berth → List Nat → Berth
  | 0, b, _ => b
  | fuel + 1, b, ids =>
    let hit := (b.cgs.filter fun c => c.2.st != .failed && c.2.deps.any ids.contains).map (·.2.id)
    if hit = [] then b else Berth.failDeps fuel (hit.foldl Berth.failOne b) hit

/-- A group fails, and with it every group that depends on it (R335, R336). -/
def Berth.failCg (b : Berth) (id : Nat) : Berth := Berth.failDeps 4 (b.failOne id) [id]

/-- A group leaves the table: it is committed or squashed. An operation held only for it is released (R153). -/
def Berth.closeCg (b : Berth) (id : Nat) : Berth :=
  let b1 := { b with cgs := (b.cgs.filter fun c => c.2.id != id).map fun c => (c.1, { c.2 with deps := c.2.deps.filter (· != id) }),
                     cgDone := if b.cgDone.contains id then b.cgDone else b.cgDone ++ [id] }
  match b.wait with
  | .hold ids =>
    let rest := ids.filter (· != id)
    if rest = [] then { b1 with wait := .none, seq := .running } else { b1 with wait := .hold rest }
  | _ => b1

/-- The lowest free entry of the CG table. -/
def Berth.cgEntry (b : Berth) : Option Nat := (List.range 4).find? fun j => (Tab.find b.cgs j).isNone

/-- A group becomes outstanding and binds to the most recent frame claimed under its identifier (R329). -/
def Berth.openCg (b : Berth) (id : Nat) : Berth :=
  match b.cgEntry with
  | none => b
  | some j =>
    let st := match Tab.find b.claims id with
      | some (_, st) => st
      | none => .failed
    let ord := b.cgs.foldl (fun m c => if m ≤ c.2.ord then c.2.ord + 1 else m) 0
    { b with cgs := Tab.put b.cgs j { id := id, ord := ord, st := st } }

/-- Adds dependencies; a group that depends on a failed one fails (R331, R332, R335). -/
def Berth.addDeps (b : Berth) (id : Nat) (deps : List Nat) : Berth :=
  let b1 : Berth := { b with cgs := b.cgs.map fun c => if c.2.id = id then (c.1, { c.2 with deps := c.2.deps ++ deps.filter fun d => !c.2.deps.contains d }) else c }
  if b1.cgs.any fun c => deps.contains c.2.id && c.2.st == .failed then b1.failCg id else b1

/-- The outstanding groups with which the shadow lines of a Hold range are tagged. -/
def State.lineCgs (s : State) (n off len : Nat) : List Nat :=
  (s.shadowLines n off len).filterMap fun l => match (s.berth n).line l with
    | some (.cg id) => some id
    | _ => none

/-- The group of a speculative write of a Hold range depends on the groups of the lines it touches (R332). -/
def State.dependOn (s : State) (n off len id : Nat) : State :=
  s.setBerth n ((s.berth n).addDeps id ((s.lineCgs n off len).filter (· != id)))

/-- A speculative write of a Hold range: its group depends on the groups of the lines it touches, and every shadow line it touches
becomes tagged with it, a FREE line holding zero first; of a failed group it becomes FREE (R330, R332, R336, R337). -/
def State.tagLines (s0 : State) (n off len id : Nat) : State :=
  let s := s0.dependOn n off len id
  let dead : Bool := match (s.berth n).cg id with
    | some (_, c) => c.st == .failed
    | none => true
  (s.shadowLines n off len).foldl (fun t l =>
    let b := t.berth n
    if dead then t.setBerth n { b with lines := Tab.del b.lines l }
    else
      let t1 := if (b.line l).isNone then t.holdPut n (l * 256) (List.replicate 256 0) else t
      let b1 := t1.berth n
      t1.setBerth n { b1 with lines := Tab.put b1.lines l (.cg id) }) s

/-- A speculative write of bytes into the own Hold. -/
def State.specWrite (s : State) (n off id : Nat) (d : List Byte) : State := (s.tagLines n off d.length id).holdPut n off d

/-- BERTH_CG as it reads (Table 9-12). -/
def State.berthCg (s : State) (n : Nat) : U64 :=
  BitVec.ofNat 64 (((s.berth n).cgs.map fun c =>
    let st := match c.2.st with
      | .pending => 0 | .confirmed => 1 | .failed => 2
    (0x8000 + st * 0x2000 + c.2.id % 4096) * 2 ^ (16 * c.1)).foldl (· + ·) 0)

/-! ## The speculation hold (R153) -/

/-- Holds the present instruction until every outstanding group has been committed or squashed. -/
def State.hold (s : State) (n : Nat) : State :=
  let b := s.berth n
  s.setBerth n { b with seq := .waiting, wait := .hold b.cgIds }

/-- An operation of R153 is held while a group is outstanding; otherwise it goes on. -/
def State.unlessHeld (s : State) (n : Nat) (k : State) : State := if (s.berth n).cgs = [] then k else s.hold n

/-! ## COMMIT and SQUASH -/

/-- Bits of a work-order descriptor. -/
def wBits (d : BitVec 512) (hi lo : Nat) : Nat := d.toNat / 2 ^ lo % 2 ^ (hi + 1 - lo)

/-- The group of a speculative work order (Table 4-5). -/
def woCg (d : BitVec 512) : Option Nat := if wBits d 26 26 = 1 then some (wBits d 43 32) else none

/-- A work order of a group is in the queue. -/
def Berth.cgBusy (b : Berth) (id : Nat) : Bool := b.woq.any fun w => woCg w.desc == some id

/-- An instruction writes a status to Gd and E, and retires (R129). -/
def Berth.answer (b : Berth) (d : Nat) (st : Status) : Berth := ((b.setG d (statusWord st)).setE st).resume

/-- COMMIT: a group that is not outstanding returns POISON at once (R151). -/
def execCommit (n : Fin 32) (d a : Fin 16) (s : State) : Out :=
  s.issue (.commit n d a) n fun _ t =>
    let b := t.berth n
    let id := (b.gr a).toNat
    match b.cg id with
    | some _ => t.setBerth n { b with seq := .waiting, wait := .commit d id }
    | none => t.setBerth n (b.answer d .poison)

/-- A failed group is discarded (R151, R336). -/
def Berth.discard (b : Berth) (id : Nat) : Berth := (b.failCg id).closeCg id

/-- The lines of a group become COMMITTED (R335). -/
def Berth.publish (b : Berth) (id : Nat) : Berth :=
  let b1 : Berth := { b with lines := b.lines.map fun c => if c.2 = .cg id then (c.1, .committed) else c }
  b1.closeCg id

/-- The waiting COMMIT of a group completes when the group is decided, its work orders have completed and the groups it
depends on are committed (R151, R335). -/
def execCommitPublish (n : Fin 32) (s : State) : Out :=
  let b := s.berth n
  match b.wait with
  | .commit d id =>
    if !s.serves n || b.cgBusy id then nothing s
    else match b.cg id with
      | none => .next (s.setBerth n (b.answer d .poison))
      | some (_, c) =>
        match c.st with
        | .failed => .next (s.setBerth n ((b.discard id).answer d .poison))
        | .pending => nothing s
        | .confirmed => if c.deps = [] then .next (s.setBerth n ((b.publish id).answer d .ok)) else nothing s
  | _ => nothing s

/-- Counts the events of a work order in FMT_CNT and FMC_CNT: FLUSH, SAT, BADCODE, CLAMP, NAN and BADCODE (R198, R368). -/
def State.countEvents (s : State) (n : Nat) (ev : List Nat) : State :=
  let add (t : State) (f : Fld) (k : Nat) : State := if ev.getD k 0 = 0 then t else t.count (bslot n) f 0 (ev.getD k 0)
  add (add (add (add (add (add s F.FMT_CNT_FLUSH 0) F.FMT_CNT_SAT 1) F.FMT_CNT_BADCODE 2) F.FMC_CNT_CLAMP 3) F.FMC_CNT_NAN 4)
    F.FMC_CNT_BADCODE 5

/-- The work orders of a group that are in progress count the events of the elements they have written, and end their read holds
(R198, R391). -/
def State.countStopped (s : State) (n id : Nat) : State :=
  let ws := (s.berth n).woq.filter fun w => woCg w.desc == some id && w.running
  (ws.foldl (fun t w => t.countEvents n w.events) s).endHolds ws

/-- A Crane request serves one of the work orders with the given sequence numbers. -/
def TagUse.serves (u : TagUse) (qs : List U32) : Bool :=
  match u with
  | .woRead q _ => qs.contains q
  | .woWrite q => qs.contains q
  | _ => false

/-- The work orders of a group leave the queue without updating a Buoy (R152). Their Crane requests that have not left are
withdrawn, and what the others bring is discarded. -/
def Berth.dropWork (b : Berth) (id : Nat) : Berth :=
  let qs := (b.woq.filter fun w => woCg w.desc == some id).map (·.seq)
  { b with woq := b.woq.filter fun w => woCg w.desc != some id,
           tags := (b.tags.filter fun t => t.2.sent || !t.2.use.serves qs).map fun t =>
             if t.2.use.serves qs then (t.1, { t.2 with use := .gone }) else t,
           held := b.held.filter fun h => !h.2.2.serves qs }

/-- SQUASH (R152, R336). -/
def execSquash (n : Fin 32) (a : Fin 16) (s : State) : Out :=
  s.issue (.squash n a) n fun _ t =>
    let b := t.berth n
    let id := (b.gr a).toNat
    match b.cg id with
    | some _ =>
      let t1 := t.countStopped n id
      t1.setBerth n (((t1.berth n).dropWork id).discard id).next
    | none => t.setBerth n b.next

/-- The outcome of a frame reaches a Berth's CG table: the pending group of its identifier confirms or fails (R328). -/
def Berth.outcome (b : Berth) (id : Nat) (ok : Bool) : Berth :=
  match b.cg id with
  | some (j, c) =>
    if c.st ≠ .pending then b
    else if ok then { b with cgs := Tab.put b.cgs j { c with st := .confirmed } } else b.failCg id
  | none => b

def execCgOutcome (n : Fin 32) (cg : BitVec 12) (confirm : Bool) (s : State) : Out :=
  when (s.cgOut.contains (n.val, cg.toNat, confirm)) s
    ({ s with cgOut := s.cgOut.erase (n.val, cg.toNat, confirm) }.setBerth n ((s.berth n).outcome cg.toNat confirm))

end Sys2Proof.Machine
end

