-- ==== Sys2Proof/Machine/Wharf.lean ====
section
/-! DEFINITION. The Wharfinger: pools, page tables, its commands, KVAPPEND and the pages ATTNBLK reads, stowing and retention
(11_attention_wharfinger.md).
Log entries: 41 DEDUCED, 86 DEDUCED, 87 DEDUCED, 89 DEDUCED, 131 DEDUCED, 133 DEDUCED, 134 DEDUCED. -/

namespace Sys2Proof.Machine

/-! ## Pools -/

/-- What a pool's registers say. -/
def State.poolCfg (s : State) (p : Nat) : Pool :=
  { fmt := s.fld 0x0E F.KV_POOL_CFG_FMT p, dec := s.fld 0x0E F.KV_POOL_CFG_DEC p, dim := 32 * s.fld 0x0E F.KV_POOL_CFG_DIM32 p,
    layers := s.fld 0x0E F.KV_POOL_CFG_LAYERS p, heads := s.fld 0x0E F.KV_POOL_CFG_HEADS p,
    part := s.fld 0x0E F.KV_POOL_CFG_PART p, base := s.fld 0x0E F.KV_POOL_MEM_BASE p,
    first := s.fld 0x0E F.KV_POOL_PAGES_FIRST p, count := s.fld 0x0E F.KV_POOL_PAGES_COUNT p,
    seqFirst := s.fld 0x0E F.KV_POOL_SEQ_SEQ_FIRST p, seqCount := s.fld 0x0E F.KV_POOL_SEQ_SEQ_COUNT p,
    maxp := s.fld 0x0E F.KV_POOL_SEQ_MAXP p, mapBase := s.fld 0x0E F.KV_POOL_SEQ_MAP_BASE p,
    khead := s.fld 0x0E F.KV_POOL_QUANT_KHEAD p, floor := s.fld 0x0E F.KV_POOL_QUANT_FLOOR p,
    smscale := s.fld 0x0E F.KV_POOL_QUANT_SMSCALE p }

/-- The pool is enabled. -/
def State.poolOn (s : State) (p : Nat) : Bool := s.fld 0x0E F.KV_POOL_CFG_EN p == 1 && (Tab.find s.wharf.pools p).isSome

def State.poolSt (s : State) (p : Nat) : PoolSt := (Tab.find s.wharf.pools p).getD {}
def State.setPool (s : State) (p : Nat) (x : PoolSt) : State := { s with wharf := { s.wharf with pools := Tab.put s.wharf.pools p x } }

/-- Slots of a sequence: UNITS × 2 × MAXP. -/
def Pool.span (p : Pool) : Nat := p.units * 2 * p.maxp

/-- Ranges `[a, a + n)` and `[b, b + m)` overlap. -/
def overlap (a n b m : Nat) : Bool := decide (a < b + m) && decide (b < a + n) && decide (0 < n) && decide (0 < m)

/-- The pool's memory lies in the Basin or in usable LPDDR5X (R369, R370). -/
def State.poolMem (s : State) (p : Pool) : Bool :=
  let len := p.tsize + p.count * p.stride
  decide (p.base + len ≤ s.usableTop) || (decide (basinBase ≤ p.base) && decide (p.base + len ≤ basinBase + 0x1000000))

/-- A field of the pool lies outside its range (R369). -/
def Pool.badRange (p : Pool) : Bool :=
  !([1, 4, 10].contains p.fmt) || !([4, 6].contains p.dec) || decide (p.dim < 32) || decide (256 < p.dim)
    || decide (p.layers < 1) || decide (64 < p.layers) || decide (p.heads < 1) || decide (64 < p.heads)
    || decide (p.count < 1) || decide (65536 < p.count) || decide (p.seqCount < 1) || decide (4096 < p.seqCount)
    || decide (p.maxp < 1) || decide (p.base % 4096 ≠ 0)

/-- The Wharfinger does not enable the pool (R370). -/
def State.poolBad (s : State) (i : Nat) : Bool :=
  let p := s.poolCfg i
  p.badRange || decide (65536 < p.first + p.count) || decide (4096 < p.seqFirst + p.seqCount)
    || decide (327680 < p.mapBase + p.seqCount * p.span) || !s.poolMem p
    || (List.range 4).any fun j =>
      let q := s.poolCfg j
      j != i && s.poolOn j &&
        (overlap p.first p.count q.first q.count || overlap p.seqFirst p.seqCount q.seqFirst q.seqCount
          || overlap p.mapBase (p.seqCount * p.span) q.mapBase (q.seqCount * q.span))

/-- The enabled pool in whose range a sequence lies. -/
def State.poolOf (s : State) (q : Nat) : Option Nat :=
  (List.range 4).find? fun p => s.poolOn p && decide ((s.poolCfg p).seqFirst ≤ q)
    && decide (q < (s.poolCfg p).seqFirst + (s.poolCfg p).seqCount)

/-! ## Page tables (Tables 11-2 to 11-4) -/

def descAt (page : Nat) : Nat := pageTables + page * 8
def seqAt (q : Nat) : Nat := pageTables + 0x80000 + q * 64
def slotAt (i : Nat) : Nat := pageTables + 0xC0000 + i * 4

/-- A page descriptor. -/
def State.desc (s : State) (page : Nat) : U64 := BitVec.ofNat 64 (s.num (descAt page) 8)
def State.setDesc (s : State) (page : Nat) (v : U64) : State :=
  ((s.putNum (descAt page) 8 v.toNat).setEcc (descAt page) 0 0).setEcc (descAt page) 1 0
def refcnt (v : U64) : Nat := bitsOf v 15 0

/-- A descriptor of a page in use. -/
def descOf (pool kind fill ref : Nat) (req dirty : Bool) : U64 :=
  BitVec.ofNat 64 (ref + fill * 2 ^ 24 + pool * 2 ^ 32 + kind * 2 ^ 34 + b2n req * 2 ^ 37 + b2n dirty * 2 ^ 38)

/-- A descriptor of a free page: KIND = 0 and NEXT; the last page of the list names itself. -/
def freeDesc (pool next : Nat) : U64 := BitVec.ofNat 64 (pool * 2 ^ 32 + next * 2 ^ 48)

/-- STATE, LEN and HOLDS of a sequence entry. -/
def State.seqState (s : State) (q : Nat) : Nat := (s.byte (seqAt q)).toNat
def State.seqLen (s : State) (q : Nat) : Nat := s.num (seqAt q + 4) 4
def State.seqHolds (s : State) (q : Nat) : Nat := (s.byte (seqAt q + 8)).toNat
def State.setHolds (s : State) (q n : Nat) : State := s.putByte (seqAt q + 8) (BitVec.ofNat 8 n)

/-- Writes a sequence entry. -/
def State.setSeq (s : State) (q st pool len holds : Nat) : State :=
  s.putBytes (seqAt q) ([BitVec.ofNat 8 st, BitVec.ofNat 8 pool, 0, 0] ++ leBytes 4 len ++ [BitVec.ofNat 8 holds])

/-- The map slot of page index `b` of unit `u`, kind `k` (R374). -/
def Pool.slotIx (p : Pool) (q u k b : Nat) : Nat := p.mapBase + (q - p.seqFirst) * p.span + (u * 2 + k) * p.maxp + b

/-- A map slot. -/
def State.mslot (s : State) (i : Nat) : U64 := BitVec.ofNat 64 (s.num (slotAt i) 4)
def State.setMslot (s : State) (i page used : Nat) : State := s.putNum (slotAt i) 4 (page + used * 2 ^ 16 + 2 ^ 31)
def State.clearMslot (s : State) (i : Nat) : State := s.putNum (slotAt i) 4 0

/-- Page and USED of the valid slots of a unit and kind, by page index. -/
def State.unitSlots (s : State) (p : Pool) (q u k : Nat) : List (Nat × Nat × Nat) :=
  (List.range p.maxp).filterMap fun b =>
    let v := s.mslot (p.slotIx q u k b)
    if bitsOf v 31 31 = 1 then some (b, bitsOf v 15 0, bitsOf v 22 16) else none

/-- The length of a unit (R375). -/
def State.unitLen (s : State) (p : Pool) (q u : Nat) : Nat :=
  let l := s.unitSlots p q u 0
  match l.getLast? with
  | none => 0
  | some (_, _, used) => 64 * (l.length - 1) + used

/-- LEN takes the smallest unit length (R375). -/
def State.updateLen (s : State) (p : Pool) (q : Nat) : State :=
  let l := (List.range p.units).map fun u => s.unitLen p q u
  s.putNum (seqAt q + 4) 4 (l.foldl min (l.headD 0))

/-- Every valid slot of a sequence: its index and its page. -/
def State.seqSlots (s : State) (p : Pool) (q : Nat) : List (Nat × Nat) :=
  (List.range p.span).filterMap fun j =>
    let i := p.mapBase + (q - p.seqFirst) * p.span + j
    let v := s.mslot i
    if bitsOf v 31 31 = 1 then some (i, bitsOf v 15 0) else none

/-- The table words that an operation on a sequence reads: its entry, its map span and its pages' descriptors. -/
def State.seqWords (s : State) (p : Pool) (q : Nat) : List Nat :=
  wordsOf (seqAt q) 64 ++ wordsOf (slotAt (p.slotIx q 0 0 0)) (4 * p.span) ++ (s.seqSlots p q).map fun x => descAt x.2

/-- The words of a pool's descriptors, and of all its tables. -/
def Pool.descWords (p : Pool) : List Nat := wordsOf (descAt p.first) (8 * p.count)
def Pool.tableWords (p : Pool) : List Nat :=
  p.descWords ++ wordsOf (seqAt p.seqFirst) (64 * p.seqCount) ++ wordsOf (slotAt p.mapBase) (4 * (p.seqCount * p.span))

/-- Reads of table words: correctable errors are corrected, a word that is uncorrectable in both copies ends the operation with
POISON, one that is in one copy makes the halves differ (R410). -/
def State.tableCheck (s : State) (ws : List Nat) : Option Status × State :=
  match s.readWords (.tables 0) ws with
  | (.ok, t) => (none, t)
  | (st, t) => (some st, t)

/-! ## The free list (R376) -/

/-- Stores a pool's free list, each page naming the next. -/
def State.linkFree (s : State) (p : Nat) : List Nat → State
  | [] => s
  | [a] => s.setDesc a (freeDesc p a)
  | a :: b :: t => State.linkFree (s.setDesc a (freeDesc p b)) p (b :: t)

/-- Takes the head of the free list. -/
def State.allocPage (s : State) (p : Nat) : Nat × State :=
  match (s.poolSt p).free with
  | [] => (0, s)
  | a :: rest => (a, s.setPool p { s.poolSt p with free := rest })

/-- A freed page becomes the head. -/
def State.freePage (s : State) (p page : Nat) : State :=
  let l := (s.poolSt p).free
  (s.setPool p { s.poolSt p with free := page :: l }).setDesc page (freeDesc p (l.headD page))

/-- Releases one slot's page (R386). -/
def State.releasePage (s : State) (p page : Nat) : State :=
  let v := s.desc page
  if refcnt v ≤ 1 then s.freePage p page else s.setDesc page (withBits v 15 0 (refcnt v - 1))

/-- An enabled pool starts empty (R376). -/
def State.poolEmpty (s : State) (i : Nat) : State :=
  let p := s.poolCfg i
  let l := (List.range p.count).map (p.first + ·)
  let s1 := ((s.wipe (descAt p.first) (descAt (p.first + p.count))).wipe (seqAt p.seqFirst) (seqAt (p.seqFirst + p.seqCount))).wipe
    (slotAt p.mapBase) (slotAt (p.mapBase + p.seqCount * p.span))
  (s1.setPool i { free := l, wait := 0 }).linkFree i l

/-- What follows a write of a pool's registers: a pool that becomes enabled is checked (R370) and starts empty, or waits
for its restore or unstow (R400, R401). At wake a pool without a save area has none that passes its CRC. -/
def State.poolUpdate (s : State) (i : Nat) : State :=
  if s.fld 0x0E F.KV_POOL_CFG_EN i = 0 then
    { s.setFld 0x0E F.KV_POOL_STAT_CFG_ERR i 0 with wharf := { s.wharf with pools := Tab.del s.wharf.pools i } }
  else if (Tab.find s.wharf.pools i).isSome then s
  else if s.poolBad i then s.setFld 0x0E F.KV_POOL_STAT_CFG_ERR i 1
  else
    let t := s.setFld 0x0E F.KV_POOL_STAT_CFG_ERR i 0
    if s.hm.fromSleep && s.fld 0x0E F.KV_POOL_CFG_RETAIN i == 1 then t.setPool i { free := [], wait := 1 }
    else if s.fld 0x0E F.KV_POOL_CFG_RESTORE i = 1 then t.setPool i { free := [], wait := 2 }
    else t.poolEmpty i

/-- KV_STAT as it reads (Table 11-12). -/
def State.kvStat (s : State) : U64 :=
  let w := s.wharf.pools.find? fun c => c.2.wait != 0
  let st := if (s.dom 32).faulted then 4
    else if s.wharf.stow.isSome then 3
    else if w.isSome then 1
    else if s.wharf.host.isSome || !(Tab.get [] s.blockQ 32).isEmpty then 2 else 0
  let pool := match s.wharf.stow, w with
    | some x, _ => x.pool
    | none, some c => c.1
    | none, none => 0
  BitVec.ofNat 64 (st + pool * 16)

/-- KV_POOL_STATp as it reads. -/
def State.poolStat (s : State) (p : Nat) : U64 :=
  F.KV_POOL_STAT_FREE.put (s.reg 0x0E .KV_POOL_STAT p) (s.poolSt p).free.length

/-! ## Faults (Table 11-10) -/

/-- A request of the Wharfinger that completed with a status other than OK (KV_MEM). -/
def State.kvMem (s : State) (st : Status) (q page unit : Nat) : State := if st = .ok then s else s.kvFault 0 q page unit

/-! ## Commands (R377, Table 11-5) -/

/-- A command's 16 bytes as a number. -/
def cmdWord (op reply seq arg count value : Nat) : Nat :=
  op + reply * 2 ^ 8 + seq * 2 ^ 16 + arg * 2 ^ 32 + count * 2 ^ 48 + value * 2 ^ 64

/-- The host command slot of a unit, and the entries of its queue 0 that were accepted before the command in it. -/
def State.hostSlot (s : State) (u : Nat) : Option (U64 × U64) × Nat :=
  if u = 32 then (s.wharf.host, s.wharf.ahead) else (s.drg.host, s.drg.ahead)

def State.setHostSlot (s : State) (u : Nat) (h : Option (U64 × U64)) (ahead : Nat) : State :=
  if u = 32 then { s with wharf := { s.wharf with host := h, ahead := ahead } }
  else { s with drg := { s.drg with host := h, ahead := ahead } }

/-- The requester that a unit is. -/
def unitWho (u : Nat) : Requester := if u = 32 then .wharfinger else .dredger

/-- What stands next at a unit, with the state once it has been taken up: nothing, an entry that is no command, a pointer whose
16 bytes cannot be read, or a command. -/
inductive NextCmd where
  | none
  | other (s : State)
  | unread (st : Status) (addr : Nat) (s : State)
  | cmd (src : CmdSrc) (word : Nat) (s : State)

/-- Commands are taken in acceptance order from queue 0 and the host command slot (R377, R421): a Class S Manifest carries one
inline, a Class A Manifest points to one. -/
def State.nextCmd (s : State) (u : Nat) : NextCmd :=
  let h := s.hostSlot u
  match h.1, h.2 == 0 || (Tab.get [] s.blockQ u).isEmpty with
  | some (a, b), true => .cmd .host (a.toNat + b.toNat * 2 ^ 64) (s.setHostSlot u none 0)
  | _, _ =>
    match s.blockTake u with
    | none => .none
    | some (m, t0) =>
      let t := t0.setHostSlot u h.1 (h.2 - 1)
      let src := CmdSrc.manifest (BitVec.ofNat 2 (mClass m)) (BitVec.ofNat 8 (mNum m 6 1)) (BitVec.ofNat 8 (mNum m 7 1))
        (BitVec.ofNat 6 (mSrcUnit m))
      if mInline m && mClass m == 0 then .cmd src (mNum m 12 16) t
      else if !mInline m && mClass m == 1 then
        let r := State.readSpan (unitWho u) (spanFuel 16) t (mPointer m) 16
        if r.st = .ok then .cmd src (leNat r.data) r.s else .unread r.st (mPointer m) r.s
      else .other t

/-- Entries that no command can take up are passed over, oldest first: an entry that is no command is released, one that cannot be
read is recorded by `fault`, and a malformed command is refused by `refuse`. -/
def State.skim (u : Nat) (fault : State → Status → Nat → State) (refuse : State → CmdSrc → Nat → Option State) : Nat → State → State
  | 0, s => s
  | fuel + 1, s =>
    match s.nextCmd u with
    | .none => s
    | .other t => State.skim u fault refuse fuel t
    | .unread st a t => State.skim u fault refuse fuel (fault t st a)
    | .cmd src w t =>
      match refuse t src w with
      | some t1 => State.skim u fault refuse fuel t1
      | none => s

/-- As many entries as can stand in a unit's queue 0 and host slot. -/
def State.cmdFuel (s : State) (u : Nat) : Nat := (Tab.get [] s.blockQ u).length + 2

/-- Takes up every command that waits at a unit, in order; nothing else is answered. -/
def State.takeAll (u : Nat) : Nat → State → List (CmdSrc × Nat) × State
  | 0, s => ([], s)
  | fuel + 1, s =>
    match s.nextCmd u with
    | .none => ([], s)
    | .other t => State.takeAll u fuel t
    | .unread _ _ t => State.takeAll u fuel t
    | .cmd src w t =>
      let r := State.takeAll u fuel t
      ((src, w) :: r.1, r.2)

/-- The next command of a unit comes from a source and spells what is asked for: the state once it has been taken up. -/
def State.takeCmd (s : State) (u : Nat) (src : CmdSrc) (spells : Nat → Bool) : Option State :=
  match s.nextCmd u with
  | .cmd c w t => if c = src ∧ spells w = true then some t else none
  | _ => none

/-- A block's reply Manifest: of the command's class, to the reply queue of the sender, with an inline body (R377, R421). -/
def replyManifest (cls : BitVec 2) (x y : BitVec 8) (unit : BitVec 6) (queue body : Nat) : Manifest :=
  mPut (mPut (mPut (mPut (mPut 0 0 1 x.toNat) 1 1 y.toNat) 2 1 (unit.toNat + queue % 4 * 64)) 3 1 (cls.toNat + 4)) 12 16 body

/-- The Wharfinger's reply: STATUS, OP, SEQ and LEN (R377). -/
def State.kvReply (s : State) (src : CmdSrc) (reply op q : Nat) (st : Status) (len : Nat) : State :=
  match src with
  | .host => s.setReg 0x0E .KV_HRESP 0 (BitVec.ofNat 64 (2 ^ 63 + statusCode st * 2 ^ 48 + q % 65536 * 2 ^ 32 + len))
  | .manifest cls x y unit =>
    if nbit reply 2 then
      s.unitSend 32 (replyManifest cls x y unit reply (statusCode st + op * 2 ^ 8 + q * 2 ^ 16 + len * 2 ^ 32))
    else s

/-- A write of KV_HCMD1 issues a host command unless one is executing (R450). -/
def State.kvHostCmd (s : State) (v : U64) : State :=
  if s.wharf.host.isSome || (match s.wharf.stow with | some x => x.src == .host | none => false) then s
  else (s.setReg 0x0E .KV_HRESP 0 0).setHostSlot 32 (some (s.reg 0x0E .KV_HCMD0 0, v)) (Tab.get [] s.blockQ 32).length

/-- LEN of a sequence as a reply carries it. -/
def State.replyLen (s : State) (q : Nat) : Nat := if s.seqState q = 0 then 0 else s.seqLen q

/-- A refused command: POISON, KV_BAD (Table 11-6). -/
def State.kvRefuse (s : State) (src : CmdSrc) (reply op q : Nat) : State :=
  (s.kvFault 3 q 0 0).kvReply src reply op q .poison (s.replyLen q)

/-- A command or work order that names a sequence waits while its pool is being restored or unstowed (R401). -/
def State.seqWaits (s : State) (q : Nat) : Bool :=
  match s.poolOf q with
  | some p => (s.poolSt p).wait != 0
  | none => false

/-- A pool waits for its restore: no command and no work order is accepted (R400). -/
def State.restoring (s : State) : Bool := s.wharf.pools.any fun c => c.2.wait == 1

/-- The bytes of a command that are zero are not, or its OP names no command (Table 11-5). -/
def cmdMalformed (w : Nat) : Bool :=
  let op := w % 2 ^ 8
  let seq := w / 2 ^ 16 % 2 ^ 16
  let arg := w / 2 ^ 32 % 2 ^ 16
  let count := w / 2 ^ 48 % 2 ^ 16
  let value := w / 2 ^ 64
  decide (w / 2 ^ 11 % 2 ^ 5 ≠ 0) ||
    (match op with
    | 1 | 2 | 7 => decide (arg ≠ 0) || decide (count ≠ 0) || decide (value ≠ 0)
    | 3 => decide (count ≠ 0) || decide (2 ^ 32 ≤ value)
    | 4 => decide (arg ≠ 0) || decide (count ≠ 0) || decide (2 ^ 32 ≤ value)
    | 5 => decide (seq ≠ 0) || decide (2 ^ 48 ≤ value)
    | 6 => decide (seq ≠ 0) || decide (count ≠ 0) || decide (value ≠ 0)
    | _ => true)

/-- The Wharfinger passes over what it cannot execute: a malformed command is refused with POISON and KV_BAD. -/
def State.kvSkim (s : State) : State :=
  State.skim 32 (fun t st _ => t.kvMem st 0 0 0)
    (fun t src w => if cmdMalformed w then some (t.kvRefuse src (w / 2 ^ 8 % 256) (w % 256) (w / 2 ^ 16 % 2 ^ 16)) else none)
    (s.cmdFuel 32) s

/-- The Wharfinger takes commands: it serves, no stow runs and no pool is being restored. -/
def State.kvTakes (s : State) : Bool := s.serves 32 && s.wharf.stow.isNone && !s.restoring

/-- Takes up a command. -/
def State.kvTake (s : State) (src : CmdSrc) (word : Nat) : Option State :=
  if s.kvTakes then s.kvSkim.takeCmd 32 src (· == word) else none

/-- Runs a command: it is executed when it is the next and does not have to wait; `k` receives the state after it has been taken
up. What it cannot execute it has passed over in any case. -/
def State.kvCmd (s : State) (src : CmdSrc) (word : Nat) (waits : Bool) (k : State → State) : Out :=
  match s.kvTake src word, waits with
  | some t, false => .next (k t)
  | _, _ => .next (if s.kvTakes then s.kvSkim else s)

/-- Runs `k` on a sequence's table words when they are readable, otherwise answers the status (R410). -/
def State.kvTables (s : State) (src : CmdSrc) (reply op q : Nat) (ws : List Nat) (k : State → State) : State :=
  match s.tableCheck ws with
  | (none, t) => k t
  | (some st, t) => t.kvReply src reply op q st 0

/-- OPEN. -/
def State.kvOpen (s : State) (src : CmdSrc) (reply q : Nat) : State :=
  match s.poolOf q with
  | none => s.kvRefuse src reply 1 q
  | some i =>
    s.kvTables src reply 1 q (wordsOf (seqAt q) 64) fun t =>
      if t.seqState q ≠ 0 then t.kvRefuse src reply 1 q
      else
        let p := t.poolCfg i
        let t1 := (List.range p.span).foldl (fun u j => u.clearMslot (p.slotIx q 0 0 0 + j)) t
        (t1.setSeq q 1 i 0 0).kvReply src reply 1 q .ok 0

def execKvOpen (src : CmdSrc) (reply : BitVec 8) (seq : BitVec 16) (s : State) : Out :=
  s.kvCmd src (cmdWord 1 reply.toNat seq.toNat 0 0 0) (s.seqWaits seq.toNat) fun t => t.kvOpen src reply.toNat seq.toNat

/-- How often a page stands in a list. -/
def occurs (l : List Nat) (g : Nat) : Nat := (l.filter (· == g)).length

/-- CLOSE (R386, R404). -/
def State.kvClose (s : State) (src : CmdSrc) (reply q : Nat) : State :=
  match s.poolOf q with
  | none => s.kvRefuse src reply 2 q
  | some i =>
    s.kvTables src reply 2 q (s.seqWords (s.poolCfg i) q) fun t =>
      let p := t.poolCfg i
      if t.seqState q = 0 then t.kvRefuse src reply 2 q
      else
        let l := t.seqSlots p q
        match l.find? fun x => decide (refcnt (t.desc x.2) < occurs (l.map (·.2)) x.2) with
        | some x => (t.kvFault 1 q x.2 0).kvReply src reply 2 q .poison (t.replyLen q)
        | none =>
          let t1 := l.foldl (fun u x => (u.releasePage i x.2).clearMslot x.1) t
          (t1.setSeq q 0 0 0 0).kvReply src reply 2 q .ok 0

/-- The sequence has a read hold. -/
def State.held (s : State) (q : Nat) : Bool := (s.poolOf q).isSome && s.seqHolds q != 0

def execKvClose (src : CmdSrc) (reply : BitVec 8) (seq : BitVec 16) (s : State) : Out :=
  s.kvCmd src (cmdWord 2 reply.toNat seq.toNat 0 0 0) (s.seqWaits seq.toNat || s.held seq.toNat)
    fun t => t.kvClose src reply.toNat seq.toNat

/-- The slots of a source that a fork of `t` tokens names: unit and kind, page index, page and USED. -/
def State.forkSlots (s : State) (p : Pool) (q t : Nat) : List (Nat × Nat × Nat × Nat) :=
  (List.range (2 * p.units)).flatMap fun j =>
    (List.range (cdiv t 64)).map fun b =>
      let v := s.mslot (p.slotIx q (j / 2) (j % 2) b)
      (j, b, bitsOf v 15 0, if b + 1 = cdiv t 64 then t - 64 * b else 64)

/-- FORK (R404, Table 11-6). -/
def State.kvFork (s : State) (src : CmdSrc) (reply dst q t : Nat) : State :=
  match s.poolOf q with
  | none => s.kvRefuse src reply 3 dst
  | some i =>
    s.kvTables src reply 3 dst (s.seqWords (s.poolCfg i) q ++ wordsOf (seqAt dst) 64) fun u =>
      let p := u.poolCfg i
      if u.seqState q ≠ 1 ∨ u.poolOf dst ≠ some i ∨ u.seqState dst ≠ 0 ∨ u.seqLen q < t then u.kvRefuse src reply 3 dst
      else
        let l := u.forkSlots p q t
        match l.find? fun x => decide (65535 < refcnt (u.desc x.2.2.1) + occurs (l.map (·.2.2.1)) x.2.2.1) with
        | some x => (u.kvFault 1 dst x.2.2.1 (x.1 / 2)).kvReply src reply 3 dst .poison 0
        | none =>
          let u0 := (List.range p.span).foldl (fun w j => w.clearMslot (p.slotIx dst 0 0 0 + j)) u
          let u1 := l.foldl (fun w x =>
            let v := w.desc x.2.2.1
            (w.setDesc x.2.2.1 (withBits v 15 0 (refcnt v + 1))).setMslot (p.slotIx dst (x.1 / 2) (x.1 % 2) x.2.1) x.2.2.1 x.2.2.2) u0
          (u1.setSeq dst 1 i t 0).kvReply src reply 3 dst .ok t

def execKvFork (src : CmdSrc) (reply : BitVec 8) (dst srcSeq : BitVec 16) (t : U32) (s : State) : Out :=
  s.kvCmd src (cmdWord 3 reply.toNat dst.toNat srcSeq.toNat 0 t.toNat)
    (s.seqWaits dst.toNat || s.seqWaits srcSeq.toNat || s.held dst.toNat)
    fun u => u.kvFork src reply.toNat dst.toNat srcSeq.toNat t.toNat

/-- TRUNC (R386, R404). -/
def State.kvTrunc (s : State) (src : CmdSrc) (reply q t : Nat) : State :=
  match s.poolOf q with
  | none => s.kvRefuse src reply 4 q
  | some i =>
    s.kvTables src reply 4 q (s.seqWords (s.poolCfg i) q) fun u =>
      let p := u.poolCfg i
      if u.seqState q ≠ 1 ∨ u.seqLen q < t then u.kvRefuse src reply 4 q
      else
        let all := (List.range (2 * p.units)).flatMap fun j =>
          (u.unitSlots p q (j / 2) (j % 2)).map fun x => (p.slotIx q (j / 2) (j % 2) x.1, x)
        let gone := all.filter fun x => decide (cdiv t 64 ≤ x.2.1)
        match gone.find? fun x => decide (refcnt (u.desc x.2.2.1) < occurs (gone.map (·.2.2.1)) x.2.2.1) with
        | some x => (u.kvFault 1 q x.2.2.1 0).kvReply src reply 4 q .poison (u.replyLen q)
        | none =>
          let u1 := gone.foldl (fun w x => (w.releasePage i x.2.2.1).clearMslot x.1) u
          let last := all.filter fun x => decide (x.2.1 + 1 = cdiv t 64)
          let u2 := last.foldl (fun w x => w.setMslot x.1 x.2.2.1 (t - 64 * x.2.1)) u1
          (u2.putNum (seqAt q + 4) 4 t).kvReply src reply 4 q .ok t

def execKvTrunc (src : CmdSrc) (reply : BitVec 8) (seq : BitVec 16) (t : U32) (s : State) : Out :=
  s.kvCmd src (cmdWord 4 reply.toNat seq.toNat 0 0 t.toNat) (s.seqWaits seq.toNat || s.held seq.toNat)
    fun u => u.kvTrunc src reply.toNat seq.toNat t.toNat

/-- QUERY: an open or a damaged sequence. -/
def State.kvQuery (s : State) (src : CmdSrc) (reply q : Nat) : State :=
  match s.poolOf q with
  | none => s.kvRefuse src reply 7 q
  | some _ =>
    s.kvTables src reply 7 q (wordsOf (seqAt q) 64) fun t =>
      if t.seqState q = 0 then t.kvRefuse src reply 7 q else t.kvReply src reply 7 q .ok (t.seqLen q)

def execKvQuery (src : CmdSrc) (reply : BitVec 8) (seq : BitVec 16) (s : State) : Out :=
  s.kvCmd src (cmdWord 7 reply.toNat seq.toNat 0 0 0) (s.seqWaits seq.toNat) fun t => t.kvQuery src reply.toNat seq.toNat

/-! ## Dispatch and splitting (R395 to R398) -/

/-- A work item: sequence, unit, head, KSTART, KEND, part and parts. -/
structure Item where
  q : Nat
  unit : Nat
  head : Nat
  kstart : Nat
  kend : Nat
  part : Nat
  parts : Nat
  first : Nat := 0

/-- Insertion of an item into a list ordered by length, longest first, then sequence, then head (R395). -/
def insertItem (x : Item) : List Item → List Item
  | [] => [x]
  | y :: t =>
    if y.kend < x.kend ∨ (y.kend = x.kend ∧ (x.q < y.q ∨ (x.q = y.q ∧ x.head < y.head))) then x :: y :: t
    else y :: insertItem x t

/-- The parts of an item (R396). -/
def splitItem (split nb : Nat) (x : Item) : List Item :=
  let p := min (min 8 (cdiv x.kend split)) nb
  if split = 0 ∨ x.kend ≤ split ∨ p < 2 then [x]
  else
    let pages := cdiv x.kend 64
    (List.range p).map fun i =>
      { x with kstart := 64 * (i * pages / p), kend := if i + 1 = p then x.kend else 64 * ((i + 1) * pages / p), part := i, parts := p }

/-- Gives items to the Berths: the fewest keys assigned, no other part of the same item, ties to the lower number (R397).
`load` holds the keys of each Berth and `used` the Berths of the present item. -/
def assign (berths : List Nat) : List Item → Tab Nat → List Nat → Nat → List (Nat × Item)
  | [], _, _, _ => []
  | x :: rest, load, used, first =>
    let used' := if x.part = 0 then [] else used
    let free := berths.filter fun b => !used'.contains b
    let pick := free.foldl (fun m b => match m with
      | none => some b
      | some c => if Tab.get 0 load b < Tab.get 0 load c then some b else some c) none
    match pick with
    | none => []
    | some b =>
      let f := if x.part = 0 then b else first
      (b, { x with first := f }) :: assign berths rest (Tab.put load b (Tab.get 0 load b + (x.kend - x.kstart))) (b :: used') f

/-- A list entry (R398). -/
def itemBytes (x : Item) : List Byte :=
  leBytes 2 x.q ++ leBytes 2 x.unit ++ leBytes 4 x.kstart ++ leBytes 4 x.kend
    ++ [BitVec.ofNat 8 x.part, BitVec.ofNat 8 x.parts, BitVec.ofNat 8 x.first, 0]

/-- The table words that a DISPATCH reads: the sequences' entries and the K slots of the layer's units. -/
def Pool.dispatchWords (p : Pool) (layer : Nat) (seqs : List Nat) : List Nat :=
  seqs.flatMap fun q => wordsOf (seqAt q) 64 ++ (List.range p.heads).flatMap fun h =>
    wordsOf (slotAt (p.slotIx q (layer * p.heads + h) 0 0)) (4 * p.maxp)

/-- The items of a DISPATCH go to the Berths: each receives its list and one Class S Manifest (R395 to R398). -/
def State.dispatchItems (s : State) (src : CmdSrc) (reply layer : Nat) (p : Pool) (seqs : List Nat) : State :=
  let berths := setBits 32 (s.fld 0x0E F.KV_CFG_ATTN 0)
  let items := seqs.flatMap fun q => (List.range p.heads).map fun h =>
    let u := layer * p.heads + h
    ({ q := q, unit := u, head := h, kstart := 0, kend := s.unitLen p q u, part := 0, parts := 1 } : Item)
  let parts := (items.foldl (fun l x => insertItem x l) []).flatMap (splitItem (s.fld 0x0E F.KV_CFG_SPLIT 0) berths.length)
  let asg := assign berths parts [] [] 0
  if berths.any fun b => decide (256 < (asg.filter fun a => a.1 == b).length) then s.kvRefuse src reply 5 0
  else
    let w := berths.foldl (fun (acc : Status × State) b =>
      let mine := (asg.filter fun a => a.1 == b).map (·.2)
      if mine = [] then acc
      else
        let d := mine.flatMap itemBytes
        let x := State.writeSpan .wharfinger (spanFuel d.length) acc.2 (holdBase b + s.fld 0x0E F.KV_CFG_DLIST 0 * 0x1000) d
        let m := replyManifest 0 (BitVec.ofNat 8 s.gx) (BitVec.ofNat 8 s.gy) (BitVec.ofNat 6 b)
          (s.fld 0x0E F.KV_CFG_DQUEUE 0) (mine.length + layer * 2 ^ 16)
        (mergeStatus acc.1 x.st, x.s.unitSend 32 m)) (Status.ok, s)
    (w.2.kvMem w.1 0 0 0).kvReply src reply 5 0 w.1 0

/-- DISPATCH (Table 11-6). -/
def State.kvDispatch (s : State) (src : CmdSrc) (reply layer count list : Nat) : State :=
  if count = 0 ∨ 4096 < count then s.kvRefuse src reply 5 0
  else
    let r := State.readSpan .wharfinger (spanFuel (2 * count)) s list (2 * count)
    let t := r.s
    let seqs := (List.range count).map fun k => leNat ((r.data.drop (2 * k)).take 2)
    if r.st ≠ .ok then (t.kvMem r.st 0 0 0).kvReply src reply 5 0 r.st 0
    else match t.poolOf (seqs.headD 0) with
      | none => t.kvRefuse src reply 5 0
      | some i =>
        let p := t.poolCfg i
        if p.layers ≤ layer ∨ t.fld 0x0E F.KV_CFG_ATTN 0 = 0 ∨ seqs.any (fun q => t.poolOf q != some i) then
          t.kvRefuse src reply 5 0
        else t.kvTables src reply 5 0 (p.dispatchWords layer seqs) fun u =>
          if seqs.any fun q => u.seqState q != 1 then u.kvRefuse src reply 5 0 else u.dispatchItems src reply layer p seqs

def execKvDispatch (src : CmdSrc) (reply : BitVec 8) (layer count : BitVec 16) (list : Addr) (s : State) : Out :=
  s.kvCmd src (cmdWord 5 reply.toNat 0 layer.toNat count.toNat list.toNat)
    ((List.range 4).any fun p => s.poolOn p && (s.poolSt p).wait != 0)
    fun t => t.kvDispatch src reply.toNat layer.toNat count.toNat list.toNat

/-! ## Append (R381 to R388) -/

/-- Reads a page. -/
def State.readPage (s : State) (p : Pool) (page : Nat) : Ans :=
  State.readSpan .wharfinger (spanFuel p.stride) s (p.pageAddr page) p.stride

/-- Writes a page; a status other than OK is KV_MEM. -/
def State.writePage (s : State) (p : Pool) (page : Nat) (d : List Byte) : Ans :=
  let r := State.writeSpan .wharfinger (spanFuel p.stride) s (p.pageAddr page) d
  ⟨r.st, [], r.s.kvMem r.st 0 page 0⟩

/-- Zeroes the slots from `used` on and sets FILL. -/
def Pool.cut (p : Pool) (d : List Byte) (used : Nat) : List Byte :=
  patch (d.take (64 + p.sa + used * p.rb) ++ List.replicate ((64 - used) * p.rb) 0) 5 [BitVec.ofNat 8 used]

/-- Appends rows to one unit and kind from page index `b`, slot `used` (R382, R385). -/
def State.appendUnit (i : Nat) (p : Pool) (q u k : Nat) : Nat → State → Status → Nat → Nat → List (List Num) → Status × State
  | 0, s, st, _, _, _ => (st, s)
  | fuel + 1, s, st, b, used, rows =>
    if rows.isEmpty then (st, s)
    else
      let m := min (64 - used) rows.length
      let ix := p.slotIx q u k b
      let old := bitsOf (s.mslot ix) 15 0
      let shared := decide (1 < refcnt (s.desc old))
      -- the page, its bytes and the state once it is in place
      let t : Nat × List Byte × State :=
        if used = 0 then
          let a := s.allocPage i
          (a.1, p.blank a.1 (k + 1), a.2)
        else
          let r := s.readPage p old
          let d := if shared ∨ used < pgFill r.data then p.cut r.data used else r.data
          if shared then
            let a := r.s.allocPage i
            let v := a.2.desc old
            (a.1, patch d 0 (leBytes 2 a.1), (a.2.setDesc old (withBits v 15 0 (refcnt v - 1))).count 0x0E F.KV_CNT_COW 0 1)
          else (old, d, r.s)
      let now := rows.take m
      let e := p.putRows k now t.2.1 used now
      let w := t.2.2.writePage p t.1 e.1
      let s1 := ((w.s.count 0x0E F.KV_CNT_REQUANT 0 e.2.requant).count 0x0E F.KV_CNT_SAT 0 e.2.sat).setDesc t.1
        (descOf i (k + 1) (used + m) 1 (pgReq e.1) true)
      State.appendUnit i p q u k fuel (s1.setMslot ix t.1 (used + m)) (mergeStatus st w.st) (b + 1) 0 (rows.drop m)

/-- KVAPPEND of `n` heads of T rows from `first`, K and V rows head by head (R381, R388): everything is checked and
reserved before the first row is written, and nothing is performed when a page cannot be written. -/
def State.kvAppend (s : State) (i q pos t n layer first : Nat) (ks vs : List (List Num)) : Status × State :=
  let p := s.poolCfg i
  let units := (List.range n).map fun h => layer * p.heads + first + h
  match s.tableCheck (s.seqWords p q) with
  | (some st, s1) => (st, s1)
  | (none, s1) =>
    let badRow := (ks ++ vs).any fun r => r.any fun x => match x with
      | .fin _ _ _ => false
      | _ => true
    if s1.seqState q ≠ 1 ∨ units.any (fun u => s1.unitLen p q u != pos) ∨ 64 * p.maxp < pos + t ∨ badRow then
      (.poison, s1.kvFault 3 q 0 (units.headD 0))
    else
      let uk := units.flatMap fun u => [(u, 0), (u, 1)]
      let tail (x : Nat × Nat) := bitsOf (s1.mslot (p.slotIx q x.1 x.2 (pos / 64))) 15 0
      let need := total (uk.map fun x => cdiv (pos + t) 64 - cdiv pos 64
        + if pos % 64 ≠ 0 ∧ 1 < refcnt (s1.desc (tail x)) then 1 else 0)
      if (s1.poolSt i).free.length < need then (.poolFull, s1.kvFault 2 q 0 (units.headD 0))
      else
        let pre := if pos % 64 = 0 then (Status.ok, s1)
          else uk.foldl (fun (a : Status × State) x => let r := a.2.readPage p (tail x); (mergeStatus a.1 r.st, r.s)) (Status.ok, s1)
        if pre.1 ≠ .ok then (pre.1, pre.2.kvMem pre.1 q 0 (units.headD 0))
        else
          let r := (List.range n).foldl (fun (a : Status × State) h =>
            let u := layer * p.heads + first + h
            let a1 := State.appendUnit i p q u 0 (t + 1) a.2 a.1 (pos / 64) (pos % 64) ((ks.drop (h * t)).take t)
            State.appendUnit i p q u 1 (t + 1) a1.2 a1.1 (pos / 64) (pos % 64) ((vs.drop (h * t)).take t)) (Status.ok, pre.2)
          if r.1 = .ok then (.ok, r.2.updateLen p q) else (r.1, pre.2.kvMem r.1 q 0 (units.headD 0))

/-! ## Pages for ATTNBLK (R391) -/

/-- The decoded rows of a page and the reserved codes among its first `n` slots. -/
def Pool.decodePage (p : Pool) (d : List Byte) (key : Bool) (n : Nat) : List (List Num) × Nat :=
  let rows := (List.range 64).map fun t =>
    let row := p.slot d t
    (List.range p.dim).map fun c => p.decode (p.code row c) (pgScale d (if key then c else t))
  let bad := total ((List.range (min n 64)).map fun t => ((List.range p.dim).filter fun c => p.codeBad (p.code (p.slot d t) c)).length)
  (rows, bad)

/-- Reads and decodes the K and V pages of a block; the pages' status comes first. -/
def State.kvBlock (s : State) (p : Pool) (q u b kend : Nat) : Status × State × List (List Num) × List (List Num) × Nat :=
  let page (k : Nat) := bitsOf (s.mslot (p.slotIx q u k (b / 64))) 15 0
  let rk := s.readPage p (page 0)
  let rv := rk.s.readPage p (page 1)
  let st := mergeStatus rk.st rv.st
  let k := p.decodePage rk.data true (kend - b)
  let v := p.decodePage rv.data false (kend - b)
  (st, rv.s.kvMem st q (page 0) u, k.1, v.1, k.2 + v.2)

/-- The blocks of KSTART to KEND for all rows of a work order (R392); the states, the first status other than OK and the
reserved codes. -/
def State.attnBlocks (p : Pool) (q u kend : Nat) (causal : Bool) (qpos : Nat) (qs : List (List Num)) :
    Nat → State → Status → Nat → Nat → List AttnRow → Status × State × Nat × List AttnRow
  | 0, s, st, _, bad, rows => (st, s, bad, rows)
  | fuel + 1, s, st, b, bad, rows =>
    if kend ≤ b then (st, s, bad, rows)
    else
      let r := s.kvBlock p q u b kend
      let rows' := (rows.zip (qs.zip (List.range qs.length))).map fun x =>
        x.1.block p x.2.1 r.2.2.1 r.2.2.2.1 b kend causal (qpos + x.2.2)
      State.attnBlocks p q u kend causal qpos qs fuel r.2.1 (mergeStatus st r.1) (b + 64) (bad + r.2.2.2.2) rows'

/-! ## Stowing and retention (R400 to R403) -/

/-- NVS (Table 11-9). -/
def Pool.nvs (p : Pool) : Nat := if p.stride ≤ 4096 then 4096 else if p.stride ≤ 8192 then 8192 else if p.stride ≤ 16384 then 16384 else 32768

/-- LEN of the table region. -/
def Pool.regionLen (p : Pool) : Nat := 64 + p.tableBytes + 4 * p.count

/-- PAGE_OFF. -/
def Pool.pageOff (p : Pool) : Nat := 0x10000 + cdiv p.regionLen 0x10000 * 0x10000

/-- Where the copies of a pool lie. -/
def State.nvAt (s : State) (i : Nat) (b : Bool) : Nat := if b then s.fld 0x0E F.KV_POOL_NV_NV_B i else s.fld 0x0E F.KV_POOL_NV_NV_A i

/-- SEQ of a copy that is valid in header and content (R280). -/
def State.kvNvSeq (s : State) (i : Nat) (b : Bool) : Option Nat :=
  let p := s.poolCfg i
  let at_ := s.nvAt i b
  match s.nvSeq 0 at_ p.regionLen with
  | none => none
  | some q =>
    let len := leNat (s.flashBytes 0 (at_ + 4) 4)
    let d := s.flashBytes 0 (at_ + 0x10000) len
    if leNat (d.take 4) = crc32c (d.drop 4) then some q else none

/-- The descriptors, sequence entries and map span of a pool. -/
def State.poolTables (s : State) (p : Pool) : List Byte :=
  s.bytes (descAt p.first) (8 * p.count) ++ s.bytes (seqAt p.seqFirst) (64 * p.seqCount)
    ++ s.bytes (slotAt p.mapBase) (4 * (p.seqCount * p.span))

/-- Writes them back. -/
def State.putTables (s : State) (p : Pool) (d : List Byte) : State :=
  let a := 8 * p.count
  let b := 64 * p.seqCount
  ((s.putBytes (descAt p.first) (d.take a)).putBytes (seqAt p.seqFirst) ((d.drop a).take b)).putBytes (slotAt p.mapBase)
    ((d.drop (a + b)).take (4 * (p.seqCount * p.span)))

/-- Pages of a pool in use. -/
def State.usedPages (s : State) (p : Pool) : List Nat :=
  ((List.range p.count).map (p.first + ·)).filter fun g => bitsOf (s.desc g) 35 34 != 0

/-- The free list that the descriptors spell: from the free page that no other names, along NEXT. -/
def State.freeChain (s : State) (p : Pool) : List Nat :=
  let free := ((List.range p.count).map (p.first + ·)).filter fun g => bitsOf (s.desc g) 35 34 == 0
  let next (g : Nat) := bitsOf (s.desc g) 63 48
  let head := free.find? fun g => !(free.any fun h => h != g && next h == g)
  let rec go : Nat → Nat → List Nat
    | 0, _ => []
    | fuel + 1, g => if next g = g then [g] else g :: go fuel (next g)
  match head with
  | none => []
  | some g => go free.length g

/-- A pool takes restored tables: holds are over, the free list follows the descriptors. -/
def State.poolRestored (s : State) (i : Nat) : State :=
  let p := s.poolCfg i
  let s1 := (List.range p.seqCount).foldl (fun t j => t.setHolds (p.seqFirst + j) 0) s
  s1.setPool i { free := s1.freeChain p, wait := 0 }

/-- The table save of a retained pool at Sleep entry: the tables, then a CRC-32C over them (R400). Tables that cannot be read are
not saved. -/
def State.kvSave (s : State) (i : Nat) : State :=
  let p := s.poolCfg i
  match s.tableCheck p.tableWords with
  | (some _, t) => t
  | (none, t) =>
    let d := t.poolTables p
    let w := State.writeSpan .wharfinger (spanFuel (d.length + 4)) t p.base (d ++ leBytes 4 (crc32c d))
    w.s.kvMem w.st 0 0 0

/-- The pool's memory lies in a Basin bank whose retention was lost (R78). -/
def State.poolLost (s : State) (p : Pool) : Bool :=
  (setBits 16 (s.fld 0x0C F.BASIN_ERR_RET_BANKS 0)).any fun k =>
    overlap p.base (p.tsize + p.count * p.stride) (basinBase + k * 0x100000) 0x100000

/-- KV_RESTORE: the save area is taken and its CRC invalidated; otherwise the pool unstows or starts empty (R400, R401). -/
def execKvRestore (p : Fin 4) (s : State) : Out :=
  if !s.serves 32 || (s.poolSt p).wait != 1 then nothing s
  else
    let c := s.poolCfg p
    let other (t : State) : State := if s.fld 0x0E F.KV_POOL_CFG_RESTORE p = 1 then t.setPool p { free := [], wait := 2 } else t.poolEmpty p
    if s.poolLost c then .next (other s)
    else
      let r := State.readSpan .wharfinger (spanFuel (c.tableBytes + 4)) s c.base (c.tableBytes + 4)
      let d := r.data.take c.tableBytes
      let crc := leNat (r.data.drop c.tableBytes)
      if r.st ≠ .ok then .next (other (r.s.kvMem r.st 0 0 0))
      else if crc ≠ crc32c d then .next (other (r.s.kvFault 8 0 0 0))
      else
        let w := State.writeSpan .wharfinger 2 (r.s.putTables c d) (c.base + c.tableBytes) (leBytes 4 (2 ^ 32 - 1 - crc))
        .next ((w.s.kvMem w.st 0 0 0).poolRestored p)

/-- The pages of a copy are read back; a page whose CRC fails damages every open sequence that uses it (R403). -/
def State.unstowPage (s : State) (i : Nat) (p : Pool) (at_ : Nat) (crcs : List Byte) (g : Nat) : State :=
  let d := s.flashBytes 0 (at_ + p.pageOff + (g - p.first) * p.nvs) p.stride
  let w := s.writePage p g d
  let s1 := w.s.setDesc g (withBits (w.s.desc g) 38 38 1)
  if leNat ((crcs.drop (4 * (g - p.first))).take 4) = crc32c d then s1
  else
    let hit := ((List.range p.seqCount).map (p.seqFirst + ·)).filter fun q =>
      s1.seqState q == 1 && (s1.seqSlots p q).any fun x => x.2 == g
    (hit.foldl (fun t q => t.putByte (seqAt q) 2) s1).kvFault 8 (hit.headD 0) g i

/-- KV_UNSTOW (R403): the chosen copy; with none the pool starts empty. -/
def execKvUnstow (p : Fin 4) (s : State) : Out :=
  if !s.serves 32 || (s.poolSt p).wait != 2 then nothing s
  else
    let c := s.poolCfg p
    match nvChoose (s.kvNvSeq p false) (s.kvNvSeq p true) with
    | none => .next (s.poolEmpty p)
    | some b =>
      let at_ := s.nvAt p b
      let d := s.flashBytes 0 (at_ + 0x10000) c.regionLen
      let s1 := s.putTables c ((d.drop 64).take c.tableBytes)
      let s2 := (s1.usedPages c).foldl (fun t g => t.unstowPage p c at_ (d.drop (64 + c.tableBytes)) g) s1
      .next ((s2.poolRestored p).setFld 0x0E F.KV_POOL_STAT_SEQ p ((s.kvNvSeq p b).getD 0))

/-- The windows of a copy that hold a page of the list. -/
def Pool.windows (p : Pool) (pages : List Nat) : List Nat :=
  (pages.map fun g => (p.pageOff + (g - p.first) * p.nvs) / 0x10000).eraseDups

/-- STOW starts: its segments in order (R402). -/
def State.kvStow (s : State) (src : CmdSrc) (reply : BitVec 8) (i : Nat) : State :=
  if !s.poolOn i || s.nvAt i false == 0 || s.nvAt i true == 0 then s.kvRefuse src reply.toNat 6 0
  else
    let p := s.poolCfg i
    s.kvTables src reply.toNat 6 0 p.descWords fun s =>
    let t := nvTarget (s.kvNvSeq i false) (s.kvNvSeq i true)
    let dirty := (s.usedPages p).filter fun g => bitsOf (s.desc g) 38 38 == 1
    let segs := [(0, 0)] ++ (p.windows dirty).map (fun w => (1, w))
      ++ (List.range (cdiv p.regionLen 0x10000)).map (fun w => (2, w + 1)) ++ [(3, 0)]
    { s with wharf := { s.wharf with stow := some ⟨src, reply, i, t.1, t.2, segs⟩ } }

def execKvStow (src : CmdSrc) (reply : BitVec 8) (pool : BitVec 16) (s : State) : Out :=
  s.kvCmd src (cmdWord 6 reply.toNat 0 pool.toNat 0 0) ((s.poolSt pool.toNat).wait != 0)
    fun t => t.kvStow src reply pool.toNat

/-- The pages of a window. -/
def State.windowPages (s : State) (p : Pool) (w : Nat) : List Nat :=
  (s.usedPages p).filter fun g => (p.pageOff + (g - p.first) * p.nvs) / 0x10000 == w

/-- The table region of a stowed copy, with the CRC of every page (Table 11-9). -/
def State.stowRegion (s : State) (i : Nat) (p : Pool) : Status × State × List Byte :=
  let r := ((List.range p.count).map (p.first + ·)).foldl (fun (a : Status × State × List Byte) g =>
    if bitsOf (s.desc g) 35 34 = 0 then (a.1, a.2.1, a.2.2 ++ leBytes 4 0)
    else
      let x := a.2.1.readPage p g
      (mergeStatus a.1 x.st, x.s, a.2.2 ++ leBytes 4 (crc32c x.data))) (Status.ok, s, [])
  let cfg := [Reg.KV_POOL_CFG, .KV_POOL_QUANT, .KV_POOL_MEM, .KV_POOL_PAGES, .KV_POOL_SEQ].flatMap fun k =>
    leBytes 8 (s.reg 0x0E k i).toNat
  let body := cfg ++ List.replicate 20 0 ++ s.poolTables p ++ r.2.2
  (r.1, r.2.1, leBytes 4 (crc32c body) ++ body)

/-- The next segment of a running stow: flash offset, bytes it programs, and whether it is the header alone. -/
def State.stowNext (s : State) : Option (Nat × Nat × Bool) :=
  match s.wharf.stow with
  | none => none
  | some x =>
    let p := s.poolCfg x.pool
    let at_ := s.nvAt x.pool x.copyB
    match x.segs with
    | [] => none
    | (0, _) :: _ => some (at_, 0, false)
    | (1, w) :: _ => some (at_ + w * 0x10000, (s.windowPages p w).length * p.stride, false)
    | (2, w) :: _ => some (at_ + w * 0x10000, min 0x10000 (p.regionLen - (w - 1) * 0x10000), false)
    | _ :: _ => some (at_, 64, true)

/-- The stow ends with a status; none of its segments waits any longer. -/
def State.stowEnd (s : State) (st : Status) : State :=
  match s.wharf.stow with
  | none => s
  | some x =>
    let s1 : State := { s with wharf := { s.wharf with stow := none },
                               hm := { s.hm with deferred := s.hm.deferred.filter fun g => g.user != .wharfinger } }
    let p := s.poolCfg x.pool
    let s2 := if st = .ok then
        ((s.usedPages p).foldl (fun t g => t.setDesc g (withBits (t.desc g) 38 38 0)) s1).setFld 0x0E F.KV_POOL_STAT_SEQ x.pool x.seq
      else if st = .busy then s1.kvFault 8 0 0 0 else s1
    s2.kvReply x.src x.reply.toNat 6 0 st 0

/-- The table words that a segment of a stow reads. -/
def Pool.stowWords (p : Pool) : List (Nat × Nat) → List Nat
  | (1, _) :: _ => p.descWords
  | (2, _) :: _ => p.tableWords
  | _ => []

/-- A granted segment of a stow is written (R402). -/
def State.stowSegment (s : State) : State :=
  match s.wharf.stow with
  | none => s
  | some x =>
    let p := s.poolCfg x.pool
    let at_ := s.nvAt x.pool x.copyB
    let go (t : State) : State := { t with wharf := { t.wharf with stow := some { x with segs := x.segs.tail } } }
    match s.tableCheck (p.stowWords x.segs) with
    | (some st, t) => t.stowEnd st
    | (none, s) =>
    match x.segs with
    | [] => s
    | (0, _) :: _ => go (s.flashErase 0 at_ 0x10000)
    | (1, w) :: _ =>
      let r := (s.windowPages p w).foldl (fun (a : Status × State) g =>
        let y := a.2.readPage p g
        (mergeStatus a.1 y.st, y.s.flashProgram 0 (at_ + p.pageOff + (g - p.first) * p.nvs) y.data))
        (Status.ok, s.flashErase 0 (at_ + w * 0x10000) 0x10000)
      if r.1 = .ok then go r.2 else (r.2.kvMem r.1 0 0 0).stowEnd r.1
    | (2, w) :: _ =>
      let r := s.stowRegion x.pool p
      if r.1 = .ok then
        go ((r.2.1.flashErase 0 (at_ + w * 0x10000) 0x10000).flashProgram 0 (at_ + w * 0x10000)
          ((r.2.2.drop ((w - 1) * 0x10000)).take 0x10000))
      else (r.2.1.kvMem r.1 0 0 0).stowEnd r.1
    | _ :: _ => (s.flashProgram 0 at_ (nvHeader x.seq p.regionLen)).stowEnd .ok

/-! ## Drain and loss (R408) -/

/-- A granted segment of a stow ends before the stow is answered (R279). -/
def State.stowGranted (s : State) : State :=
  match s.hm.granted with
  | some g => if g.user = .wharfinger then ({ s with hm := { s.hm with granted := none } }).stowSegment else s
  | none => s

/-- DRAIN of the Wharfinger: every queued command completes with DOWN (R408). -/
def State.wharfDrain (s : State) : State :=
  let r := State.takeAll 32 (s.cmdFuel 32) s.stowGranted
  let s2 := r.1.foldl (fun t c => t.kvReply c.1 (c.2 / 2 ^ 8 % 256) (c.2 % 256) (c.2 / 2 ^ 16 % 65536) .down 0) r.2
  s2.stowEnd .down

/-- The saves of R400, in step 2 of the drain at Sleep entry. -/
def State.kvSaveAll (s : State) : State :=
  (List.range 4).foldl (fun t p => if t.poolOn p && t.fld 0x0E F.KV_POOL_CFG_RETAIN p == 1 then t.kvSave p else t) s

/-- The Wharfinger's tables and state are lost with its domain. -/
def State.wharfClear (s : State) : State :=
  { s.wipe pageTables (pageTables + 0x200000) with
    wharf := {}, blockQ := Tab.del s.blockQ 32, unitSeq := Tab.del s.unitSeq 32,
    hm := { s.hm with deferred := s.hm.deferred.filter fun g => g.user != .wharfinger } }

/-- A write of KV_CNT.CLR. -/
def execKvCntClr (s : State) : Out := when (s.serves 32) s (s.clearReg 0x0E .KV_CNT 0)

end Sys2Proof.Machine
end

