-- ==== Sys2Proof/Machine/Dredge.lean ====
section
/-! DEFINITION. The Dredger: slots, commands, the load of a problem, the anneal, saving and ending (12_dredger.md).
Log entries: 19 UNVERIFIED, 90 DEDUCED, 92 DEDUCED, 131 DEDUCED, 134 DEDUCED, 135 DEDUCED. -/

namespace Sys2Proof.Machine

/-! ## Slots (Table 12-11, R442) -/

def State.dslot (s : State) (k : Nat) : Nat := s.fld 0x0F F.DRG_SLOT_STAT_STATE k
def State.setDslot (s : State) (k st : Nat) : State := s.setFld 0x0F F.DRG_SLOT_STAT_STATE k st

/-- What a slot's registers set. -/
def State.slotCfg (s : State) (k : Nat) : SlotCfg :=
  { sweeps := s.fld 0x0F F.DRG_SLOT_CFG_SWEEPS k, t0 := BitVec.ofNat 32 (s.fld 0x0F F.DRG_SLOT_TEMP_T0 k),
    alpha := BitVec.ofNat 32 (s.fld 0x0F F.DRG_SLOT_TEMP_ALPHA k), tmin := BitVec.ofNat 32 (s.fld 0x0F F.DRG_SLOT_TMIN_T_MIN k),
    stallLim := s.fld 0x0F F.DRG_SLOT_TMIN_STALL_LIM k, offStep := BitVec.ofNat 32 (s.fld 0x0F F.DRG_SLOT_OFF_OFF_STEP k),
    offCap := BitVec.ofNat 32 (s.fld 0x0F F.DRG_SLOT_OFF_OFF_CAP k) }

/-- CFG_ERR (R442). -/
def SlotCfg.bad (c : SlotCfg) : Bool :=
  let one : Num := .fin false 1 0
  let neg (x : Num) : Bool := notFinite x || (x.sign && !x.isZero)
  c.sweeps == 0 || !positive (ofF32 c.alpha) || one.lt (ofF32 c.alpha) || !positive (ofF32 c.t0) || !positive (ofF32 c.tmin)
    || neg (ofF32 c.offStep) || neg (ofF32 c.offCap)

/-- What follows a write of a slot's registers. -/
def State.drgUpdate (s : State) (k : Nat) : State := s.setFld 0x0F F.DRG_SLOT_STAT_CFG_ERR k (b2n (s.slotCfg k).bad)

/-- DRG_STAT as it reads. -/
def State.drgStat (s : State) : U64 :=
  if (s.dom 33).faulted then F.DRG_STAT_STATE.put (s.reg 0x0F .DRG_STAT 0) 5 else s.reg 0x0F .DRG_STAT 0

/-- DRG_STAT shows the engine. -/
def State.showEngine (s : State) (st k sweep : Nat) : State :=
  s.setReg 0x0F .DRG_STAT 0 (BitVec.ofNat 64 (st + k * 16 + sweep % 2 ^ 32 * 2 ^ 16))

/-! ## Replies (R421) -/

/-- E_BEST_F of a slot's problem: that of the anneal in the engine, or of the ended problem. -/
def State.eBestF (s : State) (k : Nat) : Nat :=
  match s.drg.run == some k, s.drg.anneal with
  | true, some a => a.eBestF.toNat
  | _, _ => match Tab.find s.drg.jobs k with
    | some j => j.eBestF.toNat
    | none => 0

/-- A reply or an END. -/
def State.drgReply (s : State) (src : CmdSrc) (reply op k : Nat) (st : Status) (e : Nat) (send : Bool) : State :=
  match src with
  | .host => s.setReg 0x0F .DRG_HRESP 0
      (BitVec.ofNat 64 (2 ^ 63 + k % 8 * 2 ^ 60 + statusCode st * 2 ^ 56 + s.dslot k * 2 ^ 52 + op % 16 * 2 ^ 48 + e))
  | .manifest cls x y unit =>
    if send then
      s.unitSend 33 (replyManifest cls x y unit reply
        (statusCode st + op * 2 ^ 8 + k * 2 ^ 16 + s.dslot k * 2 ^ 24 + s.fld 0x0F F.DRG_SLOT_STAT_SWEEP k * 2 ^ 32 + e * 2 ^ 64))
    else s

/-- END of a slot's problem, to the reply queue of its SUBMIT (Table 12-4). -/
def State.sendEnd (s : State) (k : Nat) (st : Status) (e : Nat) : State :=
  let s1 := s.setFld 0x0F F.DRG_SLOT_STAT_LAST_STATUS k (statusCode st)
  match Tab.find s.drg.jobs k with
  | some j =>
    let s2 : State := { s1 with drg := { s1.drg with jobs := Tab.put s1.drg.jobs k { j with eBestF := BitVec.ofNat 32 e } } }
    s2.drgReply j.src j.reply.toNat 7 k st e true
  | none => s1

/-- A write of DRG_HCMD1 issues a host command unless one is executing (R450). -/
def State.drgHostCmd (s : State) (v : U64) : State :=
  if s.drg.host.isSome then s
  else (s.setReg 0x0F .DRG_HRESP 0 0).setHostSlot 33 (some (s.reg 0x0F .DRG_HCMD0 0, v)) (Tab.get [] s.blockQ 33).length

/-! ## Commands (Table 12-4) -/

/-- A Dredger command's 16 bytes as a number. -/
def drgWord (op reply k value : Nat) : Nat := op + reply * 2 ^ 8 + k * 2 ^ 16 + value * 2 ^ 64

/-- 16 bytes spell a command: SUBMIT uses VALUE[47:0], no other command uses VALUE (Table 12-4). -/
def drgSpells (op reply k value w : Nat) : Bool :=
  w % 2 ^ 64 == drgWord op reply k 0 && (op != 1 || w / 2 ^ 64 % 2 ^ 48 == value)

/-- The source may use the slot (R420). -/
def State.mayUse (s : State) (src : CmdSrc) (k : Nat) : Bool :=
  match src with
  | .host => s.fld 0x0F F.DRG_SLOT_CFG_HOST k == 1
  | .manifest _ x y unit =>
    if unit.toNat < 32 then
      if x.toNat = s.gx ∧ y.toNat = s.gy then
        s.fld (bslot unit.toNat) F.BERTH_CFG_MEMBER 0 == 1
          && s.fld (bslot unit.toNat) F.BERTH_CFG_PART 0 == s.fld 0x0F F.DRG_SLOT_CFG_PART k
      else (Config.remotePartition x y unit).toNat == s.fld 0x0F F.DRG_SLOT_CFG_PART k
    else false

/-- DRG_BAD of a command: POISON (R420, R421). -/
def State.drgRefuse (s : State) (src : CmdSrc) (reply op k reason : Nat) : State :=
  (s.drgFault 1 k reason (s.fld 0x0F F.DRG_SLOT_DESC_ADDR k)).drgReply src reply op k .poison (s.eBestF k) (nbit reply 2)

/-- The Dredger passes over what it cannot execute: a pointer that cannot be read is DRG_MEM, bytes 3 to 7 that are not zero are
refused with reason 3, and an OP that is no command with reason 11. -/
def State.drgSkim (s : State) : State :=
  State.skim 33 (fun t _ a => t.drgFault 0 0 0 a)
    (fun t src w =>
      let r (reason : Nat) := some (t.drgRefuse src (w / 2 ^ 8 % 256) (w % 256) (w / 2 ^ 16 % 256) reason)
      if w / 2 ^ 24 % 2 ^ 40 ≠ 0 then r 3 else if w % 256 = 0 ∨ 7 ≤ w % 256 then r 11 else none)
    (s.cmdFuel 33) s

/-- Takes up a command when the Dredger serves. -/
def State.drgTake (s : State) (src : CmdSrc) (op reply k value : Nat) : Option State :=
  if s.serves 33 then s.drgSkim.takeCmd 33 src (drgSpells op reply k value) else none

/-- Runs a command: while it is not the next, the Dredger only passes over what it cannot execute; the slot has to be enabled, without
CFG_ERR and permitted, and in one of the states of Table 12-4. -/
def State.drgCmd (s : State) (src : CmdSrc) (reply op k value : Nat) (states : List Nat) (f : State → State) : Out :=
  match s.drgTake src op reply k value with
  | none => .next (if s.serves 33 then s.drgSkim else s)
  | some t =>
    if 8 ≤ k ∨ t.fld 0x0F F.DRG_SLOT_CFG_EN k = 0 ∨ t.fld 0x0F F.DRG_SLOT_STAT_CFG_ERR k = 1 ∨ t.mayUse src k = false then
      .next (t.drgRefuse src reply op k 12)
    else if states.contains (t.dslot k) then .next (f t)
    else if op = 1 then .next (t.drgReply src reply 1 k .busy (t.eBestF k) (nbit reply 2))
    else .next (t.drgRefuse src reply op k 11)

/-- An accepted command's reply. -/
def State.drgOk (s : State) (src : CmdSrc) (reply op k : Nat) : State := s.drgReply src reply op k .ok (s.eBestF k) (nbit reply 2)

/-- A slot joins the queue. -/
def State.enqueueSlot (s : State) (k : Nat) : State :=
  { s.setDslot k 1 with drg := { s.drg with queue := s.drg.queue ++ [k] } }

def execSubmit (src : CmdSrc) (reply k : BitVec 8) (desc : Addr) (s : State) : Out :=
  s.drgCmd src reply.toNat 1 k.toNat desc.toNat [0] fun t =>
    let t1 : State := { t with drg := { t.drg with jobs := Tab.put t.drg.jobs k.toNat { src := src, reply := reply } } }
    let t2 := (t1.setReg 0x0F .DRG_SLOT_DESC k.toNat (BitVec.ofNat 64 desc.toNat)).setFld 0x0F F.DRG_SLOT_STAT_SWEEP k.toNat 0
    (t2.enqueueSlot k.toNat).drgOk src reply.toNat 1 k.toNat

/-! ## The state area (R430, R435) -/

/-- Writes the whole state area; a status other than OK is DRG_MEM. -/
def State.writeArea (s : State) (k : Nat) (a : Anneal) (flags : Nat) : Ans :=
  let d := a.area flags
  let r := State.writeSpan .dredger (spanFuel d.length) s a.sa d
  ⟨r.st, [], if r.st = .ok then r.s else r.s.drgFault 0 k 0 a.sa⟩

/-- The engine becomes free. -/
def State.engineIdle (s : State) : State :=
  { s.setReg 0x0F .DRG_STAT 0 0 with drg := { s.drg with run := none, anneal := none, pausing := false, stopping := false } }

/-- The problem in the engine ends FAILED with a status (R438, R440). -/
def State.drgFail (s : State) (k : Nat) (st : Status) : State :=
  (s.engineIdle.setDslot k 5).sendEnd k st (s.eBestF k)

/-- The state area, when it can still be written, takes FAILED = 1 and VALID = 0 (R440). -/
def State.markFailed (s : State) (sa : Nat) : State := (State.writeSpan .dredger 2 s sa (leBytes 4 8)).s

/-- Saves the problem in the engine and pauses its slot (R435). -/
def State.drgSave (s : State) (k : Nat) (a : Anneal) : State :=
  let w := s.writeArea k a 2
  if w.st = .ok then
    let s1 := w.s.engineIdle.setDslot k 3
    { s1 with drg := { s1.drg with jobs := match Tab.find s1.drg.jobs k with
        | some j => Tab.put s1.drg.jobs k { j with saved := true }
        | none => s1.drg.jobs } }
  else (w.s.markFailed a.sa).drgFail k w.st

/-- PAUSE (R435, R441): a queued problem without a save, a running one at the step boundary. -/
def execPause (src : CmdSrc) (reply k : BitVec 8) (s : State) : Out :=
  s.drgCmd src reply.toNat 2 k.toNat 0 [1, 2] fun t =>
    if t.dslot k.toNat = 1 then
      let t1 : State := { t with drg := { t.drg with queue := t.drg.queue.filter (· != k.toNat) } }
      (t1.setDslot k.toNat 3).drgOk src reply.toNat 2 k.toNat
    else if t.drg.stopping || t.drg.pausing then t.drgRefuse src reply.toNat 2 k.toNat 11
    else
      match t.drg.anneal with
      | some a => (t.drgSave k.toNat a).drgOk src reply.toNat 2 k.toNat
      | none => ({ t with drg := { t.drg with pausing := true } }).drgOk src reply.toNat 2 k.toNat

/-- RESUME. -/
def execResume (src : CmdSrc) (reply k : BitVec 8) (s : State) : Out :=
  s.drgCmd src reply.toNat 3 k.toNat 0 [3] fun t => (t.enqueueSlot k.toNat).drgOk src reply.toNat 3 k.toNat

/-- STOP (R430, R441). -/
def execStop (src : CmdSrc) (reply k : BitVec 8) (s : State) : Out :=
  s.drgCmd src reply.toNat 4 k.toNat 0 [2] fun t =>
    if t.drg.pausing then t.drgRefuse src reply.toNat 4 k.toNat 11
    else ({ t with drg := { t.drg with stopping := true } }).drgOk src reply.toNat 4 k.toNat

/-- COLLECT. -/
def execCollect (src : CmdSrc) (reply k : BitVec 8) (s : State) : Out :=
  s.drgCmd src reply.toNat 5 k.toNat 0 [3, 4, 5] fun t =>
    let t1 : State := { t with drg := { t.drg with jobs := Tab.del t.drg.jobs k.toNat } }
    ((t1.setDslot k.toNat 0).setReg 0x0F .DRG_SLOT_DESC k.toNat 0).drgOk src reply.toNat 5 k.toNat

/-- STATUS. -/
def execDrgStatus (src : CmdSrc) (reply k : BitVec 8) (s : State) : Out :=
  s.drgCmd src reply.toNat 6 k.toNat 0 [0, 1, 2, 3, 4, 5] fun t => t.drgOk src reply.toNat 6 k.toNat

/-! ## The load (R414 to R419, R433, R436, R438) -/

/-- The slot's problem may start: the slot is enabled and its CFG_ERR is 0 (R442). -/
def State.slotReady (s : State) (k : Nat) : Bool :=
  s.fld 0x0F F.DRG_SLOT_CFG_EN k == 1 && s.fld 0x0F F.DRG_SLOT_STAT_CFG_ERR k == 0

/-- The engine is free and the oldest QUEUED problem whose slot is ready starts loading (R422, R442). -/
def execDrgProblemStart (s : State) : Out :=
  if !s.serves 33 || s.drg.run.isSome then nothing s
  else match s.drg.queue.find? s.slotReady with
    | none => nothing s
    | some k =>
      .next (({ s with drg := { s.drg with queue := s.drg.queue.erase k, run := some k, anneal := none, pausing := false,
                                           stopping := false } }.setDslot k 2).showEngine 1 k 0)

/-- What a load has read so far: the first status other than OK with its address, the state and every byte in order. -/
structure Reads where
  st : Status := .ok
  addr : Nat := 0
  s : State
  all : List Byte := []

/-- Reads `n` bytes more; nothing after a failure. -/
def Reads.get (r : Reads) (a n : Nat) : List Byte × Reads :=
  if r.st ≠ .ok then (List.replicate n 0, r)
  else
    let x := State.readSpan .dredger (spanFuel n) r.s a n
    (x.data, { st := x.st, addr := if x.st = .ok then r.addr else a, s := x.s, all := r.all ++ x.data })

/-- Reads the group records; the flag says that the zero fields are zero. -/
def Reads.groups : Nat → Reads → Nat → List (List Nat) × Bool × Reads
  | 0, r, _ => ([], true, r)
  | n + 1, r, a =>
    let h := r.get a 4
    let c := leAt h.1 0 2
    let pad := cdiv (2 * c) 4 * 4
    let m := h.2.get (a + 4) pad
    let t := Reads.groups n m.2 (a + 4 + pad)
    (((List.range c).map fun i => leAt m.1 (2 * i) 2) :: t.1,
      decide (leAt h.1 2 2 = 0) && decide (leNat (m.1.drop (2 * c)) = 0) && t.2.1, t.2.2)

/-- Reads the inequality records. -/
def Reads.ineqs : Nat → Reads → Nat → List Ineq × Bool × Reads
  | 0, r, _ => ([], true, r)
  | n + 1, r, a =>
    let h := r.get a 16
    let c := leAt h.1 0 2
    let m := h.2.get (a + 16) (4 * c)
    let t := Reads.ineqs n m.2 (a + 16 + 4 * c)
    let mem := (List.range c).map fun i => (leAt m.1 (4 * i) 2 % 2 ^ 14, halfAt m.1 (4 * i + 2))
    let z := (List.range c).all fun i => decide (leAt m.1 (4 * i) 2 < 2 ^ 14)
    ({ members := mem, bits := leAt h.1 2 1, b := halfAt h.1 4, step := halfAt h.1 6, pen := halfAt h.1 8 } :: t.1,
      decide (leAt h.1 3 1 = 0) && decide (leAt h.1 10 6 = 0) && z && t.2.1, t.2.2)

/-- The upper triangle of a dense matrix, row by row. -/
def Reads.dense (r : Reads) (n j : Nat) : List (Nat × Nat × Num) × Reads :=
  (List.range n).foldl (fun (a : List (Nat × Nat × Num) × Reads) i =>
    let m := n - 1 - i
    let x := a.2.get (j + 2 * (i * n + i + 1)) (2 * m)
    (a.1 ++ (List.range m).map fun c => (i, i + 1 + c, halfAt x.1 (2 * c)), x.2)) ([], r)

/-- Reads the inputs of a descriptor in the order H, J, G, C. -/
def Reads.inputs (r : Reads) (x : Desc) : Given × Bool × Reads :=
  let h := r.get x.h (2 * x.n)
  let c : List (Nat × Nat × Num) × Bool × Reads :=
    if x.dense then let d := h.2.dense x.n x.j; (d.1, true, d.2)
    else
      let d := h.2.get x.j (8 * x.ncpl)
      ((List.range x.ncpl).map fun i => (leAt d.1 (8 * i) 2 % 2 ^ 14, leAt d.1 (8 * i + 2) 2 % 2 ^ 14, halfAt d.1 (8 * i + 4)),
        (List.range x.ncpl).all fun i => decide (leAt d.1 (8 * i) 2 < 2 ^ 14) && decide (leAt d.1 (8 * i + 2) 2 < 2 ^ 14)
          && decide (leAt d.1 (8 * i + 6) 2 = 0), d.2)
  let g := Reads.groups x.ngrp c.2.2 x.g
  let q := Reads.ineqs x.ncon g.2.2 x.c
  ({ h := (List.range x.n).map fun i => halfAt h.1 (2 * i), cpl := c.1, groups := g.1, ineqs := q.1 },
    c.2.1 && g.2.1 && q.2.1, q.2.2)

/-- The anneal that a problem begins with, before its initial state is known (R418, R427). -/
def Given.begin (x : Given) (d : Desc) (c : SlotCfg) (incrc : Nat) : Anneal :=
  let n := x.ntot d.n
  let co := x.expand d.n
  let sc := co.scale
  let k := fdiv (Num.ofInt 2047) sc
  let g := seedGen (BitVec.ofNat 64 d.seed)
  let g1 := genStep g.1 g.2
  { sa := d.sa, n := n, dense := d.dense, h := (List.range n).map fun v => codeOf k (Tab.get .zero co.h v),
    adj := adjacency n d.dense (co.codes k), groups := x.groups, scale := toF32 sc, k := toF32 k, qerr := toF32 (co.qerr sc k),
    incrc := incrc, s0 := g1.1, s1 := g1.2, t := c.t0 }

/-- Every group has exactly one member on (R416). -/
def Anneal.groupsOk (a : Anneal) (x : Nat) : Bool := a.groups.all fun g => (g.filter fun v => nbit x v).length == 1

/-- The problem in the engine is refused with a reason (R438). -/
def State.drgBad (s : State) (k reason addr : Nat) : State := (s.drgFault 1 k reason addr).drgFail k .poison

/-- A read of the load completed with a status other than OK (R440). -/
def State.loadFail (s : State) (k addr sa : Nat) (st : Status) : State :=
  ((s.drgFault 0 k 0 addr).markFailed sa).drgFail k st

/-- The anneal begins. -/
def State.annealBegin (s : State) (k : Nat) (a : Anneal) : State :=
  let s1 := (({ s with drg := { s.drg with anneal := some a, varEcc := [] } }.showEngine 2 k a.sweep)).setFld 0x0F F.DRG_SLOT_STAT_SWEEP k a.sweep
  if s1.drg.pausing then s1.drgSave k a else s1

/-- The rest of a load, once the inputs have been read and checked: expansion, scaling, the store, the initial or the saved
state. -/
def State.loadExpand (s : State) (k addr : Nat) (d : Desc) (x : Given) (incrc : Nat) (area : Option (List Byte)) : State :=
  let n := x.ntot d.n
  let co := x.expand d.n
  let a := x.begin d (s.slotCfg k) incrc
  if (co.h ++ co.j).any fun p => notFinite p.2 then s.drgBad k 7 addr
  else if (if d.dense then 2048 else 16384) < n ∨ (d.dense = false ∧ 524288 < (co.j.filter fun p => !p.2.isZero).length) then
    s.drgBad k 8 addr
  else
    let img := storeImage n d.dense (co.codes (ofF32 a.k))
    let s1 := ((s.freshEcc couplingStore (couplingStore + img.length)).putBytes couplingStore img).count 0x0F F.DRG_CNT_ZEROED 0 (co.zeroed (ofF32 a.k))
    match area with
    | some ar =>
      if leAt ar 80 4 ≠ incrc ∨ leAt ar 68 2 ≠ n then s1.drgBad k 10 addr else s1.annealBegin k (a.continue_ ar)
    | none =>
      if d.init then
        let r := State.readSpan .dredger (spanFuel (8 * xWords n)) s1 (d.sa + 384) (8 * xWords n)
        if r.st ≠ .ok then r.s.loadFail k (d.sa + 384) d.sa r.st
        else
          let x0 := leNat r.data % 2 ^ n
          if a.groupsOk x0 then
            let e := a.energy x0
            r.s.annealBegin k { a with x := x0, best := x0, e := e, eBest := e }
          else r.s.drgBad k 9 addr
      else
        let x0 := maskOf (x.groups.map fun g => g.headD 0) fun _ => true
        let e := a.energy x0
        s1.annealBegin k { a with x := x0, best := x0, e := e, eBest := e }

/-- The load of the problem in the engine. -/
def State.drgLoad (s : State) (k : Nat) (j : Job) : State :=
  let addr := s.fld 0x0F F.DRG_SLOT_DESC_ADDR k
  if addr % 64 ≠ 0 then s.drgBad k 1 addr
  else
    let r0 := Reads.get { s := s } addr 64
    if r0.2.st ≠ .ok then (r0.2.s.drgFault 0 k 0 addr).drgFail k r0.2.st
    else
      let d := Desc.read r0.1
      let bad := d.bad r0.1
      if bad ≠ 0 then r0.2.s.drgBad k bad addr
      else
        let resume := d.resume || j.saved
        -- the saved area is read whole, once its head gives NTOT
        let head := if resume then State.readSpan .dredger 4 r0.2.s d.sa 384 else ⟨.ok, [], r0.2.s⟩
        let nt := leAt head.data 68 2
        let ar := if resume then State.readSpan .dredger (spanFuel (384 + 16 * xWords nt)) head.s d.sa (384 + 16 * xWords nt) else head
        if mergeStatus head.st ar.st ≠ .ok then ar.s.loadFail k d.sa d.sa (mergeStatus head.st ar.st)
        else if resume && !areaSaved ar.data then ar.s.drgBad k 10 addr
        else
          let first := patch r0.1 2 [BitVec.ofNat 8 (leAt r0.1 2 1 % 2)]
          let q := Reads.inputs { s := ar.s, all := first } d
          if q.2.2.st ≠ .ok then q.2.2.s.loadFail k q.2.2.addr d.sa q.2.2.st
          else
            let bad2 := q.1.bad d.n q.2.1
            if bad2 ≠ 0 then q.2.2.s.drgBad k bad2 addr
            else q.2.2.s.loadExpand k addr d q.1 (crc32c q.2.2.all) (if resume then some ar.data else none)

/-- DRG_LOAD_DONE. -/
def execDrgLoadDone (s : State) : Out :=
  match s.drg.run, s.drg.anneal with
  | some k, none =>
    if s.serves 33 then
      match Tab.find s.drg.jobs k with
      | some j => .next (s.drgLoad k j)
      | none => nothing s
    else nothing s
  | _, _ => nothing s

/-! ## The anneal -/

/-- The problem ends (R430). -/
def State.drgEnd (s : State) (k : Nat) (a : Anneal) (stopped : Bool) : State :=
  let w := s.writeArea k a (if stopped then 5 else 1)
  if w.st = .ok then (w.s.engineIdle.setDslot k 4).sendEnd k .ok a.eBestF.toNat
  else (w.s.markFailed a.sa).drgFail k w.st

/-- The errors of variable `v`'s word in a copy of the variable memory. -/
def State.varErr (s : State) (v c : Nat) : Nat := Tab.get 0 s.drg.varEcc (2 * v + c)

/-- A read of words of the variable memory, checked as the store's words are (R411, R440). -/
def State.readVars (s : State) (k : Nat) (vs : List Nat) : Status × State :=
  let t := vs.foldl (fun t v => [0, 1].foldl (fun (u : State) c =>
    if u.varErr v c = 1 then
      ({ u with drg := { u.drg with varEcc := Tab.set 0 u.drg.varEcc (2 * v + c) 0 } }).drgFault 2 k 0 0
    else u) t) s
  match vs.find? fun v => s.varErr v 0 == 2 || s.varErr v 1 == 2 with
  | none => (.ok, t)
  | some v => if s.varErr v 0 = s.varErr v 1 then (.poison, t.drgFault 3 k 0 0) else (.down, t.halvesDiffer (.store 0))

/-- The words of the coupling store that hold the adjacency of a variable (R419). -/
def Anneal.storeWords (a : Anneal) (v : Nat) : List Nat :=
  if a.dense then
    ((List.range a.n).filter (· != v)).flatMap fun u =>
      let i := min u v
      wordsOf (couplingStore + 2 * (i * a.n - i * (i + 1) / 2 + max u v - i - 1)) 2
  else
    wordsOf (couplingStore + 4 * total ((a.adj.filter fun c => decide (c.1 < v)).map fun c => c.2.length)) (4 * (a.nb v).length)

/-- What a step reads: the store words of the adjacency it walks, then the words of its candidates and of the neighbours walked. -/
def State.readStep (s : State) (k : Nat) (a : Anneal) : Status × State :=
  let r := s.readWords (.store 0) ((a.walk.flatMap a.storeWords).eraseDups)
  if r.1 = .ok then r.2.readVars k ((a.cands ++ a.walk.flatMap fun v => (a.nb v).map (·.1)).eraseDups) else r

/-- The step itself; at the end of a sweep R428, at the end of the problem R430. -/
def State.annealStep (s : State) (k : Nat) (a : Anneal) : State :=
  let b := a.step
  let s1 := s.count 0x0F F.DRG_CNT_DEFER 0 b.deferred.length
  if b.sweepDone then
    let c := s.slotCfg k
    let e := b.sweepEnd c
    let s2 := ({ s1 with drg := { s1.drg with anneal := some e } }.showEngine 2 k e.sweep).setFld 0x0F F.DRG_SLOT_STAT_SWEEP k e.sweep
    if c.sweeps ≤ e.sweep ∨ s.drg.stopping = true then s2.drgEnd k e s.drg.stopping else s2
  else { s1 with drg := { s1.drg with anneal := some b } }

/-- DRG_STEP (R423 to R432): what the step reads is checked first (R440). -/
def execDrgStep (s : State) : Out :=
  match s.drg.run, s.drg.anneal with
  | some k, some a =>
    if !s.serves 33 then nothing s
    else match s.readStep k a with
      | (.ok, t) => .next (t.annealStep k a)
      | (.poison, t) => .next ((t.markFailed a.sa).drgFail k .poison)
      | (_, t) => .next t
  | _, _ => nothing s

/-- A write of DRG_CNT.CLR. -/
def execDrgCntClr (s : State) : Out := when (s.serves 33) s (s.clearReg 0x0F .DRG_CNT 0)

/-! ## Drain and loss (R443, R444) -/

/-- DRAIN of the Dredger: new commands complete with DOWN; an annealing problem is saved and every problem completes with
DOWN. -/
def State.dredgerDrain (s : State) : State :=
  let r := State.takeAll 33 (s.cmdFuel 33) s
  let s2 := r.1.foldl (fun t c =>
    t.drgReply c.1 (c.2 / 2 ^ 8 % 256) (c.2 % 256) (c.2 / 2 ^ 16 % 256) .down (t.eBestF (c.2 / 2 ^ 16 % 256)) (nbit (c.2 / 2 ^ 8) 2)) r.2
  let s3 := match s2.drg.run, s2.drg.anneal with
    | some k, some a => (s2.writeArea k a 2).s
    | _, _ => s2
  let s4 := s3.engineIdle
  (List.range 8).foldl (fun t k =>
    if t.dslot k = 1 ∨ t.dslot k = 2 ∨ t.dslot k = 3 then (t.setDslot k 0).sendEnd k .down (s2.eBestF k) else t) s4

/-- The Dredger's store and slots are lost with its domain. -/
def State.dredgerClear (s : State) : State :=
  { s.wipe couplingStore (couplingStore + 0x400000) with
    drg := {}, blockQ := Tab.del s.blockQ 33, unitSeq := Tab.del s.unitSeq 33 }

end Sys2Proof.Machine
end

