-- ==== Sys2Proof/Machine/Mesh.lean ====
section
/-! DEFINITION. The router, head flits and the Quays (14_zenier_mesh.md).
Log entries: 93 DEDUCED, 94 DEDUCED, 95 DEDUCED, 96 DESIGN CHOICE, 97 DEDUCED, 127 DEDUCED, 130 DEDUCED. -/

namespace Sys2Proof.Machine

/-! ## Quays -/

/-- Credits of a VC. -/
def Quay.credit (x : Quay) (v : Nat) : Nat := Tab.get 0 x.credits v

/-- Flits of a VC that wait in the transmit queue; each has its credit. -/
def Quay.queued (x : Quay) (v : Nat) : Nat := total ((x.txq.filter fun e => hVc e.1 == v).map fun e => flitsOf e.1)

/-- Credits of a VC that nothing has taken yet; those of a CRED of this nanosecond are not usable (R30, R527). -/
def Quay.avail (x : Quay) (now v : Nat) : Nat :=
  x.credit v - x.queued v - (if x.credAt = now then Tab.get 0 x.credNew v else 0)

/-- Flits in the replay buffer. -/
def Quay.inReplay (x : Quay) : Nat := total (x.replay.map fun g => total (g.2.map flitsOf))

/-- The VC whose flit is sent next: Class S first, its two VCs in turn; the others by round robin (R458, R491). -/
def Quay.nextVc (x : Quay) : Option Nat :=
  let has (v : Nat) : Bool := x.txq.any fun e => hVc e.1 == v
  ([1 - x.turnS, x.turnS].find? has).or (((List.range 4).map fun i => 2 + (x.turn + i + 3) % 4).find? has)

/-- The transmit queue without the first flit of an entry. -/
def cutEntry (l : List (Packet × Nat)) (e : Packet × Nat) : List (Packet × Nat) :=
  match (cutPacket e.1 1).2 with
  | none => l.erase e
  | some r => l.replace e (r, e.2)

/-- Takes the next flit out of the transmit queue: the oldest packet's of its VC (R481). -/
def Quay.takeFlit (x : Quay) : Option (Packet × Quay) :=
  match x.nextVc with
  | none => none
  | some v => match x.txq.find? fun e => hVc e.1 == v with
    | none => none
    | some e => some ((cutPacket e.1 1).1,
        { x with txq := cutEntry x.txq e, credits := Tab.set 0 x.credits v (x.credit v - 1),
                 turnS := if v < 2 then v else x.turnS, turn := if v < 2 then x.turn else v - 1 })

/-- Gathers the flits of one group: it closes with 16 flits, with a Class S head flit, when no flit is ready, and a flit that does not
fit in the replay buffer waits (R482, R485). -/
def Quay.gather : Nat → Quay → List Packet → List Packet × Quay
  | 0, x, g => (g, x)
  | fuel + 1, x, g =>
    if 64 ≤ x.inReplay + g.length then (g, x)
    else match x.takeFlit with
      | none => (g, x)
      | some (p, y) => if hVc p < 2 ∧ p.cont = false then (g ++ [p], y) else Quay.gather fuel y (g ++ [p])

/-- Sends every group that can be sent (R485). -/
def State.quayPump : Nat → State → Nat → State
  | 0, s, _ => s
  | fuel + 1, s, q =>
    if s.qstate q ≠ 7 then s
    else
      let r := Quay.gather 16 (s.quay q) []
      if r.1 = [] then s
      else
        let x := r.2
        let x1 := { x with replay := x.replay ++ [(x.txG, r.1)], txG := (x.txG + 1) % 256,
                           sent := x.sent ++ [.group x.txG r.1], lastProg := if x.replay = [] then s.clk.now else x.lastProg }
        State.quayPump fuel (s.setQuay q x1) q

/-- Pumps with enough fuel for every queued flit. -/
def State.pump (s : State) (q : Nat) : State :=
  State.quayPump (total ((s.quay q).txq.map fun e => flitsOf e.1) + 1) s q

/-- CRED with the cumulative counts (R490). -/
def Quay.credBlock (x : Quay) : BitVec 42 :=
  BitVec.ofNat 42 ((List.range 6).foldl (fun n v => n + Tab.get 0 x.freed v % 128 * 128 ^ v) 0)

def State.sendCred (s : State) (q : Nat) : State :=
  (s.setQuay q { s.quay q with lastCred := s.clk.now }).linkSend q (.cred (s.quay q).credBlock)

/-- ACK or NAK of the last accepted group (R486, R487). -/
def State.sendAck (s : State) (q : Nat) (nak : Bool) : State :=
  (s.setQuay q { s.quay q with lastAck := s.clk.now }).linkSend q (.ack (BitVec.ofNat 8 ((s.quay q).rxG + 255)) nak)

/-! ## Answers (Tables 14-8 and 14-9) -/

/-- The requester that a unit code names on this chip. -/
def unitRequester (u : Nat) : Requester :=
  if h : u < 32 then .berth ⟨u, h⟩
  else if u = 32 then .wharfinger else if u = 33 then .dredger else if u = 34 then .pilot else if u = 35 then .lighter
  else if u = 36 then .intake else .host .pcie

/-- The RESP that answers a request (R511): a read that is not OK carries no data and POISON = 1. -/
def State.respTo (s : State) (p : Packet) (st : Status) (d : List Byte) : State :=
  if hSrcX p = s.gx ∧ hSrcY p = s.gy then
    { s with resps := s.resps ++ [⟨unitRequester (hReq p), hTag p, BitVec.ofNat 2 (hEpoch p), st, if st = .ok then d else []⟩] }
  else
    let h := s.headTo 5 0 (hSrcX p) (hSrcY p) (hReq p)
    let d1 := if st = .ok then d else []
    let h1 := { h with poison := st != Status.ok && hKind p == 3, tag := hTag p, epoch := hEpoch p, op := statusCode st, len := hLen p }
    s.meshOut (if hKind p = 4 then { h1 with opr := leNat d1 }.flit []
      else if d1.length ≤ 32 then { h1 with body := leNat d1 }.flit [] else h1.flit d1)

/-- A BGRANT to the sending Lighter of a transfer. -/
def State.grant (s : State) (x y : Nat) (num : U32) (st : Status) : State :=
  let h := { s.headTo 8 0 x y 35 with op := statusCode st, opr := num.toNat }
  if x = s.gx ∧ y = s.gy then { s with mesh := { s.mesh with inbox := s.mesh.inbox ++ [h.flit []] } } else s.meshOut (h.flit [])

/-- The answer to a head flit that cannot go on, with a status; `q` is the Quay it was routed to. -/
def State.refuseHead (s : State) (p : Packet) (st : Status) (q : Option Nat) : State :=
  let lost (t : State) : State := match q with
    | some q => t.count (qslot q) F.QUAY_CNT_LOST 0 1
    | none => t
  let down (t : State) : State := if st = .down then t.count 9 F.ROUTE_STAT_DOWN 0 1 else t
  let m := hManifest p
  if hKind p = 1 then (if mNack m then lost s else down (s.nack m (mClass m == 0) st))
  else if [2, 3, 4].contains (hKind p) then down (s.respTo p st [])
  else if hKind p = 7 ∨ hKind p = 9 then down (s.grant (hSrcX p) (hSrcY p) (hXfer p) st)
  else lost s

/-! ## Entering the mesh: what waits on this chip -/

/-- The MANIFEST head flit of a Manifest. -/
def State.manifestHead (s : State) (m : Manifest) : Packet :=
  { s.headTo 1 (mClass m) (mNum m 0 1) (mNum m 1 1) (mNum m 8 1 % 64) with
    sx := mNum m 6 1, sy := mNum m 7 1, unit := mNum m 2 1, body := m.toNat }.flit []

/-- The request head flit of a Crane tag to another chip (R510). -/
def State.requestHead (s : State) (n tag : Nat) (t : Tag) : Option Packet :=
  match s.place t.addr with
  | .remote c off => some (s.windowHead n tag t.epoch.toNat c off t.op)
  | _ => none

/-- A Manifest of this chip that is bound for another: at the head of its class in a Berth's egress, or sent by a block. -/
def State.outgoing (s : State) (m : Manifest) : Bool :=
  !s.mHere m &&
    (s.net.contains m || (decide (mSrcUnit m < 32) && ((s.berth (mSrcUnit m)).eg (mClass m)).head? == some m))

/-- The destination chip of a Manifest or of a request's head flit. -/
def mDest (m : Manifest) : Nat := mNum m 0 2
def hDest (p : Packet) : Nat := hNum p 1 2

/-- No older request and no older Class A Manifest of a Berth to the same chip waits (R58). -/
def State.oldest (s : State) (n dest ord : Nat) : Bool :=
  let b := s.berth n
  (b.tags.all fun t => t.2.sent || decide (ord ≤ t.2.ord) ||
      (match s.requestHead n t.1 t.2 with
      | some p => hDest p != dest
      | none => true))
    && b.egA.all fun m => mDest m != dest || decide (ord ≤ Tab.get 0 b.egOrd (mNum m 10 2))

/-- A Manifest of the egress or the network may leave: a Class A Manifest of a Berth in its order. One that the Lighter carries never
leaves as a head flit of its own (R512). -/
def State.manifestLeaves (s : State) (m : Manifest) : Bool :=
  let lt := !s.inDomain (mNum m 0 1) (mNum m 1 1) && mClass m != 0 && !mInline m
  s.outgoing m && !lt && (match s.net.find? (sameOrder m) with
    | some a => a == m
    | none => true)
    && (mClass m != 1 || !s.mOwn m || s.oldest (mSrcUnit m) (mDest m) (Tab.get 0 (s.berth (mSrcUnit m)).egOrd (mNum m 10 2)))

/-- The credit return that a CRET head flit carries. -/
def State.cretOf (s : State) (p : Packet) : Option Credit :=
  s.credits.find? fun c => c.x.toNat == hDestX p && c.y.toNat == hDestY p && c.unit.toNat == hUnit p
    && c.fromUnit.toNat == hReq p && c.cause == hNum p 17 1 && !(c.x.toNat == s.gx && c.y.toNat == s.gy)

/-- The first packet of a router's own input queue with the VC, source unit and destination of a packet. -/
def firstOut (l : List (Packet × Nat)) (p : Packet) : Option (Packet × Nat) :=
  l.find? fun e => hVc e.1 == hVc p && hReq e.1 == hReq p && hDest e.1 == hDest p

/-- A packet is the next of its order at an input of the router: 0 for this chip, 1 to 4 for the Quays. -/
def State.presented (s : State) (from_ : Option (Fin 4)) (p : Packet) : Bool :=
  match from_ with
  | some q => ((s.quay q).rxq.find? fun e => hVc e.1 == hVc p).any fun e => e.1 == p
  | none =>
    if s.mesh.out.any fun e => e.1 == p then (firstOut s.mesh.out p).any fun e => e.1 == p
    else if hKind p = 1 then p == s.manifestHead (hManifest p) && s.manifestLeaves (hManifest p)
    else if hKind p = 6 then (s.cretOf p).isSome
    else match Tab.find (s.berth (hReq p)).tags (hTag p) with
      | some t => decide (hReq p < 32) && !t.sent && s.requestHead (hReq p) (hTag p) t == some p && s.oldest (hReq p) (hDest p) t.ord
      | none => false

/-- The packet leaves the place where it waited; data flits that cannot go on yet stay. -/
def State.taken (s : State) (from_ : Option (Fin 4)) (p : Packet) (rest : Option Packet) : State :=
  match from_ with
  | some q =>
    let x := s.quay q
    match x.rxq.find? fun e => e.1 == p with
    | none => s
    | some e =>
      let n := flitsOf p - (match rest with
        | some r => flitsOf r
        | none => 0)
      let l := match rest with
        | some r => x.rxq.replace e (r, e.2)
        | none => x.rxq.erase e
      (s.setQuay q { x with rxq := l, freed := Tab.set 0 x.freed (hVc p) ((Tab.get 0 x.freed (hVc p) + n) % 128) }).sendCred q
  | none =>
    match s.mesh.out.find? fun e => e.1 == p with
    | some e =>
      let l := match rest with
        | some r => s.mesh.out.replace e (r, e.2)
        | none => s.mesh.out.erase e
      { s with mesh := { s.mesh with out := l } }
    | none =>
      let s1 : State :=
        if hKind p = 1 then s.unsent (hManifest p)
        else if hKind p = 6 then
          (match s.cretOf p with
          | some c => { s with credits := s.credits.erase c }
          | none => s)
        else
          let b := s.berth (hReq p)
          (match Tab.find b.tags (hTag p) with
          | some t => s.setBerth (hReq p) { b with tags := Tab.put b.tags (hTag p) { t with sent := true, t0 := s.clk.now } }
          | none => s)
      match rest with
      | some r => { s1 with mesh := { s1.mesh with out := (r, s.clk.now) :: s1.mesh.out } }
      | none => s1

/-! ## HEAD_FLIT_ROUTE (R505 to R507, R522, R524) -/

/-- Number of an input of the router. -/
def inputOf : Option (Fin 4) → Nat
  | none => 0
  | some q => q + 1

/-- A whole packet for this chip reaches its unit. -/
def State.routeArrive (s : State) (p : Packet) : State :=
  if hKind p = 1 ∧ mClass (hManifest p) ≠ 1 then { s with net := s.net ++ [hManifest p] }
  else if hKind p = 6 then
    let f := hNum p 16 1
    { s with credits := s.credits ++ [{ x := BitVec.ofNat 8 s.gx, y := BitVec.ofNat 8 s.gy, unit := BitVec.ofNat 6 (hUnit p), fromX := BitVec.ofNat 8 (hSrcX p),
                                        fromY := BitVec.ofNat 8 (hSrcY p), fromUnit := BitVec.ofNat 6 (hReq p),
                                        queue := s.fld (bslot (hUnit p)) F.MSG_SFLOW_QUEUE f, cause := hNum p 17 1 }] }
  else { s with mesh := { s.mesh with inbox := s.mesh.inbox ++ [p] } }

/-- Flits for this chip: a packet arrives once its last data flit has come. A Class A Manifest that its queue does not take waits in its
VC (R454). -/
def State.routeHere (s : State) (src : Nat) (p : Packet) : Option State :=
  let key := src * 8 + hVc p
  let whole (r : Packet) : Option State :=
    if r.more then some { s with mesh := { s.mesh with parts := Tab.put s.mesh.parts key r } }
    else ({ s with mesh := { s.mesh with parts := Tab.del s.mesh.parts key } }).routeArrive r
  if p.cont then
    match Tab.find s.mesh.parts key with
    | some a => whole { a with data := a.data ++ p.data, more := p.more }
    | none => some s
  else if hKind p = 1 ∧ s.mustWait (hManifest p) = true then none
  else whole p

/-- No packet passes a Quay in a VC any longer. -/
def State.passEnd (s : State) (key : Nat) : State := { s with mesh := { s.mesh with under := Tab.del s.mesh.under key } }

/-- Flits leave through a Quay as far as it holds credits for them (R18, R20): the state and what stays; nothing while there is no credit
or another packet passes in this VC (R481). -/
def State.routeOut (s : State) (src q : Nat) (p : Packet) : Option (State × Option Packet) :=
  let key := q * 8 + hVc p
  let mine := Tab.find s.mesh.under key == some (p.head, src)
  if s.wayDown q && !(mine && s.qstate q == 7) then
    some (if p.cont then s.passEnd key else (s.askWake q).refuseHead p .down (some q), none)
  else if p.cont && !mine then some (s, none)
  else if !p.cont && (Tab.find s.mesh.under key).isSome then none
  else
    let x := s.quay q
    let k := min (flitsOf p) (x.avail s.clk.now (hVc p))
    if k = 0 then none
    else
      let c := cutPacket p k
      let s1 := s.setQuay q { x with txq := x.txq ++ [(c.1, s.clk.now)] }
      let s2 := if c.1.more then { s1 with mesh := { s1.mesh with under := Tab.put s1.mesh.under key (p.head, src) } } else s1.passEnd key
      some (s2.pump q, c.2)

/-- The router handles flits at an input: the state and what stays there; nothing while they have to wait. -/
def State.routeHead (s : State) (src : Nat) (p : Packet) : Option (State × Option Packet) :=
  if !p.cont && badHead p then some ((s.count 9 F.ROUTE_STAT_REFUSED 0 1).record 9 2, none)
  else if 128 ≤ hDestY p then
    some (if p.cont then s else ((s.refuseHead p .poison none).count 9 F.ROUTE_STAT_REFUSED 0 1).record 9 0, none)
  else match s.direction (hDestX p) (hDestY p) (s.planeOf p) with
    | none => (s.routeHere src p).map fun t => (t, none)
    | some q => s.routeOut src q p

/-- HEAD_FLIT_ROUTE: the next packet of its order at an input of the router goes on. -/
def execHeadFlitRoute (from_ : Option (Fin 4)) (p : Packet) (s : State) : Out :=
  if !s.awake || !s.presented from_ p then nothing s
  else match s.routeHead (inputOf from_) p with
    | none => nothing s
    | some (t, rest) => .next (t.taken from_ p rest)

/-! ## Groups, replay and credits (R485 to R490) -/

/-- Flits join a receive queue: data flits extend the packet that they continue, the last of its VC. -/
def joinRx (now : Nat) (l : List (Packet × Nat)) (p : Packet) : List (Packet × Nat) :=
  match (l.reverse.find? fun e => hVc e.1 == hVc p) with
  | some e =>
    if p.cont && e.1.more && e.1.head == p.head then
      (l.reverse.replace e ({ e.1 with data := e.1.data ++ p.data, more := p.more }, e.2)).reverse
    else l ++ [(p, now)]
  | none => l ++ [(p, now)]

/-- FLIT_GROUP (R486). -/
def execFlitGroup (q : Fin 4) (gseq : BitVec 8) (crcOk : Bool) (flits : List Packet) (s : State) : Out :=
  if !s.awake || s.qstate q != 7 then nothing s
  else
    let x := s.quay q
    if crcOk && gseq.toNat == x.rxG then
      .next (s.setQuay q { x with rxG := (x.rxG + 1) % 256, nakSent := false, rxq := flits.foldl (joinRx s.clk.now) x.rxq })
    else
      let s1 := if crcOk then s else s.count (qslot q) F.QUAY_CNT_CRC_ERR 0 1
      if x.nakSent then .next s1
      else .next ((s1.setQuay q { s1.quay q with nakSent := true }).sendAck q true)

/-- A control block that fails its CRC-8 is discarded and counted. -/
def State.ctlErr (s : State) (q : Nat) : State := s.count (qslot q) F.QUAY_CNT_CTL_ERR 0 1

/-- CRED (R490): the credits of the flits freed since the last, no more than the neighbour grants a VC (R489), usable from the next
nanosecond on. -/
def execCred (q : Fin 4) (counts : BitVec 42) (crcOk : Bool) (s : State) : Out :=
  if !s.awake || s.qstate q != 7 then nothing s
  else if !crcOk then .next (s.ctlErr q)
  else
    let x := s.quay q
    let now (v : Nat) := counts.toNat / 128 ^ v % 128
    let old (v : Nat) := if x.credAt = s.clk.now then Tab.get 0 x.credNew v else 0
    let x1 := (List.range 6).foldl (fun (y : Quay) v =>
      let c := min (x.credit v + (now v + 128 - Tab.get 0 x.counts v) % 128) (bitsOf (x.nbVc.zeroExtend 64) (8 * v + 7) (8 * v))
      { y with credits := Tab.set 0 y.credits v c, counts := Tab.set 0 y.counts v (now v),
               credNew := Tab.set 0 y.credNew v (old v + (c - x.credit v)) }) { x with credAt := s.clk.now }
    .next (s.setQuay q x1)

/-- CRED_TIMER: 1 µs without a CRED. -/
def execCredTimer (q : Fin 4) (s : State) : Out :=
  when (s.awake && s.qstate q == 7 && decide ((s.quay q).lastCred + 1000 ≤ s.clk.now)) s (s.sendCred q)

/-- ACK_TIMER: an idle receiver sends an ACK at least every 500 ns (R487). -/
def execAckTimer (q : Fin 4) (s : State) : Out :=
  when (s.awake && s.qstate q == 7 && decide ((s.quay q).lastAck + 500 ≤ s.clk.now)) s (s.sendAck q false)

/-- Groups up to ACKSEQ leave the replay buffer; an ACKSEQ that names none of them changes nothing (R485). -/
def State.acked (s : State) (q seq : Nat) : State :=
  let x := s.quay q
  if x.replay.any fun g => g.1 == seq then
    s.setQuay q { x with replay := (x.replay.dropWhile fun g => g.1 != seq).tail, lastProg := s.clk.now }
  else s

/-- ACK. -/
def execAck (q : Fin 4) (ackseq : BitVec 8) (crcOk : Bool) (s : State) : Out :=
  if !s.awake || s.qstate q != 7 then nothing s
  else if !crcOk then .next (s.ctlErr q) else .next ((s.acked q ackseq.toNat).pump q)

/-- What a Quay has to send and its link's counts are discarded, and so is a packet of which a part has come (R522). -/
def Quay.discard (x : Quay) : Quay :=
  { x with rxq := [], txq := [], replay := [], txG := 0, rxG := 0, nakSent := false, credits := [], credNew := [], counts := [], freed := [],
           replays := 0, replayG := 0, nbVc := 0, woken := false }

/-- A Quay discards its link. The packets that it has received whole go on from the router (R19); of a packet that has not come whole, and
of one that was passing out, no more is sent. -/
def State.quayDrop (s : State) (q : Nat) : State :=
  let x := s.quay q
  let kept := x.rxq.filter fun e => !e.1.cont && !e.1.more
  let t : State := { s with mesh := { s.mesh with
    out := s.mesh.out ++ kept
    under := Tab.drop s.mesh.under fun k => k / 8 == q || (Tab.find s.mesh.under k).any fun c => c.2 == q + 1
    parts := Tab.drop s.mesh.parts fun k => k / 8 == q + 1 } }
  t.setQuay q x.discard

/-- A link is lost: LINK_DOWN, QUAY_LOSS, state down (R521, R522). -/
def State.quayLose (s : State) (q : Nat) : State :=
  (((s.quayDrop q).setQstate q 10).setReg (qslot q) .QUAY_LOSS 0 s.tide).record (qslot q) 0

/-- The transmitter resends every unacknowledged group; eight replays in a row of the same group lose the link (R487,
R488). -/
def State.resend (s : State) (q : Nat) : State :=
  let s0 := s.count (qslot q) F.QUAY_CNT_REPLAY 0 1
  let x := s0.quay q
  match x.replay with
  | [] => s0
  | (g, fl) :: rest =>
    let n := if x.replays ≠ 0 ∧ x.replayG = g then x.replays + 1 else 1
    if 8 ≤ n then s0.quayLose q
    else
      s0.setQuay q { x with replays := n, replayG := g, lastProg := s.clk.now,
                            sent := x.sent ++ ((g, fl) :: rest).map fun e => .group e.1 e.2 }

/-- NAK (R487). -/
def execNak (q : Fin 4) (ackseq : BitVec 8) (crcOk : Bool) (s : State) : Out :=
  if !s.awake || s.qstate q != 7 then nothing s
  else if !crcOk then .next (s.ctlErr q)
  else
    let s1 := (s.acked q ackseq.toNat).resend q
    .next (s1.pump q)

/-- REPLAY_TIMEOUT: 2 µs without progress (R487). -/
def execReplayTimeout (q : Fin 4) (s : State) : Out :=
  when (s.awake && s.qstate q == 7 && !(s.quay q).replay.isEmpty && decide ((s.quay q).lastProg + 2000 ≤ s.clk.now)) s (s.resend q)

/-! ## Loss, sleep notice and training (R494 to R502, R521) -/

/-- The neighbour has sent SLEEP or QUIESCE: no loss is recorded (R501, R522). -/
def State.quayAsleep (s : State) (q st : Nat) : State := (s.quayDrop q).setQstate q st

def execSleepNotice (q : Fin 4) (s : State) : Out := when (s.awake && s.qstate q == 7) s (s.quayAsleep q 8)
def execQuiesce (q : Fin 4) (s : State) : Out := when (s.awake && s.qstate q == 7) s (s.quayAsleep q 9)

/-- LINK_LOSS: lock, silence and buffer errors are found on the link; the replay limit is counted here. -/
def execLinkLoss (q : Fin 4) (cause : LossCause) (s : State) : Out :=
  when (s.awake && s.qstate q == 7 && (match cause with
    | .replayLimit => decide (8 ≤ (s.quay q).replays)
    | _ => true)) s (s.quayLose q)

/-- The Quay's domain is on. -/
def State.quayOn (s : State) (q : Nat) : Bool := s.serves (domainOf (qslot q))

/-- DETECT begins at the highest rate (R494, R496). -/
def State.trainBegin (s : State) (q : Nat) : State :=
  let s1 := (s.quayDrop q).setReg (qslot q) .QUAY_STAT 0 0
  ((s1.setFld (qslot q) F.QUAY_STAT_RATE 0 (s.fld (qslot q) F.QUAY_CFG_MAXRATE 0)).setQstate q 1).setQuay q
    { s1.quay q with retrain := false }

/-- LINK_TRAINING: a Quay that is on and idle, one that has lost its link, or one told to retrain. -/
def execLinkTraining (q : Fin 4) (s : State) : Out :=
  let x := s.quay q
  if !s.awake || !s.quayOn q then nothing s
  else if x.retrain then
    let t := s.trainBegin q
    .next (t.setQuay q { t.quay q with attempts := 0, stopped := false, retryAt := none })
  else when ((s.qstate q == 0 || s.qstate q == 10) && !x.stopped && x.retryAt.isNone) s (s.trainBegin q)

/-- LINK_DETECT: the training pattern on at least two lanes. -/
def execLinkDetect (q : Fin 4) (lanes : BitVec 8) (s : State) : Out :=
  when (s.awake && s.quayOn q && (s.qstate q == 1 || s.qstate q == 8 || s.qstate q == 9)
    && decide (2 ≤ (setBits 8 lanes.toNat).length)) s
    ((s.setFld (qslot q) F.QUAY_STAT_RATE 0 (s.fld (qslot q) F.QUAY_CFG_MAXRATE 0)).setQstate q 2)

/-- An attempt fails: it is repeated after 1 ms, and after three LINK_TRAIN is recorded (R498). -/
def State.trainFail (s : State) (q : Nat) : State :=
  let x := s.quay q
  let s1 := s.setQstate q 10
  if 2 ≤ x.attempts then (s1.setQuay q { x with attempts := 3, stopped := true, retryAt := none }).record (qslot q) 2
  else s1.setQuay q { x with attempts := x.attempts + 1, retryAt := some (s.after 1000000) }

/-- Both sides try the next lower rate, or the attempt fails (R496). -/
def State.lowerRate (s : State) (q : Nat) : State :=
  let r := s.fld (qslot q) F.QUAY_STAT_RATE 0
  if 2 ≤ r then s.trainFail q else (s.setFld (qslot q) F.QUAY_STAT_RATE 0 (r + 1)).setQstate q 2

/-- The lanes a receive width uses, and its code: 0 = 8, 1 = 4, 2 = 2 (R495). -/
def rxWidth (pass : Nat) : Option (Nat × Nat) :=
  let l := setBits 8 pass
  if 8 ≤ l.length then some (0, 255)
  else if 4 ≤ l.length then some (1, maskOf (l.take 4) fun _ => true)
  else if 2 ≤ l.length then some (2, maskOf (l.take 2) fun _ => true) else none

/-- LANE_TEST_END (R495, R496). -/
def execLaneTestEnd (q : Fin 4) (pass : BitVec 8) (s : State) : Out :=
  if !s.awake || !s.quayOn q || s.qstate q != 2 then nothing s
  else match rxWidth pass.toNat with
    | none => .next (s.lowerRate q)
    | some (w, lanes) => .next (((s.setFld (qslot q) F.QUAY_STAT_RXW 0 w).setFld (qslot q) F.QUAY_STAT_RX_LANES 0 lanes).setQstate q 5)

/-- The position next to this chip through a Quay, when the own board domain extends there. -/
def State.adjacent (s : State) (q : Nat) : Option (Nat × Nat) :=
  let x := s.posX
  let y := s.posY
  if q = 0 then (if 1 ≤ y then some (x, y - 1) else none)
  else if q = 1 then (if x + 1 < s.side then some (x + 1, y) else none)
  else if q = 2 then (if y + 1 < s.side then some (x, y + 1) else none)
  else if 1 ≤ x then some (x - 1, y) else none

/-- The neighbour's report is right (R497). -/
def State.neighbourOk (s : State) (q : Nat) (nb : Neighbour) : Bool :=
  match s.adjacent q with
  | some (x, y) => nb.dom.toNat == s.strap / 256 % 4 && nb.posx.toNat == x && nb.posy.toNat == y
  | none => !s.inDomain nb.x.toNat nb.y.toNat

/-- LINK_ACTIVE (R496, R497, R499). -/
def execLinkActive (q : Fin 4) (nb : Neighbour) (s : State) : Out :=
  if !s.awake || !s.quayOn q || s.qstate q != 5 then nothing s
  else if nb.txw = 3 then .next (s.lowerRate q)
  else if !s.neighbourOk q nb then .next (s.trainFail q)
  else
    let sl := qslot q
    let s1 := (((((s.setFld sl F.QUAY_STAT_TXW 0 nb.txw.toNat).setFld sl F.QUAY_STAT_TX_LANES 0 nb.txLanes.toNat).setFld sl
      F.QUAY_STAT_NBR_X 0 nb.x.toNat).setFld sl F.QUAY_STAT_NBR_Y 0 nb.y.toNat).setFld sl F.QUAY_STAT_EXTERNAL 0
      (b2n (s.adjacent q).isNone)).setQstate q 7
    let cr : Tab Nat := (List.range 6).foldl (fun t v => Tab.set 0 t v (bitsOf (nb.vc.zeroExtend 64) (8 * v + 7) (8 * v))) []
    let s0 := s1.quayDrop q
    let x := s0.quay q
    let s2 := s0.setQuay q { x with trained := true, attempts := 0, retryAt := none, nbVc := nb.vc, credits := cr,
                                    lastCred := s.clk.now, lastAck := s.clk.now, lastProg := s.clk.now }
    let minL := s.fld sl F.QUAY_CFG_MINLANES 0
    .next (s2.recordIf (decide (s.fld sl F.QUAY_CFG_MINRATE 0 < s.fld sl F.QUAY_STAT_RATE 0) || decide (minL < nb.txw.toNat)
      || decide (minL < s.fld sl F.QUAY_STAT_RXW 0)) sl 1)

/-- TRAIN_RETRY: 1 ms after a failed attempt (R498). -/
def execTrainRetry (q : Fin 4) (s : State) : Out :=
  match (s.quay q).retryAt with
  | some t => when (s.awake && s.quayOn q && decide (t ≤ s.clk.now)) s
      ((s.trainBegin q).setQuay q { (s.trainBegin q).quay q with retryAt := none })
  | none => nothing s

/-- QUAY_WAKE (R502). -/
def execQuayWake (q : Fin 4) (s : State) : Out :=
  when (s.awake && s.quayOn q && s.qstate q == 8 && s.fld (qslot q) F.QUAY_CFG_WAKE_TX 0 == 1 && (s.quay q).wakeReq) s
    ((s.setQuay q { s.quay q with wakeReq := false }).linkSend q .wake)

/-- ROUTE_STALL: a head flit of a VC has waited 1 ms (R509). -/
def execRouteStall (vc : Fin 6) (s : State) : Out :=
  let old (e : Packet × Nat) : Bool := hVc e.1 == vc.val && decide (e.2 + 1000000 ≤ s.clk.now)
  when (s.awake && (s.mesh.out.any old || (List.range 4).any fun q => (s.quay q).txq.any old || (s.quay q).rxq.any old)) s (s.record 9 1)

/-- ROUTE_STAT as it reads. -/
def State.routeStat (s : State) : U64 :=
  F.ROUTE_STAT_GY.put (F.ROUTE_STAT_GX.put (s.reg 9 .ROUTE_STAT 0) s.gx) s.gy

/-- A write of QUAY_CTL.CNT_CLR. -/
def execQuayCntClr (q : Fin 4) (s : State) : Out := when (s.serves (domainOf (qslot q))) s (s.clearReg (qslot q) .QUAY_CNT 0)

/-- A write of QUAY_CTL. -/
def State.quayCtl (s : State) (q : Nat) (v : U64) : State :=
  let x := s.quay q
  let s1 := s.setQuay q { x with retrain := x.retrain || bitsOf v 0 0 == 1, wakeReq := x.wakeReq || (bitsOf v 1 1 == 1 && s.qstate q == 8) }
  if bitsOf v 2 2 = 1 then s1.clearReg (qslot q) .QUAY_CNT 0 else s1

/-! ## Requests from other chips and responses (R510, R511) -/

/-- Takes a delivered packet out of the router's inbox. -/
def State.unbox (s : State) (p : Packet) : State := { s with mesh := { s.mesh with inbox := s.mesh.inbox.erase p } }

/-- The memory operation of a request head flit. -/
def reqOp (p : Packet) : MemOp :=
  if hKind p = 2 then .write (if hLen p ≤ 32 then leBytes (hLen p) (hNum p 32 32) else p.data.take (hLen p))
  else if hKind p = 3 then .read (hLen p)
  else if hOp p = 2 then .fetchAdd (BitVec.ofNat 64 (hNum p 16 8))
  else .cas (BitVec.ofNat 64 (hNum p 16 8)) (BitVec.ofNat 64 (hNum p 24 8))

/-- No older Class A Manifest or request of the packet's source waits here (R58). -/
def State.firstHere (s : State) (p : Packet) : Bool :=
  match s.mesh.inbox.find? fun e => [1, 2, 3, 4].contains (hKind e) && hSrcX e == hSrcX p && hSrcY e == hSrcY p && hReq e == hReq p with
  | some e => e == p
  | none => true

/-- BOARD_WINDOW_REQUEST: performed as a local request from that requester, in its source's order, and answered with one RESP. A DOWN is
the router's (R524). -/
def execBoardWindowRequest (p : Packet) (s : State) : Out :=
  if !s.awake || !([2, 3, 4].contains (hKind p)) || hDestX p != s.gx || hDestY p != s.gy || !s.firstHere p then nothing s
  else
    let who := Requester.remote (BitVec.ofNat 8 (hSrcX p)) (BitVec.ofNat 8 (hSrcY p)) (BitVec.ofNat 6 (hReq p))
    let pl := if wellSized (hAddr p) (hLen p) then s.windowPlace (hAddr p) else .hole
    let r := (s.unbox p).perform who pl (reqOp p)
    let t := r.s.respTo p r.st r.data
    .next (if r.st = .down then t.count 9 F.ROUTE_STAT_DOWN 0 1 else t)

/-- The request that a RESP answers is an atomic. -/
def State.answersAtomic (s : State) (p : Packet) : Bool :=
  match Tab.find (s.berth (hReq p)).tags (hTag p) with
  | some t => match t.op with
    | .fetchAdd _ => true
    | .cas _ _ => true
    | _ => false
  | none => false

/-- The request that a RESP answers was abandoned by a drain. -/
def State.isAbandoned (s : State) (p : Packet) : Bool :=
  s.mesh.abandoned.contains (hReq p, hTag p, BitVec.ofNat 2 (hEpoch p))

/-- RESP: status and data, or an atomic's old value, go to the Berth that has asked. The router discards one for a Berth that is off, and
one whose request a drain has abandoned (R258); the other requesters have taken what their request brought (`State.remoteAsk`). -/
def execResp (p : Packet) (s : State) : Out :=
  if !s.awake || hKind p != 5 || hDestX p != s.gx || hDestY p != s.gy then nothing s
  else if s.isAbandoned p then
    let t := s.unbox p
    .next { t with mesh := { t.mesh with abandoned := t.mesh.abandoned.erase (hReq p, hTag p, BitVec.ofNat 2 (hEpoch p)) } }
  else if 32 ≤ hReq p ∨ (s.dom (hReq p)).power ≠ .on then .next (s.unbox p)
  else
    let d := if s.answersAtomic p then leBytes 8 (hNum p 16 8)
      else if hLen p ≤ 32 then leBytes (hLen p) (hNum p 32 32) else p.data.take (hLen p)
    let st := statusOf (hOp p)
    .next { s.unbox p with resps := s.resps ++ [⟨unitRequester (hReq p), hTag p, BitVec.ofNat 2 (hEpoch p), st, if st = .ok then d else []⟩] }

/-! ## Drain of a Quay (R525) -/

/-- Step 1 sends QUIESCE. -/
def State.quayDrain (s : State) (q : Nat) : State := if s.qstate q = 7 then s.linkSend q .quiesce else s

/-- The Quay is lost with its domain. What it has received whole goes on from the router, and what it has sent has been sent. -/
def State.quayClear (s : State) (q : Nat) : State :=
  let t := s.quayDrop q
  t.setQuay q { sent := (t.quay q).sent }

/-- The mesh of a chip whose spine is reset: what its Quays have sent has been sent, `last` on each link that is ACTIVE (R501). -/
def State.meshReset (s : State) (last : List LinkOut) : Mesh :=
  { quays := (List.range 4).foldl (fun t q =>
      Tab.set {} t q { sent := (s.quay q).sent ++ (if s.qstate q = 7 then last else []) }) [] }

end Sys2Proof.Machine
end

