-- ==== Sys2Proof/Machine/Light.lean ====
section
/-! DEFINITION. The Lighter: pools, transfers between board domains (14_zenier_mesh.md R512 to R520, R526), and the delivery
of a Manifest on this chip.
Log entries: 98 DEDUCED, 137 DEDUCED. -/

namespace Sys2Proof.Machine

/-! ## Pool classes (R520) -/

def State.ltBase (s : State) (c : Nat) : Nat := s.fld 8 F.LT_POOL_BASE_BASE c
def State.ltSize (s : State) (c : Nat) : Nat := 2 ^ s.fld 8 F.LT_POOL_GEO_LOG2 c
def State.ltCount (s : State) (c : Nat) : Nat := s.fld 8 F.LT_POOL_GEO_COUNT_M1 c + 1
def State.ltBytes (s : State) (c : Nat) : Nat := s.ltSize c * s.ltCount c
def State.ltEn (s : State) (c : Nat) : Bool := s.fld 8 F.LT_POOL_GEO_EN c == 1

/-- The memory of a class lies in usable LPDDR5X or in unguarded Basin banks. -/
def State.ltMem (s : State) (c : Nat) : Bool :=
  let a := s.ltBase c
  let n := s.ltBytes c
  decide (a + n ≤ s.usableTop) ||
    (decide (basinBase ≤ a) && decide (a + n ≤ basinBase + 0x1000000) &&
      !((List.range 16).any fun k => nbit (s.fld 0x0C F.BASIN_RET_GUARD 0) k && overlap a n (basinBase + k * 0x100000) 0x100000))

/-- CFG_ERR of a class. -/
def State.ltBad (s : State) (c : Nat) : Bool :=
  s.ltEn c && (decide (s.ltBase c % 0x10000 ≠ 0) || decide (s.fld 8 F.LT_POOL_GEO_LOG2 c < 16) || decide (24 < s.fld 8 F.LT_POOL_GEO_LOG2 c)
    || !s.ltMem c
    || (List.range 4).any fun d => d != c && s.ltEn d && overlap (s.ltBase c) (s.ltBytes c) (s.ltBase d) (s.ltBytes d))

def State.ltOn (s : State) (c : Nat) : Bool := s.ltEn c && !s.ltBad c

/-- Key of a buffer, and its address. -/
def bufKey (c i : Nat) : Nat := c * 65536 + i
def State.bufAddr (s : State) (k : Nat) : Nat := s.ltBase (k / 65536) + k % 65536 * s.ltSize (k / 65536)

/-- Free buffers of a class. -/
def State.ltFree (s : State) (c : Nat) : Nat :=
  if s.ltOn c then s.ltCount c - (s.lt.bufs.filter fun b => b.1 / 65536 == c).length else 0

/-- LT_POOL_GEOc and LT_STAT as they read. -/
def State.ltGeo (s : State) (c : Nat) : U64 := F.LT_POOL_GEO_FREE.put (s.reg 8 .LT_POOL_GEO c) (s.ltFree c)
def State.ltStat (s : State) : U64 :=
  BitVec.ofNat 64 (s.lt.txq.length + s.lt.xfers.length * 2 ^ 8 + s.lt.held.length * 2 ^ 12
    + maskOf (List.range 4) s.ltBad * 2 ^ 20)

/-- The smallest enabled class whose buffers hold a length (R514). -/
def State.ltClass (s : State) (len : Nat) : Option Nat :=
  ((List.range 4).filter fun c => s.ltOn c && decide (len ≤ s.ltSize c)).foldl (fun m c => match m with
    | none => some c
    | some d => if s.ltSize c < s.ltSize d then some c else some d) none

/-- Allocates the lowest free buffer of a class; it is the Lighter's own until delivered. -/
def State.ltAlloc (s : State) (c : Nat) : Option (Nat × State) :=
  match (List.range (s.ltCount c)).find? fun i => (Tab.find s.lt.bufs (bufKey c i)).isNone with
  | none => none
  | some i => some (i, { s with lt := { s.lt with bufs := Tab.put s.lt.bufs (bufKey c i) 64 } })

/-! ## Receiving (R514, R518, R519) -/

/-- The Lighter takes new Manifests and opens. -/
def State.ltServes (s : State) : Bool := s.serves (domainOf 8)

/-- The Lighter's transfers in progress run, during its drain too (R526). -/
def State.ltRuns (s : State) : Bool := (s.dom (domainOf 8)).power == .on

/-- A grant: the buffer is allocated and the transfer begins. -/
def State.ltGrant (s : State) (x y : BitVec 8) (num : U32) (m : Manifest) (c : Nat) : State :=
  match s.ltAlloc c with
  | none => s
  | some (i, t) =>
    ({ t with lt := { t.lt with rx := t.lt.rx ++ [({ x := x, y := y, num := num, m := m, cls := c, buf := i, last := s.clk.now } : RxXfer)] } }).grant x.toNat y.toNat num .ok

/-- Frees a buffer; the oldest held open of its class is granted. -/
def State.ltFreeBuf (s : State) (k : Nat) : State :=
  let s1 := { s with lt := { s.lt with bufs := Tab.del s.lt.bufs k } }
  match s1.lt.held.find? fun h => s1.ltClass (mLength h.m) == some (k / 65536) with
  | some h => ({ s1 with lt := { s1.lt with held := s1.lt.held.erase h } }).ltGrant h.x h.y h.num h.m (k / 65536)
  | none => s1

/-- A packet of a kind from a chip with a transfer number leaves the inbox. -/
def State.unboxXfer (s : State) (kind x y : Nat) (num : U32) : State :=
  match s.mesh.inbox.find? fun p => hKind p == kind && hSrcX p == x && hSrcY p == y && hXfer p == num with
  | some p => s.unbox p
  | none => s

/-- BOPEN. -/
def execBopen (x y : BitVec 8) (xfer : U32) (m : Manifest) (s : State) : Out :=
  if !s.awake then nothing s
  else
    let t := s.unboxXfer 7 x.toNat y.toNat xfer
    if !s.ltServes then .next ((t.grant x.toNat y.toNat xfer .down).count 9 F.ROUTE_STAT_DOWN 0 1)
    else match s.ltClass (mLength m) with
      | none => .next ((t.record 8 1).grant x.toNat y.toNat xfer .poison)
      | some c =>
        if 0 < s.ltFree c then .next (t.ltGrant x y xfer m c)
        else if mClass m = 1 then
          if 64 ≤ s.lt.held.length then nothing s
          else
            let t1 := { t with lt := { t.lt with held := t.lt.held ++ [({ x := x, y := y, num := xfer, m := m, last := s.clk.now } : HeldOpen)] } }
            .next (t1.grant x.toNat y.toNat xfer .busy)
        else .next (((t.count 8 F.LT_CNT_POOL_FULL 0 1).record 8 0).grant x.toNat y.toNat xfer .poolFull)

/-- BGRANT_BUSY_REPEAT: every 50 µs. -/
def execBgrantBusyRepeat (s : State) : Out :=
  match s.lt.held.find? fun h => decide (h.last + 50000 ≤ s.clk.now) with
  | some h =>
    let l := s.lt.held.map fun g => if g = h then { g with last := s.clk.now } else g
    when s.ltRuns s (({ s with lt := { s.lt with held := l } }).grant h.x.toNat h.y.toNat h.num .busy)
  | none => nothing s

/-- The transfer being received with a number from a chip. -/
def State.rxXfer (s : State) (x y : BitVec 8) (num : U32) : Option RxXfer :=
  s.lt.rx.find? fun r => r.x == x && r.y == y && r.num == num

/-- A transfer being received ends without delivery: LT_ABORT, the buffer is free. -/
def State.ltAbort (s : State) (r : RxXfer) : State :=
  let s1 := { s with lt := { s.lt with rx := s.lt.rx.erase r } }
  ((s1.ltFreeBuf (bufKey r.cls r.buf)).count 8 F.LT_CNT_ABORTS 0 1).record 8 2

/-- Delivers a Manifest whose payload lies in a buffer: the owner becomes the target unit, the buffer is freed when the
queue refuses, and a Class A Manifest that waits keeps it (R518). -/
def State.ltDeliver (s : State) (m : Manifest) (k : Nat) : State :=
  if s.takes m && !(s.lt.waiting.any fun w => sameOrder m w.1) then ({ s with lt := { s.lt with bufs := Tab.put s.lt.bufs k (mTarget m) } }).deliver m false
  else if s.takes m || s.mustWait m then { s with lt := { s.lt with waiting := s.lt.waiting ++ [(m, k)] } }
  else (s.ltFreeBuf k).deliver m false

/-- MANIFEST_DELIVERY: the next Manifest of its order reaches its target on this chip (R459). -/
def execManifestDelivery (m : Manifest) (flow : Bool) (s : State) : Out :=
  if !s.awake || !s.mHere m then nothing s
  else match s.lt.waiting.find? fun w => sameOrder m w.1 with
    | some w =>
      if w.1 = m then .next (({ s with lt := { s.lt with waiting := s.lt.waiting.erase w } }).ltDeliver m w.2) else nothing s
    | none => when (s.arrives m && flow == mFlow m) s (s.deliver m flow)

/-- BSEG (R518). -/
def execBseg (x y : BitVec 8) (xfer : U32) (segOff : U32) (final poison : Bool) (data : List Byte) (s : State) : Out :=
  if !s.awake then nothing s
  else
    let t := s.unboxXfer 9 x.toNat y.toNat xfer
    if !s.ltRuns then .next ((t.grant x.toNat y.toNat xfer .down).count 9 F.ROUTE_STAT_DOWN 0 1)
    else match t.rxXfer x y xfer with
      | none => .next t
      | some r =>
        if poison then .next (t.ltAbort r)
        else
          let k := bufKey r.cls r.buf
          let w := State.writeSpan .lighter (spanFuel data.length) t (t.bufAddr k + segOff.toNat * 0x4000) data
          let s1 := w.s.recordIf (w.st != Status.ok) 8 4
          if final then
            let s2 := ({ s1 with lt := { s1.lt with rx := s1.lt.rx.erase r } }).count 8 F.LT_CNT_RECEIVED 0 1
            .next (s2.ltDeliver (mSeal (mPut r.m 12 6 (s.bufAddr k))) k)
          else
            let l := s1.lt.rx.map fun g => if g = r then { g with last := s.clk.now } else g
            .next { s1 with lt := { s1.lt with rx := l } }

/-- BSEG_TIMEOUT: no segment for 100 µs. -/
def execBsegTimeout (x y : BitVec 8) (xfer : U32) (s : State) : Out :=
  match s.rxXfer x y xfer with
  | some r => when (s.ltRuns && decide (r.last + 100000 ≤ s.clk.now)) s (s.ltAbort r)
  | none => nothing s

/-- A write of LT_RELEASE (R519). -/
def State.ltRelease (s : State) (addr : Nat) : State :=
  match s.lt.bufs.find? fun b => b.2 != 64 && s.bufAddr b.1 == addr with
  | some b => s.ltFreeBuf b.1
  | none => s.record 8 3

def execLtRelease (_who : Requester) (addr : Addr) (s : State) : Out := when s.ltServes s (s.ltRelease addr.toNat)

/-- When the owner's domain switches off, every buffer it owns is freed (R519). -/
def State.ltOwnerOff (s : State) (u : Nat) : State :=
  (s.lt.bufs.filter fun b => b.2 == u).foldl (fun t b => t.ltFreeBuf b.1) s

/-! ## Sending (R512 to R517) -/

/-- Opens transfers in queue order: at most four, to different chips; a Manifest to a chip with a transfer in progress
holds back those behind it (R513). -/
def State.ltPump : Nat → State → State
  | 0, s => s
  | fuel + 1, s =>
    match s.lt.txq with
    | [] => s
    | m :: rest =>
      let x := mNum m 0 1
      let y := mNum m 1 1
      if s.ltServes = false ∨ 4 ≤ s.lt.xfers.length ∨ s.lt.xfers.any (fun t => t.x.toNat == x && t.y.toNat == y) then s
      else
        let num := s.lt.nextNum
        let h := { s.headTo 7 1 x y 35 with opr := num.toNat, body := m.toNat }
        let s1 := { s with lt := { s.lt with txq := rest, nextNum := num + 1,
                                             xfers := s.lt.xfers ++ [({ num := num, x := BitVec.ofNat 8 x, y := BitVec.ofNat 8 y, m := m, last := s.clk.now } : Xfer)] } }
        State.ltPump fuel (s1.meshOut (h.flit []))

/-- The Manifest is the next of its order that its unit has sent (R459). -/
def State.lighterTurn (s : State) (m : Manifest) : Bool :=
  match s.net.find? (sameOrder m) with
  | some a => a == m
  | none => true

/-- LIGHTER_ENQUEUE: a Manifest at the head of its egress bound outside the board domain (R512). -/
def execLighterEnqueue (m : Manifest) (s : State) : Out :=
  let ok := s.outgoing m && s.lighterTurn m && !s.inDomain (mNum m 0 1) (mNum m 1 1) && !mInline m && mClass m != 0
  if !s.awake || !ok then nothing s
  else if !s.ltServes then .next ((s.unsent m).nackDown m false)
  else if s.lt.txq.length < 64 then
    let s1 := s.unsent m
    .next (State.ltPump 5 { s1 with lt := { s1.lt with txq := s1.lt.txq ++ [m] } })
  else if mClass m = 1 then nothing s
  else .next ((s.unsent m).nack m false .qfull)

/-- A transfer leaves the sender; the next ones may open. -/
def State.ltClose (s : State) (x : Xfer) : State := State.ltPump 5 { s with lt := { s.lt with xfers := s.lt.xfers.erase x } }

/-- A transfer ends with a NACK to the original sender (R515). -/
def State.ltNack (s : State) (x : Xfer) (st : Status) : State := (s.nack x.m false st).ltClose x

/-- The segments of a payload (R516). -/
def State.ltSegments (s : State) (x : Xfer) (d : List Byte) : State :=
  let n := max 1 (cdiv d.length 0x4000)
  (List.range n).foldl (fun t i =>
    let seg := (d.drop (i * 0x4000)).take 0x4000
    let h := { t.headTo 9 1 x.x.toNat x.y.toNat 35 with
               opr := x.num.toNat + i * 2 ^ 32 + (if i + 1 = n then 1 else 0) * 2 ^ 64 }
    t.meshOut (h.flit seg)) s

/-- After BGRANT OK the payload is read and sent (R516, R517). -/
def State.ltStream (s : State) (x : Xfer) : State :=
  let len := mLength x.m
  let r := State.readSpan .lighter (spanFuel len) s (mPointer x.m) len
  if r.st = .ok then
    let s1 := r.s.ltSegments x r.data
    let u := mSrcUnit x.m
    let s2 := s1.setFld 8 F.LT_RDONE_COUNT u ((s1.fld 8 F.LT_RDONE_COUNT u + 1) % 2 ^ 32)
    (s2.count 8 F.LT_CNT_SENT 0 1).ltClose x
  else
    let h := { r.s.headTo 9 1 x.x.toNat x.y.toNat 35 with poison := true, opr := x.num.toNat + 2 ^ 64 }
    (r.s.meshOut (h.flit [])).ltNack x .poison

/-- The transfer with a number. -/
def State.xfer (s : State) (num : U32) : Option Xfer := s.lt.xfers.find? fun x => x.num == num

/-- BGRANT (R515, R516). -/
def execBgrant (xfer : U32) (st : Status) (s : State) : Out :=
  if !s.ltRuns then nothing s
  else match s.xfer xfer with
    | none => nothing s
    | some x =>
      let t := s.unboxXfer 8 x.x.toNat x.y.toNat xfer
      match st with
      | .ok => .next (t.ltStream x)
      | .busy => .next { t with lt := { t.lt with xfers := t.lt.xfers.map fun g => if g = x then { g with last := s.clk.now } else g } }
      | st => .next (t.ltNack x st)

/-- BGRANT_TIMEOUT: 100 µs after the BOPEN or the last BUSY (R515). -/
def execBgrantTimeout (xfer : U32) (s : State) : Out :=
  match s.xfer xfer with
  | some x => when (s.ltRuns && decide (x.last + 100000 ≤ s.clk.now)) s (s.ltNack x .down)
  | none => nothing s

/-! ## Drain and loss (R526) -/

/-- The end of step 2: every open transfer ends with NACK DOWN to its original sender. -/
def State.lighterDrainEnd (s : State) : State :=
  let s1 := s.lt.txq.foldl (fun t m => t.nack m false .down) s
  let s2 := s.lt.xfers.foldl (fun t x => t.nack x.m false .down) s1
  let s3 := s.lt.rx.foldl (fun t x => t.nack x.m false .down) s2
  let s4 := s.lt.held.foldl (fun t x => t.nack x.m false .down) s3
  let s5 := s.lt.waiting.foldl (fun t w => t.nack w.1 false .down) s4
  { s5 with lt := { s5.lt with txq := [], xfers := [], rx := [], held := [], waiting := [] } }

def State.lighterClear (s : State) : State := { s with lt := {}, unitSeq := Tab.del s.unitSeq 35 }

end Sys2Proof.Machine
end

