-- ==== Sys2Proof/Machine/Field.lean ====
section
/-! DEFINITION. The field interfaces of 18_host_field_interfaces.md: CAN FD, Ethernet, xSPI commands, the SPI controllers, the
UART and GPIO.
Log entries: 104 PRESUMED, 105 DEDUCED, 136 DEDUCED. -/

namespace Sys2Proof.Machine

/-- The domain of the host and field interfaces (R620). -/
def ioDomain : Nat := 42

def State.io (s : State) : Bool := s.serves ioDomain

/-- The controllers run: while the domain drains, what R659 lets complete completes. -/
def State.ioRuns (s : State) : Bool :=
  s.awake && (s.dom ioDomain).power == .on && !(s.dom ioDomain).selfTest && !(s.dom ioDomain).excluded

/-- A change of the field interfaces' state. -/
def State.withField (s : State) (f : Field → Field) : State := { s with field := f s.field }

/-! ## The controllers' own memory requests -/

/-- A read by a controller: a status other than OK is FIELD_MEM. -/
def State.fieldRead (s : State) (a n : Nat) : Ans :=
  let r := State.readSpan .field (spanFuel n) s a n
  ⟨r.st, r.data, r.s.recordIf (r.st != .ok) 0x11 0⟩

/-- A write by a controller. -/
def State.fieldWrite (s : State) (a : Nat) (d : List Byte) : Ans :=
  let r := State.writeSpan .field (spanFuel d.length) s a d
  ⟨r.st, [], r.s.recordIf (r.st != .ok) 0x11 0⟩

/-! ## CAN message buffers (Table 18-5) -/

/-- A byte of message buffer `b` of controller `c`. -/
def canKey (c b i : Nat) : Nat := 0x1800 * c + 96 * b + i

/-- `n` bytes of a message buffer as a number. -/
def State.canNum (s : State) (c b i n : Nat) : Nat := leNat ((List.range n).map fun j => Tab.get 0 s.field.canBuf (canKey c b (i + j)))

/-- Writes bytes of the message buffers from a key. -/
def canPut : Tab Byte → Nat → List Byte → Tab Byte
  | t, _, [] => t
  | t, k, d :: ds => canPut (Tab.set 0 t k d) (k + 1) ds

def State.canWrite (s : State) (c b i : Nat) (d : List Byte) : State :=
  s.withField fun f => { f with canBuf := canPut f.canBuf (canKey c b i) d }

/-- The bits of Table 18-5 in the eight bytes from byte `i` of a message buffer; the others are reserved (R8). -/
def canBits (i : Nat) : U64 :=
  if i = 0 then 0x00000FFF3FFFFFFF else if i = 8 then 0x1FFFFFFF else if i = 24 then 0 else 0xFFFFFFFFFFFFFFFF

/-- A register write to a message buffer: reserved bits ignore it (R8, R641). -/
def State.canSet (s : State) (c b i : Nat) (v : U64) : State := s.canWrite c b i (leBytes 8 (v &&& canBits i).toNat)

def State.canCtl (s : State) (c b : Nat) : Nat := s.canNum c b 4 4
def State.canId (s : State) (c b : Nat) : Nat := s.canNum c b 0 4 % 2 ^ 29
def State.canIde (s : State) (c b : Nat) : Bool := nbit (s.canNum c b 0 4) 29
/-- The buffer is enabled in a direction. -/
def State.canIs (s : State) (c b : Nat) (tx : Bool) : Bool := nbit (s.canCtl c b) 9 && nbit (s.canCtl c b) 8 == tx

/-- The data length that a DLC code gives. -/
def canLen (fdf : Bool) (dlc : Nat) : Nat :=
  if dlc ≤ 8 then dlc
  else if !fdf then 8
  else match dlc with
    | 9 => 12 | 10 => 16 | 11 => 20 | 12 => 24 | 13 => 32 | 14 => 48 | _ => 64

/-! ## CAN error counters (R640, R645) -/

/-- The controller takes part on its bus. -/
def State.canOn (s : State) (c : Nat) : Bool :=
  s.io && s.fld 0x11 F.CAN_CFG_EN c == 1 && s.fld 0x11 F.CAN_STAT_STATE c != 2

/-- The counters take their values and the controller its state: passive above 127, bus-off above 255. -/
def State.canCounts (s : State) (c tec rec' : Nat) : State :=
  let old := s.fld 0x11 F.CAN_STAT_STATE c
  let new := if 255 < tec then 2 else if 127 < tec ∨ 127 < rec' then 1 else 0
  let s1 := ((s.setFld 0x11 F.CAN_STAT_TEC c (if 255 < tec then 255 else tec)).setFld 0x11 F.CAN_STAT_REC c
    (if 255 < rec' then 255 else rec')).setFld 0x11 F.CAN_STAT_STATE c new
  (s1.recordIf (new == 2) 0x11 1).recordIf (new == 1 && old == 0) 0x11 2

/-- A transmission ends well or badly, a reception ends well or badly (ISO 11898-1). -/
def State.canTxOk (s : State) (c : Nat) : State := s.canCounts c (s.fld 0x11 F.CAN_STAT_TEC c - 1) (s.fld 0x11 F.CAN_STAT_REC c)
def State.canTxErr (s : State) (c : Nat) : State := s.canCounts c (s.fld 0x11 F.CAN_STAT_TEC c + 8) (s.fld 0x11 F.CAN_STAT_REC c)
def State.canRxOk (s : State) (c : Nat) : State :=
  let r := s.fld 0x11 F.CAN_STAT_REC c
  s.canCounts c (s.fld 0x11 F.CAN_STAT_TEC c) (if 127 < r then 127 else r - 1)
def State.canRxErr (s : State) (c : Nat) : State :=
  if s.fld 0x11 F.CAN_CFG_LISTEN_ONLY c = 1 then s
  else s.canCounts c (s.fld 0x11 F.CAN_STAT_TEC c) (s.fld 0x11 F.CAN_STAT_REC c + 1)

/-- The controller rejoins its bus with counters at zero. -/
def State.canRejoin (s : State) (c : Nat) : State := s.canCounts c 0 0

/-! ## CAN reception (R642, R644) -/

/-- The streams of the intake that a frame's identifier matches: MATCH[28:0] under MASK, of the kind that MATCH[31] names
(Tables 9-2 and 9-9). -/
def State.canStreams (s : State) (c : Nat) (f : CanFrame) : List Nat :=
  s.fieldStreams 2 c fun i =>
    let m := s.fld 0x0D F.STREAM_FILT_MATCH i
    nbit m 31 == f.ide && (f.id.toNat ^^^ m) % 2 ^ 29 &&& s.fld 0x0D F.STREAM_FILT_MASK i == 0

/-- An enabled receive buffer takes the frame's identifier. -/
def State.canMatches (s : State) (c : Nat) (f : CanFrame) (b : Nat) : Bool :=
  let m := s.canNum c b 8 4 % 2 ^ 29
  s.canIs c b false && s.canIde c b == f.ide && s.canId c b &&& m == f.id.toNat &&& m

/-- The frame as it lies in a buffer; the control bits that firmware set stay. -/
def State.canStore (s : State) (c b : Nat) (f : CanFrame) (sof : U64) : State :=
  let w0 := f.id.toNat + b2n f.ide * 2 ^ 29
  let w1 := s.canCtl c b / 256 * 256 + f.dlc.toNat + b2n f.fdf * 16 + b2n f.brs * 32 + b2n f.esi * 64 + b2n f.rtr * 128
  let s1 := ((s.canWrite c b 0 (leBytes 4 w0 ++ leBytes 4 w1)).canWrite c b 16 (leBytes 8 sof.toNat)).canWrite c b 32
    (f.data.take 64)
  s1.setReg 0x11 .CAN_FULL c (s1.reg 0x11 .CAN_FULL c ||| BitVec.ofNat 64 (2 ^ b))

/-- The destination of a frame (R642). -/
def State.canTake (s : State) (c : Nat) (f : CanFrame) (sof : U64) : State :=
  match s.canStreams c f with
  | i :: _ => s.canLine i f.data sof
  | [] =>
    let l := (List.range 64).filter (s.canMatches c f)
    match l.find? fun b => !(s.reg 0x11 .CAN_FULL c).getLsbD b with
    | some b => s.canStore c b f sof
    | none =>
      match l.find? fun b => nbit (s.canCtl c b) 11 with
      | some b => s.canStore c b f sof
      | none => s.count 0x11 F.CAN_STAT_RXLOST c 1

/-- A frame that fails its check is lost to the stream it would have gone to (Table 9-6). -/
def State.canSpoiled (s : State) (c : Nat) (f : CanFrame) : State :=
  match s.canStreams c f with
  | i :: _ => s.canLost i
  | [] => s

def execCanReceive (c : Fin 4) (f : CanFrame) (crcOk : Bool) (sof : U64) (s : State) : Out :=
  if !s.canOn c then nothing s
  else if crcOk && (!f.fdf || s.fld 0x11 F.CAN_CFG_FD c == 1) then .next ((s.canTake c f sof).canRxOk c)
  else .next ((s.canSpoiled c f).canRxErr c)

/-! ## CAN transmission (R643, R644) -/

/-- The arbitration field of a transmit buffer as a number: base identifier, RTR or SRR, IDE, extension, RTR. -/
def State.canArb (s : State) (c b : Nat) : Nat :=
  let id := s.canId c b
  let rtr := b2n (nbit (s.canCtl c b) 7 && !nbit (s.canCtl c b) 4)
  if s.canIde c b then id / 2 ^ 18 * 2 ^ 21 + 2 ^ 20 + 2 ^ 19 + id % 2 ^ 18 * 2 + rtr
  else id % 2 ^ 11 * 2 ^ 21 + rtr * 2 ^ 20

/-- The buffer that the controller offers (R643). -/
def State.canOffer (s : State) (c : Nat) : Option Nat :=
  ((List.range 64).filter fun b => (s.reg 0x11 .CAN_PEND c).getLsbD b && s.canIs c b true).foldl (fun best b =>
    match best with
    | none => some b
    | some x => if s.canArb c b < s.canArb c x then some b else some x) none

/-- The buffer is no longer pending. -/
def State.canDone (s : State) (c b : Nat) : State :=
  s.setReg 0x11 .CAN_PEND c (s.reg 0x11 .CAN_PEND c &&& ~~~BitVec.ofNat 64 (2 ^ b))

/-- A buffer with ONESHOT is offered once. -/
def State.canShot (s : State) (c b : Nat) : State := if nbit (s.canCtl c b) 10 then s.canDone c b else s

/-- The controller has a frame to send. -/
def State.canSends (s : State) (c : Nat) : Bool :=
  s.fld 0x11 F.CAN_CFG_EN c == 1 && s.fld 0x11 F.CAN_STAT_STATE c != 2 && s.fld 0x11 F.CAN_CFG_LISTEN_ONLY c == 0 && (s.canOffer c).isSome

/-- The frame of buffer `b` ends on the bus. -/
def State.canSent (s : State) (c b : Nat) : CanTxResult → State
  | .sent sof => ((s.canWrite c b 16 (leBytes 8 sof.toNat)).canDone c b).canTxOk c
  | .lostArbitration => s.canShot c b
  | .errorFrame => (s.canShot c b).canTxErr c

/-- The last frame of a controller in a drain: `k` is one of `Field.tail`. -/
def State.tailDone (s : State) (k : Nat) : State := s.withField fun f => { f with tail := f.tail.erase k }

/-- A frame of a controller may end: the domain serves, or drains and this frame was on the wire (R659). -/
def State.mayEnd (s : State) (k : Nat) : Bool := s.io || (s.ioRuns && s.field.tail.contains k)

/-- CAN_TRANSMIT: the frame that the controller offers has been sent, with the stamp of its SOF bit (R643, R644). -/
def execCanTransmit (c : Fin 4) (res : CanTxResult) (s : State) : Out :=
  match s.canOffer c with
  | none => nothing s
  | some b => when (s.mayEnd c && s.canSends c) s ((s.tailDone c).canSent c b res)

def execCanBusoffRecovery (c : Fin 4) (s : State) : Out :=
  when (s.io && s.fld 0x11 F.CAN_CFG_EN c == 1 && s.fld 0x11 F.CAN_CFG_AUTO_RECOVER c == 1 && s.fld 0x11 F.CAN_STAT_STATE c == 2) s
    (s.canRejoin c)

/-- A write of CAN_CFG: EN from 0 to 1 brings the controller onto the bus (R645). -/
def State.canCfg (s : State) (who : Requester) (c : Nat) (v : U64) : State :=
  let t := s.applyWrite 0x11 .CAN_CFG c who v
  if s.fld 0x11 F.CAN_CFG_EN c = 0 ∧ t.fld 0x11 F.CAN_CFG_EN c = 1 then t.canRejoin c else t

def execCanEnWrite (who : Requester) (c : Fin 4) (v : U64) (s : State) : Out := when s.io s (s.canCfg who c v)

/-! ## Ethernet (R646 to R648) -/

/-- Buffers of a ring. -/
def State.ethCount (s : State) (tx : Bool) (m : Nat) : Nat :=
  (if tx then s.fld 0x11 F.ETH_TX_COUNT_M1 m else s.fld 0x11 F.ETH_RX_COUNT_M1 m) + 1

/-- The address of the next buffer of a ring. -/
def State.ethBuf (s : State) (tx : Bool) (m : Nat) : Nat :=
  let base := if tx then s.fld 0x11 F.ETH_TX_BASE m else s.fld 0x11 F.ETH_RX_BASE m
  base + Tab.get 0 (if tx then s.field.txPos else s.field.rxPos) m % s.ethCount tx m * 2048

/-- The ring goes on to its next buffer. -/
def State.ethNext (s : State) (tx : Bool) (m : Nat) : State :=
  let n := s.ethCount tx m
  s.withField fun f =>
    if tx then { f with txPos := Tab.set 0 f.txPos m ((Tab.get 0 f.txPos m + 1) % n) }
    else { f with rxPos := Tab.set 0 f.rxPos m ((Tab.get 0 f.rxPos m + 1) % n) }

/-- The MAC's link is seen to be up, at the configured speed; a negotiated speed is open. -/
def State.ethUp (s : State) (m : Nat) : State :=
  if s.fld 0x11 F.ETH_STAT_LINK_UP m = 1 then s
  else
    let t := s.setFld 0x11 F.ETH_STAT_LINK_UP m 1
    if s.fld 0x11 F.ETH_CFG_BASEX m = 1 then t.setFld 0x11 F.ETH_STAT_SPEED m 2
    else if s.fld 0x11 F.ETH_CFG_AN_EN m = 0 then t.setFld 0x11 F.ETH_STAT_SPEED m (s.fld 0x11 F.ETH_CFG_SPEED m)
    else
      let f := t.freeVal
      f.2.setFld 0x11 F.ETH_STAT_SPEED m (f.1.toNat % 3)

/-- A frame's destination is this MAC's (R646). -/
def State.ethMine (s : State) (m : Nat) (frame : List Byte) : Bool :=
  let d := leNat (frame.take 6)
  d == s.fld 0x11 F.ETH_ADDR_MAC m || d == 2 ^ 48 - 1 || (nbit d 0 && s.fld 0x11 F.ETH_CFG_MCAST_ALL m == 1)

/-- EtherType, most significant byte first. -/
def etherType (frame : List Byte) : Nat := leNat ((frame.drop 12).take 2).reverse

/-- Length of a received frame without its FCS that the MAC takes (R646: 1,522 bytes with the FCS). -/
def ethSized (frame : List Byte) : Bool := decide (14 ≤ frame.length) && decide (frame.length + 4 ≤ 1522)

/-- A frame that finds the next buffer not owned is dropped (R647). -/
def State.ethDrop (s : State) (m : Nat) : State := (s.count 0x11 F.ETH_STAT_RX_DROP m 1).record 0x11 4

/-- A frame goes to the receive ring: the frame first, then the header with OWN = 0 (R647). -/
def State.ethRing (s : State) (m : Nat) (frame : List Byte) (ok : Bool) (sfd : U64) : State :=
  let a := s.ethBuf false m
  let h := s.fieldRead a 32
  if h.st ≠ .ok then h.s
  else if !nbit (leNat ((h.data.drop 2).take 1)) 0 then h.s.ethDrop m
  else
    let w := h.s.fieldWrite (a + 32) frame
    let x := w.s.fieldWrite a (leBytes 2 frame.length ++ leBytes 1 (2 * b2n (!ok)) ++ List.replicate 5 0 ++ leBytes 8 sfd.toNat)
    x.s.ethNext false m

/-- A received frame (R646 to R648). -/
def State.ethTake (s : State) (m : Nat) (frame : List Byte) (ok : Bool) (sfd : U64) : State :=
  let s1 := if ok && ethSized frame then s else s.count 0x11 F.ETH_STAT_RX_ERR m 1
  if !ethSized frame || !s.ethMine m frame then s1
  else match s.fieldStreams 1 m fun i => s.fld 0x0D F.STREAM_FILT_MATCH i % 65536 == etherType frame with
    | i :: _ => s1.ethFrame i (frame.drop 14) sfd ok
    | [] => s1.ethRing m frame ok sfd

def execEthReceive (m : Fin 2) (frame : List Byte) (fcsOk : Bool) (sfd : U64) (s : State) : Out :=
  when (s.mayEnd (4 + m) && s.fld 0x11 F.ETH_CFG_EN m == 1) s (((s.tailDone (4 + m)).ethUp m).ethTake m frame fcsOk sfd)

/-- The MAC sends the next transmit buffer when it has OWN = 1 (R647). -/
def State.ethStart (s : State) (m : Nat) : State :=
  let h := s.fieldRead (s.ethBuf true m) 32
  if h.st = .ok ∧ nbit (leNat ((h.data.drop 2).take 1)) 0 then h.s.withField fun f => { f with sending := m :: f.sending.erase m }
  else h.s.withField fun f => { f with sending := f.sending.erase m }

/-- A write to ETH_KICK. -/
def State.ethKick (s : State) (m : Nat) : State :=
  if s.fld 0x11 F.ETH_CFG_EN m = 0 ∨ s.field.sending.contains m then s else s.ethStart m

def execEthKick (_who : Requester) (m : Fin 2) (s : State) : Out := when s.io s (s.ethKick m)

/-- A frame has been sent: the stamp of its start-of-frame delimiter is written (R648), OWN cleared, and the next buffer follows unless
the domain drains (R659). -/
def State.ethSent (s : State) (m : Nat) (sfd : U64) : State :=
  let a := s.ethBuf true m
  let w := s.fieldWrite (a + 8) (leBytes 8 sfd.toNat)
  let h := w.s.fieldRead (a + 2) 1
  let x := if h.st = .ok then (h.s.fieldWrite (a + 2) (leBytes 1 (putBit (leNat h.data) 0 false))).s else h.s
  if s.io then (x.ethNext true m).ethStart m else (x.ethNext true m).withField fun f => { f with sending := f.sending.erase m }

def execEthTransmitDone (f : EthSent) (s : State) : Out :=
  when (s.ioRuns && s.field.sending.contains f.mac.val) s ((s.ethUp f.mac).ethSent f.mac f.sfd)

/-- A write of ETH_MDIO: GO runs one access on the bus, which answers a read with `rd`. -/
def State.ethMdio (s : State) (m : Nat) (v : U64) (rd : Nat) : State :=
  let w := BitVec.ofNat 64 (v.toNat % 2048 + F.ETH_MDIO_DATA.get v * 65536)
  if F.ETH_MDIO_GO.get v = 1 ∧ F.ETH_MDIO_WRITE.get v = 0 then s.setReg 0x11 .ETH_MDIO m (F.ETH_MDIO_DATA.put w rd)
  else s.setReg 0x11 .ETH_MDIO m w

def execEthMdio (_who : Requester) (m : Fin 2) (v : U64) (rd : BitVec 16) (s : State) : Out := when s.io s (s.ethMdio m v rd.toNat)

def execEthLinkDown (m : Fin 2) (s : State) : Out :=
  when (s.io && s.fld 0x11 F.ETH_CFG_EN m == 1) s ((s.setFld 0x11 F.ETH_STAT_LINK_UP m 0).record 0x11 3)

/-! ## xSPI commands (R651, R652, R723) -/

/-- The operation that XSPI_CMD0 and XSPI_LEN describe, with a local address. -/
def State.xspiCmd (s : State) (op addr : Nat) : XOp :=
  { op := op, cs := s.fld 0x11 F.XSPI_CMD0_CS 0, off := s.fld 0x11 F.XSPI_CMD0_OFFSET 0, addr := addr,
    len := if op = 3 then 4096 else if op = 4 then 65536 else s.fld 0x11 F.XSPI_LEN_LEN 0 }

/-- The operation keeps the limits of R652 and lies inside its device. -/
def XOp.ok (o : XOp) : Bool :=
  flashHas o.cs o.off o.len &&
    match o.op with
    | 1 => decide (o.len ≤ 16 * 2 ^ 20)
    | 2 => decide (o.len ≤ 65536)
    | 3 => decide (o.off % 4096 = 0)
    | 4 => decide (o.off % 65536 = 0)
    | _ => false

/-- XSPI_STAT takes the operations in progress. -/
def State.xspiStat (s : State) : State :=
  (s.setFld 0x11 F.XSPI_STAT_BUSY 0 (b2n (s.field.xspi != []))).setFld 0x11 F.XSPI_STAT_HELD 0
    (match s.field.xspi with
      | o :: _ => b2n o.held
      | [] => 0)

/-- The operation in front becomes the controller's: a program or erase waits for its grant (R651). -/
def State.xspiTurn (s : State) : State :=
  let s1 := match s.field.xspi with
    | o :: rest => { s.withField fun f => { f with xspi := { o with held := decide (2 ≤ o.op) } :: rest } with
        sfdp := if s.sfdp.contains o.cs then s.sfdp else o.cs :: s.sfdp }
    | [] => s
  s1.xspiStat

/-- XSPI_CMD1 issues a command. One that breaks R652 completes with POISON and is not issued. -/
def State.xspiIssue (s : State) (op addr : Nat) : State :=
  let o := s.xspiCmd op addr
  if !o.ok then s.setFld 0x11 F.XSPI_STAT_STATUS 0 7
  else
    let s1 := s.withField fun f => { f with xspi := f.xspi ++ [o] }
    if s.field.xspi = [] then s1.xspiTurn else s1

/-- The command that XSPI_CMD0.OP names is the one presented. -/
def State.xspiStart (s : State) (op : Nat) (addr : Nat) : Out :=
  when (s.io && s.fld 0x11 F.XSPI_CMD0_OP 0 == op) s (s.xspiIssue op addr)

def execXspiRead (_who : Requester) (local_ : Addr) (s : State) : Out := s.xspiStart 1 local_.toNat
def execXspiProgram (_who : Requester) (local_ : Addr) (s : State) : Out := s.xspiStart 2 local_.toNat
def execXspiErase4k (_who : Requester) (s : State) : Out := s.xspiStart 3 0
def execXspiErase64k (_who : Requester) (s : State) : Out := s.xspiStart 4 0

/-- The operation in front ends with a status. -/
def State.xspiEnd (s : State) (st : Status) : State :=
  ((s.setFld 0x11 F.XSPI_STAT_STATUS 0 (statusCode st)).withField fun f => { f with xspi := f.xspi.drop 1 }).xspiTurn

/-- The grant of an XSPI_CMD segment arrives: the operation runs. -/
def State.xspiGranted (s : State) : State :=
  (s.withField fun f => { f with xspi := match f.xspi with
    | o :: rest => { o with held := false } :: rest
    | [] => [] }).xspiStat

/-- What an operation does in the flash or in memory, and its status. -/
def State.xspiRun (s : State) (o : XOp) : Status × State :=
  if o.op = 1 then
    let r := s.fieldWrite o.addr (s.flashBytes o.cs o.off o.len)
    (r.st, r.s)
  else if o.op = 2 then
    let r := s.fieldRead o.addr o.len
    (r.st, if r.st = .ok then r.s.flashProgram o.cs o.off r.data else r.s)
  else (.ok, s.flashErase o.cs o.off o.len)

/-- The device has finished the operation, or stays busy for twice its maximum: XSPI_ERR and POISON (R652). A granted segment
ends with its operation (R279). -/
def State.xspiDone (s : State) (o : XOp) (stuck : Bool) : State :=
  let s1 : State := if 2 ≤ o.op then { s with hm := { s.hm with granted := none } } else s
  if stuck then
    let s2 := if 2 ≤ o.op then s1.flashCut o.cs o.off o.len else s1
    (s2.record 0x11 5).xspiEnd .poison
  else
    let r := s1.xspiRun o
    r.2.xspiEnd r.1

/-- The segment of XSPI_CMD is granted, or, for a read, no segment is running (R651). -/
def State.xspiReady (s : State) (o : XOp) : Bool :=
  match s.hm.granted with
  | some g => decide (2 ≤ o.op) && g.user == .xspiCmd
  | none => decide (o.op = 1)

/-! ## SPI controllers (R653) -/

def State.spicLen (s : State) (k : Nat) : Nat := s.fld 0x11 F.SPIC_TX_LEN_M1 k + 1

/-- A write of SPIC_TRIG arms a transfer, unless one is running. -/
def State.spicTrig (s : State) (k : Nat) (v : U64) : State :=
  if s.fld 0x11 F.SPIC_STAT_BUSY k = 1 then s
  else (s.setReg 0x11 .SPIC_TRIG k v).withField fun f => { f with armed := k :: f.armed.erase k }

/-- A transfer completes with a status. -/
def State.spicEnd (s : State) (k : Nat) (st : Status) : State :=
  let n := s.fld 0x11 F.SPIC_STAT_DONE k
  ((s.setFld 0x11 F.SPIC_STAT_BUSY k 0).setFld 0x11 F.SPIC_STAT_STATUS k (statusCode st)).setFld 0x11 F.SPIC_STAT_DONE k (n + 1)

/-- The transfer starts: its bytes are read; a read that fails ends it. -/
def State.spicBegin (s : State) (k : Nat) : State :=
  let s1 := s.withField fun f => { f with armed := f.armed.erase k }
  let r := s1.fieldRead (s.fld 0x11 F.SPIC_TX_ADDR k) (s.spicLen k)
  if r.st = .ok then r.s.setFld 0x11 F.SPIC_STAT_BUSY k 1 else r.s.spicEnd k r.st

def execSpicStart (k : Fin 4) (s : State) : Out :=
  when (s.io && s.field.armed.contains k.val && decide ((s.reg 0x11 .SPIC_TRIG k).toNat ≤ s.tide.toNat)) s (s.spicBegin k)

/-- The received bytes are stored at RX_ADDR; 0 discards them. -/
def State.spicStore (s : State) (k : Nat) (rx : List Byte) : State :=
  let a := s.fld 0x11 F.SPIC_RX_ADDR k
  if a = 0 then s.spicEnd k .ok
  else
    let w := s.fieldWrite a rx
    w.s.spicEnd k w.st

def execSpicDone (k : Fin 4) (rx : List Byte) (s : State) : Out :=
  when (s.ioRuns && s.fld 0x11 F.SPIC_STAT_BUSY k == 1 && rx.length == s.spicLen k) s (s.spicStore k rx)

/-! ## UART and GPIO (R654, R655) -/

/-- Nanoseconds that a byte takes on the line. -/
def State.uartNs (s : State) : Nat :=
  let b := s.fld 0x11 F.UART_CFG_BAUD 0
  let bits := 10 + b2n (s.fld 0x11 F.UART_CFG_PARITY 0 != 0) + s.fld 0x11 F.UART_CFG_STOP2 0
  if b = 0 then 0 else cdiv (bits * 1000000000) b

/-- The transmit FIFO now: the bytes whose time has passed have been sent. -/
def State.uartSync (s : State) : State :=
  let ns := s.uartNs
  if ns = 0 ∨ s.field.uartTx = [] then s
  else
    let n := (s.clk.now - s.field.uartT) / ns
    s.withField fun f => { f with uartTx := f.uartTx.drop n, uartT := f.uartT + n * ns }

/-- A byte joins the transmit FIFO; a full FIFO drops it. -/
def State.uartSend (s : State) (v : Byte) : State :=
  let s1 := s.uartSync
  if 64 ≤ s1.field.uartTx.length then s1
  else s1.withField fun f => { f with uartTx := f.uartTx ++ [v], uartT := if f.uartTx = [] then s.clk.now else f.uartT }

def execUartTransmit (_who : Requester) (v : Byte) (s : State) : Out := when s.io s (s.uartSend v)

/-- A byte arrives: dropped when the FIFO is full (R654); a parity or framing error is recorded. -/
def State.uartTake (s : State) (v : Byte) (parityOk framingOk : Bool) : State :=
  let s1 := if parityOk then s else s.setFld 0x11 F.UART_STAT_PARITY 0 1
  let s2 := if framingOk then s1 else s1.setFld 0x11 F.UART_STAT_FRAMING 0 1
  let s3 := if 64 ≤ s.field.uartRx.length then (s2.setFld 0x11 F.UART_STAT_OVERRUN 0 1).record 0x11 6
    else s2.withField fun f => { f with uartRx := f.uartRx ++ [v] }
  s3.recordIf (!parityOk || !framingOk) 0x11 6

def execUartReceive (v : Byte) (parityOk framingOk : Bool) (s : State) : Out := when s.io s (s.uartTake v parityOk framingOk)

/-- A read of UART_DATA takes the oldest received byte. -/
def State.uartPop (s : State) : U64 × State :=
  match s.field.uartRx with
  | [] => (0, s)
  | b :: rest => (BitVec.ofNat 64 (b.toNat + 256), s.withField fun f => { f with uartRx := rest })

/-- UART_STAT as it reads. -/
def State.uartStat (s : State) : U64 :=
  let v := s.reg 0x11 .UART_STAT 0
  BitVec.ofNat 64 (v.toNat / 2 ^ 15 * 2 ^ 15 + s.field.uartRx.length * 256 + s.uartSync.field.uartTx.length)

/-- GPIO_IN as it reads: an output drives its own pin. -/
def State.gpioIn (s : State) : U64 :=
  let d := (s.reg 0x11 .GPIO_DIR 0).toNat % 65536
  BitVec.ofNat 64 ((s.reg 0x11 .GPIO_OUT 0).toNat % 65536 &&& d ||| s.pins.gpio.toNat &&& (65535 - d))

/-! ## The host interface's answers (Tables 18-2 and 18-4) -/

/-- A change of the host interface's state. -/
def State.withHost (s : State) (f : HostIf → HostIf) : State := { s with host := f s.host }

/-- STATUS byte, response bytes and RCRC. -/
def frameAnswer (st : Status) (err : Nat) (d : List Byte) : List Byte :=
  let b := BitVec.ofNat 8 (statusCode st + err * 16) :: d
  b ++ leBytes 2 (crc16 b)

/-- The response of an SPI frame, after SYNC. -/
def State.spiAnswer (s : State) (st : Status) (err : Nat) (d : List Byte) : State :=
  s.withHost fun h => { h with spi := some (0x5A :: frameAnswer st err d) }

/-- A waiting BUOY_RD is answered on its path. -/
def State.buoyAnswer (s : State) (x : BuoyWait) (st : Status) (d : List Byte) : State :=
  let s1 := s.withHost fun h => { h with buoy := h.buoy.erase x }
  if x.path = .spi then s1.spiAnswer st 0 d
  else s1.withHost fun h => { h with i3c := some (frameAnswer st 0 d) }

/-- The BUOY_RDs that wait are answered DOWN, as the domain goes off (R257, R659). -/
def State.buoyDown (s : State) : State := s.host.buoy.foldl (fun t x => t.buoyAnswer x .down (List.replicate 8 0)) s

/-- The host interface after a switch-off: only the TAP and what it has already handed to its pins are left. -/
def HostIf.off (h : HostIf) : HostIf :=
  { tapIr := h.tapIr, tapOut := h.tapOut, cells := h.cells, cpl := h.cpl, spi := h.spi, i3c := h.i3c }

/-! ## Drain and reset (R659, R661) -/

/-- Step 2 of the domain's drain: what is abandoned ends with DOWN; a frame on each wire, running transfers and granted segments go on. -/
def State.fieldDrain (s : State) : State :=
  let tail := ((List.range 4).filter fun c => s.canSends c) ++ ((List.range 2).filter fun m => s.fld 0x11 F.ETH_CFG_EN m == 1).map (4 + ·)
  let s0 := s.withField fun f => { f with tail := tail }
  let s1 := (List.range 4).foldl (fun t k => if t.field.armed.contains k then
    (t.withField fun f => { f with armed := f.armed.erase k }).spicEnd k .down else t) s0
  match s1.field.xspi with
  | [] => s1
  | o :: _ =>
    if s1.xspiReady o && decide (2 ≤ o.op) then s1.withField fun f => { f with xspi := f.xspi.take 1 }
    else
      let s2 : State := { s1 with hm := { s1.hm with deferred := s1.hm.deferred.filter fun g => g.user != .xspiCmd } }
      ((s2.setFld 0x11 F.XSPI_STAT_STATUS 0 (statusCode .down)).withField fun f => { f with xspi := [] }).xspiStat

/-- The field interfaces after a reset or a switch-off: message buffers, FIFOs and ring positions empty. -/
def State.fieldClear (s : State) : State := { s with field := {} }

end Sys2Proof.Machine
end

