-- ==== Sys2Proof/Machine/WoEnd.lean ====
section
/-! DEFINITION. The completion of a work order: its Buoy, its counters, its interrupt and its fault
(04_sequencer_work_orders.md R161 to R164, Table 4-10).
Log entries: 120 DESIGN CHOICE, 141 DEDUCED. -/

namespace Sys2Proof.Machine

/-- The completion Buoy after a completion (Table 4-10). -/
def buoyDone (v : U64) (seq : U32) (st : Status) : U64 :=
  let err := if st = .ok then bitsOf v 52 52 else 1
  BitVec.ofNat 64 ((bitsOf v 31 0 + 1) % 2 ^ 32 + seq.toNat % 65536 * 2 ^ 32 + statusCode st * 2 ^ 48 + err * 2 ^ 52)

/-- BUOY_EN and the Hold offset of the completion Buoy (Table 4-5). -/
def woBuoyEn (d : BitVec 512) : Bool := wBits d 29 29 == 1
def woBuoyAt (d : BitVec 512) : Nat := wBits d 60 44 * 8

/-- A work order's completion updates its Buoy (R162). A speculative one's lies in the shadow region and is written under its
group (R336). The update reads the word without a check and writes it with fresh check bits (log entry 120, DESIGN CHOICE). -/
def State.woBuoy (s : State) (n : Nat) (w : Wo) (st : Status) : State :=
  if woBuoyEn w.desc then
    let o := woBuoyAt w.desc
    let v := leBytes 8 (buoyDone (BitVec.ofNat 64 (leNat (s.seen (.hold n o) 8))) w.seq st).toNat
    match woCg w.desc with
    | some id => s.specWrite n o id v
    | none => s.holdPut n o v
  else s

/-- A work order leaves the queue with a status. -/
def State.woEnd (s : State) (n : Nat) (w : Wo) (st : Status) : State :=
  let b := s.berth n
  let s1 := ((s.setBerth n { b with woq := b.woq.filter fun x => x.seq != w.seq, poke := true }).countEvents n w.events).endHolds [w]
  let s2 := s1.woBuoy n w st
  let s3 := if wBits w.desc 28 28 = 1 then (s2.setFld (bslot n) F.SEQ_STAT_WO_IRQ 0 1).notify s2 [bslot n] else s2
  s3.recordIf (st != .ok && (woCg w.desc).isNone) (bslot n) 12

/-- The Berth drains: its sequencer stops, and every queued work order that has not started completes DOWN (R169). -/
def State.berthDrain (s : State) (n : Nat) : State :=
  let b := s.berth n
  let s1 := (s.setBerth n { b with drainEdge := b.seq == .running && b.wait == .none }).seqHalt n
  ((s1.berth n).woq.filter fun w => !w.running).foldl (fun t w => t.woEnd n w .down) s1

end Sys2Proof.Machine
end

