-- ==== Sys2Proof/Machine/Power.lean ====
section
/-! DEFINITION. The Harbourmaster's sequences that other chapters share: PLLs, power domains, the drain protocol, warm reset, sleep
entry and the start of a wake (07_sleep_wake_clocks_straps.md).
Log entries: 20 DEDUCED, 22 DEDUCED, 44 DESIGN CHOICE, 50 DEDUCED, 51 DEDUCED, 52 DEDUCED, 54 DEDUCED, 55 DEDUCED,
56 DEDUCED, 58 DEDUCED, 113 DEDUCED, 130 DEDUCED, 138 DEDUCED. -/

namespace Sys2Proof.Machine

/-! ## Registers that a reset clears -/

/-- Slots of the always-on domain and the Logbook, whose registers a warm reset and Sleep keep (Tables 7-1 and 7-6). -/
def alwaysOn (slot : Nat) : Bool := slot == 0 || slot == 2 || slot == 3 || slot == 0x13

/-- Puts the registers from offset `lo` of the slots that satisfy a test back to their reset values. MC_CFG keeps CAP and
USABLE_TOP (R72), and a register whose key satisfies `keep` keeps its value. -/
def State.clearRegs (s : State) (lo : Nat) (slots keep : Nat → Bool) : State :=
  let caps := [0x0A, 0x0B].map fun sl => (sl, s.fld sl F.MC_CFG_CAP 0, s.fld sl F.MC_CFG_USABLE_TOP 0)
  let s1 := { s with regs := Tab.drop s.regs fun k => slots (k / 0x10000) && decide (lo ≤ k % 0x10000) && !keep k }
  caps.foldl (fun t c => (t.setFld c.1 F.MC_CFG_CAP 0 c.2.1).setFld c.1 F.MC_CFG_USABLE_TOP 0 c.2.2) s1

/-- BASIN_RET's key: the Basin keeps it while its domain is off. -/
def basinRetKey : Nat := regKey 0x0C .BASIN_RET 0

/-- Until a chart's REACTION section is applied, BLK_REACT reads 10 in every group when DFLTREACT is 1 (R247). -/
def State.strapReact (s : State) (slots : List Nat) : State :=
  if nbit s.strap 12 then slots.foldl (fun t sl => t.setReg sl .BLK_REACT 0 (reactWord sl fun _ => 2)) s else s

/-- A warm reset puts the reactions and grace times of the slots that it keeps back to those of R247, unless a chart's REACTION
section has been applied. -/
def State.reactReset (s : State) : State :=
  if s.reactDone then s
  else ((allSlots.filter alwaysOn).foldl (fun t sl => (t.clearReg sl .BLK_REACT 0).clearReg sl .BLK_GRACE 0) s).strapReact
    (allSlots.filter alwaysOn)

/-! ## The enables of the board's supplies (R248, R688, R690) -/

/-- The LPDDR strap. -/
def State.lpddr (s : State) : Bool := nbit s.strap 13

/-- XO_EN and PHY_EN rise in the same cycle, and DDR_EN with them when LPDDR5X is fitted. -/
def State.refOn (s : State) : State :=
  { s with pins := { s.pins with xoEn := true, phyEn := true, ddrEn := s.lpddr, ddrHold := false } }

/-- XO_EN and PHY_EN fall in the same cycle. DDR_EN stays high, with the retention latches holding, when the LPDDR5X is in
self-refresh. -/
def State.refOff (s : State) (selfRefresh : Bool) : State :=
  { s with pins := { s.pins with xoEn := false, phyEn := false, ddrEn := s.lpddr && selfRefresh, ddrHold := s.lpddr && selfRefresh } }

/-- Some controller is to place its LPDDR5X in self-refresh (R73). -/
def State.srSleep (s : State) : Bool := [0x0A, 0x0B].any fun sl => s.fld sl F.MC_CFG_SR_SLEEP 0 == 1

/-! ## Switching on (R251, R252) -/

/-- A PLL has failed under R249. -/
def State.pllFailed (s : State) (p : Nat) : Bool := nbit (s.fld 0 F.HM_CLK_FAILED 0) p

/-- The Harbourmaster switches the domain on when asked: not after a mismatch (R533), nor during sleep entry, which switches every
domain off (R261), nor a controller without LPDDR5X (R71), nor a block whose PLL has failed (R249). -/
def State.switchable (s : State) (d : Nat) : Bool :=
  decide (d < 44) && !s.hm.broken && s.dev != .entering && !(decide (d < 32) && s.pllFailed 0)
    && !((d == 39 || d == 40) && (!s.lpddr || s.pllFailed 2)) && !(d == 41 && s.pllFailed 3)

/-- The next group of at most 8 domains is switched on; the one after it starts 1 µs later. -/
def State.switchGroup (s : State) : State :=
  let g := s.hm.switchQ.take 8
  let s1 := g.foldl (fun (t : State) d => t.setDom d { t.dom d with power := .ramping, rampAt := s.clk.now }) s
  { s1 with hm := { s1.hm with switchQ := s.hm.switchQ.drop 8, switchAt := s.after 1000 } }

/-- Switches domains on, in the order of the list. -/
def State.switchOn (s : State) (ds : List Nat) : State :=
  let new := ds.filter fun d => s.switchable d && (s.dom d).power == .off && !s.hm.switchQ.contains d && (s.dom d).holdEnd.isNone
  let s1 : State := { s with hm := { s.hm with switchQ := s.hm.switchQ ++ new } }
  if s1.hm.switchQ ≠ [] ∧ s1.hm.switchAt ≤ s1.clk.now then s1.switchGroup else s1

/-- BLK_PWR.ON as it reads: the requested domain state (R671). -/
def State.wanted (s : State) (d : Nat) : Bool :=
  let x := s.dom d
  if x.draining then x.thenReset || x.thenOn else x.power != .off || x.holdEnd.isSome || s.hm.switchQ.contains d

/-! ## The drain protocol, domain side (Table 7-7) -/

/-- A Berth's unreleased flow entries return DOWN to their flows (R475). -/
def State.berthCredits (s : State) (n : Nat) : State :=
  (List.range 4).foldl (fun t q =>
    { t with credits := t.credits ++ (((s.berth n).rx q).filter fun e => e.flow && !e.stale).map fun e =>
        ⟨e.x, e.y, e.unit, BitVec.ofNat 8 s.gx, BitVec.ofNat 8 s.gy, BitVec.ofNat 6 n, q, 3⟩ }) s

/-- What a block does as it enters DRAIN. -/
def State.drainBlock (s : State) (d : Nat) : State :=
  if d < 32 then
    let s1 := if (s.dom d).faulted then s else s.berthDrain d
    (s1.berthCredits d).berthGone d
  else if (d = 32 ∨ d = 33) ∧ (s.dom d).faulted = true then s
  else if d = 32 then (if s.dev = .entering then s.kvSaveAll.wharfDrain else s.wharfDrain)
  else if d = 33 then s.dredgerDrain
  else if 34 ≤ d ∧ d ≤ 37 then
    if s.dev = .entering then (if s.qstate (d - 34) = 7 then s.linkSend (d - 34) .sleep else s) else s.quayDrain (d - 34)
  else if d = 41 then s.intakeDrain
  else if d = 42 then s.fieldDrain
  else s

/-- Requests of a draining block that have not completed (step 2). -/
def State.outstanding (s : State) (d : Nat) : Bool :=
  if d < 32 then
    let b := s.berth d
    b.tags != [] || b.held != [] || b.egS != [] || b.egA != [] || b.egD != []
      || (!(s.dom d).faulted && b.woq.any (·.running))
  else if 34 ≤ d ∧ d ≤ 37 then (s.quay (d - 34)).replay != [] || (s.quay (d - 34)).txq != []
  else if d = 38 then s.lt.txq != [] || s.lt.xfers != [] || s.lt.rx != [] || s.lt.held != []
  else if d = 41 then s.streams.any fun c => c.2.writes != []
  else if d = 42 then s.field.sending != [] || s.field.xspi != [] || s.hm.granted.isSome
    || (List.range 4).any fun k => s.fld 0x11 F.SPIC_STAT_BUSY k == 1
  else false

/-- Drain of a domain: `rst` asks for a reset, otherwise for off. A second request joins the first, and off prevails (R259). -/
def State.drainReq (s : State) (d : Nat) (rst : Bool) : State :=
  let x := s.dom d
  if x.draining then (if rst then s else s.setDom d { x with thenReset := false, thenOn := false })
  else if x.power = .off then
    let s1 : State := { s with hm := { s.hm with switchQ := s.hm.switchQ.erase d } }
    s1.setDom d { x with holdEnd := if rst then some (s.after 1000) else none }
  else
    (s.setDom d { x with draining := true, drain := 1, drainT := s.clk.now, thenReset := rst, thenOn := false }).drainBlock d

/-- The Basin banks that BASIN_RET selects keep their contents; the others lose them (R66, R727). -/
def State.basinLose (s : State) : State :=
  (List.range 16).foldl (fun t b =>
    if nbit (s.fld 0x0C F.BASIN_RET_RETAIN 0) b then t
    else t.wipe (basinBase + b * 0x100000) (basinBase + (b + 1) * 0x100000)) s

/-- The requests of a Berth that have left it are abandoned: the router discards their responses (R258). -/
def State.abandon (s : State) (n : Nat) : State :=
  { s with mesh := { s.mesh with abandoned := s.mesh.abandoned ++ (((s.berth n).tags.filter (·.2.sent)).map fun t => (n, t.1, t.2.epoch)) } }

/-- No credit of a Berth's flows survives the loss of the Berth (R37): those on their way are dropped, and what it has sent returns
none. -/
def State.flowsLost (s : State) (n : Nat) : State :=
  let own (x y unit : Nat) : Bool := x == s.gx && y == s.gy && unit == n
  let mine (m : Manifest) : Bool := own (mNum m 6 1) (mNum m 7 1) (mSrcUnit m) && mFlow m
  let entry (e : RxEntry) : RxEntry := if e.flow && own e.x.toNat e.y.toNat e.unit.toNat then { e with stale := true } else e
  let t := (List.range 32).foldl (fun (t : State) k =>
    let b := t.berth k
    t.setBerth k { b with rx0 := b.rx0.map entry, rx1 := b.rx1.map entry, rx2 := b.rx2.map entry, rx3 := b.rx3.map entry }) s
  { t with credits := t.credits.filter fun c => !own c.x.toNat c.y.toNat c.unit.toNat,
           stale := t.stale.filter (fun m => !mine m) ++ t.net.filter mine ++ [32, 33, 34].flatMap fun u =>
             ((Tab.get [] t.blockQ u).map (·.1)).filter mine }

/-- What is lost inside a block whose domain is off, registers apart. -/
def State.loseBlock (s : State) (d : Nat) : State :=
  if d < 32 then
    let s1 := ((((s.endHolds (s.berth d).woq).wipe (holdBase d) (holdBase (d + 1))).ltOwnerOff d).abandon d).setBerth d {}
    { s1.flowsLost d with cgOut := s1.cgOut.filter fun c => c.1 != d, resps := s1.resps.filter fun r => r.who != .berth (Fin.ofNat 32 d) }
  else if d = 32 then s.wharfClear.ltOwnerOff 32
  else if d = 33 then s.dredgerClear.ltOwnerOff 33
  else if 34 ≤ d ∧ d ≤ 37 then s.quayClear (d - 34)
  else if d = 38 then s.lighterClear
  else if d = 41 then s.intakeClear
  else if d = 42 then
    { s.fieldClear with host := s.host.off }
  else if d = 43 then s.basinLose
  else s

/-- A domain is off: its block is lost but for its header, which the spine keeps (R565). -/
def State.domOff (s : State) (d : Nat) : State :=
  let s1 := (s.loseBlock d).clearRegs 0x80 (fun sl => domainOf sl == d) (· == basinRetKey)
  s1.setDom d { s1.dom d with power := .off, draining := false, drain := 0, selfTest := false, faulted := false }

/-! ## Sleep entry (R261) -/

/-- The next domain of the sleep entry is drained, one after another in descending order. -/
def State.sleepNext : Nat → State → State
  | 0, s => s
  | fuel + 1, s =>
    match s.hm.sleepQ with
    | [] => s
    | d :: rest =>
      let s1 : State := { s with hm := { s.hm with sleepQ := rest } }
      if (s.dom d).draining then s1.setDom d { s.dom d with thenReset := false, thenOn := false }
      else if (s.dom d).power = .off then State.sleepNext fuel s1
      else s1.drainReq d false

/-- Step 3 of a drain: the replies that the block still owes are answered DOWN (R257). -/
def State.owedDown (s : State) (d : Nat) : State :=
  if d = 38 then s.lighterDrainEnd else if d = 42 then s.buoyDown else s

/-- Steps 3 and 4 of a drain: owed replies are answered DOWN, the domain goes off, and what was to follow follows
(R256, R257, R283). Sleep entry leaves every domain off. -/
def State.drainEnd (s : State) (d : Nat) : State :=
  let x := s.dom d
  let s1 := (s.owedDown d).domOff d
  let s2 := s1.setDom d { s1.dom d with thenReset := false, thenOn := false }
  if s.dev = .entering then s2.sleepNext 44
  else if x.thenReset then s2.setDom d { s2.dom d with holdEnd := some (s.after 1000) }
  else if x.thenOn then s2.switchOn [d] else s2

/-- A domain goes off by the drain protocol, at once when the block has nothing outstanding; one that is still ramping goes off as it
is (R251, R294). -/
def State.drainOut (s : State) (d : Nat) : State :=
  match (s.dom d).power with
  | .off => s
  | .ramping => s.domOff d
  | .on =>
    let t := s.drainReq d false
    if t.outstanding d then t else (t.setDom d { t.dom d with drain := 3 }).drainEnd d

/-! ## Warm reset (Table 7-6, R255) -/

/-- The Safe cause that a reset carries to the end of the coming check. -/
def State.carrySafe (s : State) : State :=
  let due : Bool := s.dev == .safe || (s.dev == .service && (s.hm.svcFromSafe || s.fld 0 F.HM_SAFE_STAT_PENDING 0 == 1))
  if due && !s.hm.safeDue then
    { s with hm := { s.hm with safeDue := true,
                               safeCause := if s.dev = .safe ∨ s.hm.svcFromSafe then s.fld 0 F.HM_SAFE_STAT_CAUSE 0 else s.hm.safeCause } }
  else s

/-- Registers that a warm reset keeps beside the always-on slots: LH_CFG and LH_LIM (R549), PILOT_SRC and PILOT_LEN (R223),
HOST_WIN (R661). -/
def warmKeep (k : Nat) : Bool :=
  let sl := k / 0x10000
  let r := regAt sl (k % 0x10000)
  match r with
  | some (.LH_CFG, _) => true
  | some (.LH_LIM, _) => true
  | some (.PILOT_SRC, _) => true
  | some (.PILOT_LEN, _) => true
  | some (.HOST_WIN, _) => true
  | _ => false

/-- The blocks of the switched domains and of the spine lose their state beside registers. The Basin, LPDDR5X, Hold contents and
the message buffers in memory stay (R79, R117); Hold words have valid check bits. A granted segment of a block that is
reset is cut off. -/
def State.warmBlocks (s : State) : State :=
  let s1 := ((((s.wharfClear.dredgerClear).lighterClear).intakeClear).fieldClear)
  let s2 : State := match s1.hm.granted with
    | some g => if g.user = .logbook then s1
      else { s1.flashCut (g.lo / 2 ^ 32) (g.lo % 2 ^ 32) g.len with hm := { s1.hm with granted := none } }
    | none => s1
  { s2 with
    berths := [], mesh := s.meshReset [.quiesce], stale := [], resps := [], credits := [], net := [], blockQ := [], unitSeq := [], cgOut := [], stamps := [], lhs := []
    host := { tapIr := s.host.tapIr, tapOut := s.host.tapOut, cells := s.host.cells }
    ecc := Tab.drop s2.ecc fun k => decide (holdBase 0 ≤ k / 2) && decide (k / 2 < holdBase 32)
    hm := { s2.hm with deferred := s2.hm.deferred.filter fun g => g.user == .logbook, sleepQ := [] } }

/-- A domain after a warm reset: a ramp ends on, a drain and a hold-off are dropped, and the block is tested again. One that is off
stays excluded until it passes its items (R294). -/
def Dom.afterWarm (x : Dom) : Dom :=
  if x.power = .off then { excluded := x.excluded } else { power := .on }

/-- Berths, pairs and memories are in self-test until their items have ended. -/
def tested (d : Nat) : Bool := decide (d ≤ 33) || d == 39 || d == 40 || d == 43

/-- Domains that a wake check covers by name: HM_DOM_WAKE, and the Basin, which the check zeroes and scrubs (R253, R77). -/
def State.wakeDoms (s : State) : List Nat :=
  (List.range 44).filter fun d => nbit (s.fld 0 F.HM_DOM_WAKE_DOMS 0) d || d == 43

/-- A warm reset with a STATE_CHANGE cause, in every awake state (Table 7-2) but Start-check, in which it is ignored (R300). -/
def State.warmReset (s : State) (cause : Nat) : State :=
  if s.dev = .idle ∨ s.dev = .run ∨ s.dev = .safe ∨ s.dev = .service ∨ s.dev = .entering then
    let s0 := s.carrySafe.reactReset
    let s1 := s0.warmBlocks
    let s2 := s1.clearRegs 0 (fun sl => !alwaysOn sl) warmKeep
    let s3 := { s2 with hdrs := Tab.drop s2.hdrs fun sl => !alwaysOn sl, chartOn := false, reactDone := false,
                        pilot := { failed := s2.pilot.failed } }
    let s4 := s3.strapReact (allSlots.filter fun sl => !alwaysOn sl)
    let s5 := (List.range 44).foldl (fun (t : State) d =>
      let x := (s.dom d).afterWarm
      t.setDom d { x with selfTest := x.power == .on && tested d }) s4
    let s6 := { s5 with hm := { s5.hm with check := none, wakeCheck := true, afterWarm := true, fromSleep := false, switchQ := [],
                                           xoAt := none, retPend := 0, cePend := false, svcFromSafe := false, sleepWait := false } }
    ((s6.setFld 0 F.HM_SAFE_STAT_PENDING 0 0).setDev .startCheck cause).switchOn s.wakeDoms
  else s

/-! ## The start of a wake (R262, R263) -/

/-- XO_WAIT in nanoseconds; 10 to 1,000 µs (Table 7-13). -/
def State.xoWait (s : State) : Nat :=
  let w := s.fld 0 F.HM_CLK_XO_WAIT 0
  1000 * (if w < 10 then 10 else if 1000 < w then 1000 else w)

/-- The wake sequence starts: HM_WAKE_SRC takes the sources, and the reference and the board's supplies are started. -/
def State.wakeStart (s : State) (src : Nat) : State :=
  let s1 := s.setFld 0 F.HM_WAKE_SRC_SRC 0 src
  let s2 := { s1 with hm := { s1.hm with check := none, wakeCheck := true, afterWarm := false, fromSleep := true,
                                         xoAt := some (s.after s.xoWait), pllStart := [], pllTried := [], wakeTide := s.tide } }
  ((s2.setReg 0 .HM_CLK 0 (BitVec.ofNat 64 (s.fld 0 F.HM_CLK_XO_WAIT 0 * 65536))).setDev .startCheck 2).refOn

/-- Enabled wake sources among a set; the ESTOP bit is always enabled (R263). -/
def State.wakeEnabled (s : State) (src : Nat) : Nat := src &&& ((s.reg 0 .HM_WAKE_EN 0).toNat ||| 2 ^ 13)

/-- A wake source asserts: it wakes the Q32 from Sleep, is latched during sleep entry, and is recorded in Start-check
(R262, R263, R301). -/
def State.wakeSource (s : State) (src : Nat) : State :=
  let e := s.wakeEnabled src
  if e = 0 then s
  else match s.dev with
    | .sleep => s.wakeStart e
    | .entering => { s.setFld 0 F.HM_WAKE_SRC_SRC 0 (s.fld 0 F.HM_WAKE_SRC_SRC 0 ||| e) with
                     hm := { s.hm with wakeSeen := s.hm.wakeSeen ||| e } }
    | .startCheck => s.setFld 0 F.HM_WAKE_SRC_SRC 0 (s.fld 0 F.HM_WAKE_SRC_SRC 0 ||| e)
    | _ => s

/-- A latched fault starts a wake from Sleep (R282, R534). -/
def State.wakeIfDue (s : State) : State := if s.dev = .sleep ∧ s.hm.safeDue then s.wakeStart 0 else s

/-! ## Stores: the hold-up check (R275 to R279) -/

/-- The stored energy times 10 ^ 18 × 2 × 4096² × 256² in J, exactly: C in µF, V = code × 1.2 V × RATIO / 4,096 with RATIO
unsigned 8.8, Vmin in mV. -/
def State.energyScaled (s : State) (code : Nat) : Nat :=
  let v := code * 1200 * s.fld 0 F.HM_HU_CFG0_RATIO 0            -- mV × 4096 × 256
  let m := s.fld 0 F.HM_HU_CFG0_VMIN_MV 0 * 4096 * 256
  s.fld 0 F.HM_HU_CFG0_C_UF 0 * (v * v - m * m)                  -- µF × mV² = 10⁻¹² J, × (4096 × 256)² × 2

/-- E in µJ, rounded to nearest. -/
def State.energy (s : State) (code : Nat) : Nat :=
  (s.energyScaled code + (4096 * 256) ^ 2 * 1000000) / (2 * (4096 * 256) ^ 2 * 1000000)

/-- MARGIN × need in 256 pJ: FIXED in µJ, PER_BYTE in pJ. -/
def State.needScaled (s : State) (bytes : Nat) : Nat :=
  s.margin * (s.fld 0 F.HM_HU_CFG1_FIXED 0 * 1000000 + bytes * s.fld 0 F.HM_HU_CFG1_PER_BYTE 0)

/-- The check grants: E ≥ MARGIN × need, compared exactly; C_UF = 0 defers every segment (Table 7-14). -/
def State.huGrants (s : State) (code bytes : Nat) : Bool :=
  s.fld 0 F.HM_HU_CFG0_C_UF 0 != 0 &&
    decide (s.needScaled bytes * (2 * (4096 * 256) ^ 2) ≤ s.energyScaled code * 256)

/-- HM_HU_MEAS after a check, in µJ rounded to nearest. -/
def State.huMeasure (s : State) (code bytes : Nat) (ok : Bool) : State :=
  s.setReg 0 .HM_HU_MEAS 0 (BitVec.ofNat 64 (code % 4096 + min (s.energy code) 0xFFFFF * 2 ^ 12
    + min ((s.needScaled bytes + 128000000) / 256000000) 0xFFFFF * 2 ^ 32 + b2n ok * 2 ^ 52))

end Sys2Proof.Machine
end

