-- ==== Sys2Proof/Machine/Check.lean ====
section
/-! DEFINITION. The start check, the clocks before it and the resource report after it (08_start_check.md; 06_charts.md R205).
Log entries: 48 DEDUCED, 49 DESIGN CHOICE, 50 DEDUCED, 51 DEDUCED, 71 DEDUCED, 76 DEDUCED, 114 DEDUCED, 119 DESIGN CHOICE,
128 DESIGN CHOICE, 142 DEDUCED. -/

namespace Sys2Proof.Machine

/-! ## PLLs and the tide clock's start (R248 to R250, R267, R268) -/

/-- The tide counter starts: the chip at (0,0) is the master (R268), an elected master stays one (R272), any other chip has
received no sync (R726). -/
def State.tideStart (s : State) : State :=
  let s1 := { s with clk := { s.clk with running := true, lastSync := none, lostAt := none, claimK := none, heard := [],
                                         syncAt := s.clk.now, syncReq := none, syncResp := none, slew := 0, ppsAt := none } }
  if s.fld 2 F.TIDE_STAT_IS_MASTER 0 = 1 then s1
  else s1.setReg 2 .TIDE_STAT 0 (if s.posX = 0 ∧ s.posY = 0 then 3 else 0)

/-- The Q32 is to enter Safe at the end of the check. -/
def State.safeAtEnd (s : State) (cause : Nat) : State :=
  if s.hm.safeDue then s else { s with hm := { s.hm with safeDue := true, safeCause := cause } }

/-- A PLL has failed for good (R249). -/
def State.pllFail (s : State) (p : Nat) : State :=
  let s1 := (s.setFld 0 F.HM_CLK_FAILED 0 (s.fld 0 F.HM_CLK_FAILED 0 ||| 2 ^ p)).record 0 3
  let s2 : State := { s1 with hm := { s1.hm with pllStart := Tab.del s1.hm.pllStart p } }
  if p = 0 then s2.safeAtEnd 15
  else if p = 1 then { s2.record 2 0 with clk := { s2.clk with running := false } }
  else s2

/-- With every PLL locked or failed, the domains of the check are switched on (Tables 7-9 and 8-3). -/
def State.pllSettled (s : State) : State :=
  if s.hm.pllStart = [] then s.switchOn (if s.hm.wakeCheck then s.wakeDoms else List.range 44) else s

/-- Every PLL has locked or failed. -/
def State.clocksUp (s : State) : Bool := (s.fld 0 F.HM_CLK_LOCKED 0 ||| s.fld 0 F.HM_CLK_FAILED 0) == 0xF

/-- The reference is compared with the RC (R248, R250). -/
def State.referenceCheck (s : State) (ok : Bool) : State :=
  let s1 := { s with hm := { s.hm with xoAt := none, pllTried := [] } }
  if ok then
    let s2 := s1.setFld 0 F.HM_CLK_XO_OK 0 1
    { s2 with hm := { s2.hm with pllStart := [(0, s.clk.now), (1, s.clk.now), (2, s.clk.now), (3, s.clk.now)] } }
  else ((List.range 4).foldl State.pllFail (s1.record 0 4)).pllSettled

/-- Reference cycles counted over 2 µs of the RC are accepted within ±2 % of the 50 that 25 MHz gives (R248). -/
def refAccepted (count : Nat) : Bool := decide (98 * 50 ≤ 100 * count) && decide (100 * count ≤ 102 * 50)

/-- The comparison takes 2 µs from the end of XO_WAIT. -/
def execReferenceCheck (count : Nat) (s : State) : Out :=
  match s.hm.xoAt with
  | some t => when (s.dev == .startCheck && decide (t + 2000 ≤ s.clk.now)) s (s.referenceCheck (refAccepted count))
  | none => nothing s

/-- A PLL locks. -/
def State.pllLock (s : State) (p : Nat) : State :=
  let s1 := s.setFld 0 F.HM_CLK_LOCKED 0 (s.fld 0 F.HM_CLK_LOCKED 0 ||| 2 ^ p)
  let s2 : State := { s1 with hm := { s1.hm with pllStart := Tab.del s1.hm.pllStart p } }
  (if p = 1 then s2.tideStart else s2).pllSettled

/-- A PLL locks within 20 µs of its start, or not at all (R249). -/
def execPllLock (p : Fin 4) (s : State) : Out :=
  when ((Tab.find s.hm.pllStart p).any fun t => decide (s.clk.now ≤ t + 20000)) s (s.pllLock p)

/-- A PLL that has not locked in 20 µs is restarted once (R249). -/
def execPllLockTimeout (p : Fin 4) (s : State) : Out :=
  match Tab.find s.hm.pllStart p with
  | none => nothing s
  | some t =>
    if s.clk.now < t + 20000 then nothing s
    else if s.hm.pllTried.contains p then .next (s.pllFail p).pllSettled
    else .next { s with hm := { s.hm with pllTried := p.val :: s.hm.pllTried, pllStart := Tab.put s.hm.pllStart p s.clk.now } }

/-! ## Items (Tables 8-1 and 8-4) -/

/-- The slot in which an item's instance lies. Item 4 numbers the pairs by their domain: 32 the Wharfinger, 33 the Dredger. -/
def scSlot (f : ScFail) : Nat :=
  match f.item with
  | 1 => 0 | 2 => 0 | 3 => 0x13
  | 4 => if f.inst = 32 then 0x0E else if f.inst = 33 then 0x0F else bslot f.inst
  | 5 => bslot f.inst
  | 6 => 0x0C | 7 => 3
  | 8 => 0x0A + f.inst
  | 9 => 4 + f.inst
  | 10 => 0x12
  | _ => f.inst

/-- The item and its instance exist (Table 8-1). -/
def scExists (f : ScFail) : Bool :=
  match f.item with
  | 1 => f.inst == 0
  | 2 => f.inst == 0
  | 3 => decide (f.inst < 4)
  | 4 => decide (f.inst < 34)
  | 5 => decide (f.inst < 32)
  | 6 => decide (f.inst < 16)
  | 7 => f.inst == 0
  | 8 => decide (f.inst < 2)
  | 9 => decide (f.inst < 4)
  | 10 => decide (f.inst < 64)
  | 11 => allSlots.contains f.inst
  | _ => false

/-- The slots whose item 11 excludes their block (Table 8-4). -/
def graceExcludes (slot : Nat) : Bool :=
  decide (0x20 ≤ slot) || (decide (4 ≤ slot) && decide (slot ≤ 8)) || slot == 0x0A || slot == 0x0B
    || (decide (0x0D ≤ slot) && decide (slot ≤ 0x0F))

/-- A failure that is central (R296). -/
def scCentral (f : ScFail) : Bool :=
  f.item == 1 || f.item == 2 || f.item == 3 || f.item == 6 || (f.item == 11 && !graceExcludes f.inst)

/-- The domain that a failure excludes. -/
def scExcluded (f : ScFail) : Option Nat :=
  if f.item = 4 ∨ f.item = 5 ∨ f.item = 8 ∨ f.item = 9 ∨ (f.item = 11 ∧ graceExcludes f.inst = true) then some (domainOf (scSlot f))
  else none

/-- The phase in which an item runs (Tables 8-2 and 8-3). -/
def scPhase (item : Nat) : Nat :=
  match item with
  | 1 => 10 | 2 => 1 | 3 => 2 | 4 => 3 | 5 => 3 | 6 => 4 | 7 => 4 | 8 => 4 | 9 => 5 | 10 => 6 | _ => 7

/-- The order of the phases. -/
def phaseRank (p : Nat) : Nat := if p = 10 then 0 else if p = 11 then 4 else if p ≤ 3 then p else p + 1

/-- Sets or clears the bit of a failure in HM_SC_CORE, HM_SC_BERTH, HM_SC_LH and HM_SC_GRACE (Tables 8-8 and 8-9). -/
def State.scBit (s : State) (f : ScFail) (b : Bool) : State :=
  let put (t : State) (r : Reg) (i : Nat) : State := t.setReg 0 r 0 (BitVec.ofNat 64 (putBit (t.reg 0 r 0).toNat i b))
  let berth (t : State) : State := if 0x20 ≤ scSlot f then put t .HM_SC_BERTH (scSlot f - 0x20) else t
  match f.item with
  | 1 => put s .HM_SC_CORE 0
  | 2 => put s .HM_SC_CORE 1
  | 3 => put s .HM_SC_CORE (2 + f.inst)
  | 4 => if f.inst = 32 then put s .HM_SC_CORE 6 else if f.inst = 33 then put s .HM_SC_CORE 7 else berth s
  | 5 => berth s
  | 6 => put s .HM_SC_CORE 8
  | 7 => put s .HM_SC_CORE 9
  | 8 => put s .HM_SC_CORE (10 + f.inst)
  | 9 => put s .HM_SC_CORE (12 + f.inst)
  | 10 => put s .HM_SC_LH f.inst
  | _ => berth (put s .HM_SC_GRACE f.inst)

/-- The detail of an SC_FAIL entry (Table 8-5). -/
def scDetail (f : ScFail) : Nat :=
  f.item % 256 + (if f.item = 4 ∧ 32 ≤ f.inst then 0 else f.inst % 256) * 2 ^ 8 + f.sub % 256 * 2 ^ 16 + f.resp % 256 * 2 ^ 24

/-- The items of a domain's blocks, one instance for each, whose bits they set. -/
def domItems (d : Nat) : List ScFail :=
  let g := (slotsOf d).map fun sl => (⟨11, sl, 0, 0⟩ : ScFail)
  if d < 32 then ⟨4, d, 0, 0⟩ :: ⟨5, d, 0, 0⟩ :: g
  else if d ≤ 33 then ⟨4, d, 0, 0⟩ :: g
  else if d ≤ 37 then ⟨9, d - 34, 0, 0⟩ :: g
  else if d = 39 ∨ d = 40 then ⟨8, d - 39, 0, 0⟩ :: g
  else if d = 43 then ⟨6, 0, 0, 0⟩ :: g
  else g

/-! ## The course of a check -/

/-- KIND of a check. -/
def kindCode : ScKind → Nat
  | .full => 0 | .wake => 1

/-- SC_BEGIN is appended once (R299); after item 1 in a full check. -/
def State.scBegin (s : State) : State :=
  match s.hm.check with
  | none => s
  | some c =>
    if c.begun then s
    else
      let src := if c.kind = .wake then s.fld 0 F.HM_WAKE_SRC_SRC 0 else 0
      let s1 := s.logEntry 0 0xFF 0x0010 (kindCode c.kind + src * 2 ^ 8)
      { s1 with hm := { s1.hm with check := some { c with begun := true } } }

/-- Logging moves to the spare log when item 7 fails (R594, Table 8-4). -/
def State.logItemFailed (s : State) : State := if s.log.degraded then s else s.sramFail 0xFFFF

/-- A failed injection of a running check: SC_FAIL is appended up to 16 times and recorded (R297, R299). -/
def State.scFail (s : State) (f : ScFail) : State :=
  match s.hm.check with
  | none => s
  | some c =>
    let s1 := if c.fails < 16 then s.logEntry 0 0xFF 0x0011 (scDetail f) else s
    let s2 := { s1 with hm := { s1.hm with check := some { c with fails := c.fails + 1, failed := c.failed ++ [f] } } }
    let s3 := (s2.scBit f true).record 0 9
    if f.item = 7 then s3.logItemFailed else s3

/-- A domain has not reached "on" within 8 µs of its switch-on (R252). -/
def State.domStuck (s : State) (d : Nat) : Bool := (s.dom d).power == .ramping && decide ((s.dom d).rampAt + 8000 < s.clk.now)

/-- The domains of the check are on, or will never be. -/
def State.domsUp (s : State) : Bool :=
  s.clocksUp && s.hm.switchQ == [] && (List.range 44).all fun d => (s.dom d).power != .ramping || s.domStuck d

/-- The slot's grace timer runs, or has run out, for a genuine fault (R721). -/
def State.graceBusy (s : State) (slot : Nat) : Bool := (s.hdr slot).graceEnd.isSome || (s.hdr slot).graceExp

/-- The check injects into this instance: item 1 belongs to the full check (Table 8-1), item 7 is not run while the spare log is in use
(R308), item 8 needs LPDDR5X (R293), item 11 skips a slot whose timer runs for a genuine fault (R721), and the block is on. -/
def State.scCovers (s : State) (kind : ScKind) (f : ScFail) : Bool :=
  let d := domainOf (scSlot f)
  scExists f && !(f.item == 1 && kind != .full) && !(f.item == 7 && s.log.degraded) && !(f.item == 8 && !s.lpddr)
    && !(f.item == 11 && s.graceBusy f.inst) && (d == 0xFF || (s.dom d).power == .on)

/-- Memory training is over, or there is none to wait for (R293). -/
def State.trainingOver (s : State) (c : Check) : Bool :=
  c.kind == .wake || !s.lpddr || s.hm.trained || ((s.dom 39).power != .on && (s.dom 40).power != .on)

/-- An injection into this instance can end now: the check covers it, or its block did not come on (RESPONSE 8), and its phase follows
the one before it (R287). Item 1 comes before the clocks, every other item with the domains up. -/
def State.scRuns (s : State) (c : Check) (f : ScFail) : Bool :=
  decide (phaseRank (s.fld 0 F.HM_SC_STAT_PHASE 0) ≤ phaseRank (scPhase f.item))
    && (if f.item = 1 then !c.begun else s.domsUp)
    && (s.scCovers c.kind f || (f.resp == 8 && scExists f && s.domStuck (domainOf (scSlot f))))

/-- The phase has to wait for memory training: W4 follows W3 and training (F7, Table 8-3). -/
def State.phaseWaits (s : State) (c : Check) (phase : Nat) : Bool := decide (phaseRank 3 < phaseRank phase) && !s.trainingOver c

/-- The slot and the fault groups that an item's injections record (Tables 8-1, 2-4, 3-5, 15-5 and 16-1). -/
def scRecords (f : ScFail) : Nat × Nat :=
  match f.item with
  | 2 => (0, 3) | 3 => (0x13, 1) | 4 => (scSlot f, 0x30) | 5 => (scSlot f, 0xC) | 6 => (0x0C, 0xC)
  | 8 => (scSlot f, 0xC) | 10 => (0x12, 7) | _ => (scSlot f, 0)

/-- The pair that item 4 numbers. -/
def pairNo (i : Nat) : PairUnit := if i = 32 then .wharfinger else if i = 33 then .dredger else .berth (Fin.ofNat 32 i)

/-- What a comparator that responds alone leaves to be seen from its response window to the end of the injection (R290): its fault bits
and its capture. The bits that were not set before are those to be cleared. -/
def State.scShow (s : State) (f : ScFail) : State :=
  let comp := f.resp - 1
  let buses := if f.sub = 7 then 0x3F else if f.sub ≤ 6 then 2 ^ (f.sub - 1) else 0
  let show' (t : State) : State :=
    let r := scRecords f
    let t1 := t.setFld r.1 F.BLK_FAULT_BITS 0 (t.faults r.1 ||| r.2)
    { t1 with hm := { t1.hm with check := t1.hm.check.map fun c => { c with shown := [(r.1, r.2 - (r.2 &&& t.faults r.1))] } } }
  if f.resp ≠ 2 ∧ f.resp ≠ 3 then s
  else if f.item = 2 then show' (s.captureHm buses comp)
  else if f.item = 4 then show' (s.captureMism (pairNo f.inst) buses comp 1)
  else s

/-- The injection that was shown last has ended: its bits and its captures are cleared (R290). -/
def State.scHide (s : State) : State :=
  match s.hm.check with
  | none => s
  | some c =>
    let t := c.shown.foldl (fun (t : State) x =>
      (t.setFld x.1 F.BLK_FAULT_BITS 0 (t.faults x.1 - (t.faults x.1 &&& x.2))).clearCaptures x.1 0x30) s
    { t with hm := { t.hm with check := some { c with shown := [] } } }

/-- Item 1 has ended: the reference and the board's supplies are started (F3, R688). -/
def State.itemOneDone (s : State) : State := { s.refOn with hm := { s.hm with xoAt := some (s.after s.xoWait) } }

/-- An injection ends: its captures are cleared with it, and its failure is recorded. The first injection of W4 or later finds whether
item 7 could be run (R308). -/
def State.scWindow (s : State) (f : ScFail) : State :=
  let p := s.fld 0 F.HM_SC_STAT_PHASE 0
  let s1 := (s.scHide.setFld 0 F.HM_SC_STAT_PHASE 0 (scPhase f.item)).scBegin
  let s2 := s1.clearCaptures (scRecords f).1 (scRecords f).2
  let s3 := if s.log.degraded && decide (phaseRank p < phaseRank 4) && decide (phaseRank 4 ≤ phaseRank (scPhase f.item))
    then s2.scBit ⟨7, 0, 0, 0⟩ true else s2
  let s4 := if f.item = 1 ∧ s.hm.xoAt.isSome then s3.itemOneDone else s3
  if f.resp = 0 then s4 else (s4.scShow f).scFail f

def execScInjectionWindow (f : ScFail) (s : State) : Out :=
  match s.hm.check with
  | none => nothing s
  | some c =>
    if s.dev ≠ .startCheck ∨ s.scRuns c f = false then nothing s
    else if s.phaseWaits c (scPhase f.item) then .next (s.setFld 0 F.HM_SC_STAT_PHASE 0 11)
    else .next (s.scWindow f)

/-- BOOT after POR: one more than in the chosen mirror copy, 0 when no copy is valid (R585). -/
def State.bootCount (s : State) : BitVec 16 :=
  match nvChoose (s.mirrorSeq (s.mirrorAt false)) (s.mirrorSeq (s.mirrorAt true)) with
  | none => 0
  | some b => BitVec.ofNat 16 (leNat (s.flashBytes 0 (s.mirrorAt b + 0x1008) 2) + 1)

/-- The report's registers are cleared (R298). HM_SC_CORE keeps "item 1 failed at the last full check" through a wake check. -/
def State.scClear (s : State) (kind : ScKind) : State :=
  let keep := if kind = .full then 0 else s.fld 0 F.HM_SC_CORE_HM_BIST 0
  ((((s.setReg 0 .HM_SC_CORE 0 (BitVec.ofNat 64 keep)).setReg 0 .HM_SC_BERTH 0 0).setReg 0 .HM_SC_LH 0 0).setReg 0 .HM_SC_GRACE 0 0)

/-- A check begins (R287, R298): the full check at once, a wake check once its domains are on. Item 1 of a full check ends with its
injection window; until one is presented it counts as ended at once. The capture of item 2, which every check runs, is cleared
(R290). -/
def State.checkBegin (s : State) : State :=
  if s.hm.wakeCheck then
    let s1 := ((s.scClear .wake).clearReg 0 .HM_MISM 0).setFld 0 F.HM_SC_STAT_PHASE 0 1
    let s2 := if s.log.degraded then s1.scBit ⟨7, 0, 0, 0⟩ true else s1     -- R308
    ({ s2 with hm := { s2.hm with check := some { kind := .wake, start := s.clk.now } } }).scBegin
  else
    let s1 := (s.scClear .full).setFld 0 F.HM_SC_STAT_PHASE 0 10
    let s2 := { s1.itemOneDone with hm := { s1.itemOneDone.hm with check := some { kind := .full, start := 0 } }
                                    log := { s1.log with boot := s.bootCount } }
    if s.pins.factory then s2.logEntry 0 0xFF 0x005B 0 else s2     -- R607

def execStartCheck (s : State) : Out :=
  when (s.dev == .startCheck && s.hm.check.isNone && (!s.hm.wakeCheck || (s.hm.xoAt.isNone && s.hm.pllStart == [] && s.domsUp))) s
    s.checkBegin

/-! ## The Basin at the end of a check (R77, R78, R727) -/

/-- Zeroes the banks that are not kept and scrubs the others. Of several uncorrectable words BASIN_ERR latches the one at the lowest
offset (log entry 119, DESIGN CHOICE). -/
def State.basinPrepare (s : State) (keep : Nat → Bool) : State :=
  let z := (List.range 16).foldl (fun (t : State) b =>
    if keep b then t else t.wipe (basinBase + b * 0x100000) (basinBase + (b + 1) * 0x100000)) s
  let bad := z.ecc.filter fun k => decide (basinBase ≤ k.1 / 2) && decide (k.1 / 2 < basinBase + 0x1000000)
  let ce := bad.filter fun k => k.2 == 1
  let ue := bad.filter fun k => k.2 == 2
  let banks := maskOf (ue.map fun k => (k.1 / 2 - basinBase) / 0x100000) fun _ => true
  let z1 := ce.foldl (fun (t : State) k => (t.setEcc (k.1 / 2) 0 0).count 0x0C F.BASIN_ECC_CE_CNT 0 1) z
  let had := z1.fld 0x0C F.BASIN_ERR_VALID 0
  let z2 := ue.foldl (fun (t : State) k => (t.latchUe (.basin 0) (k.1 / 2) 0).count 0x0C F.BASIN_ECC_UE_CNT 0 1) z1
  let z3 := (z2.setFld 0x0C F.BASIN_ERR_RET_BANKS 0 banks).setFld 0x0C F.BASIN_ECC_SCRUB_DONE 0 1
  { z3 with hm := { z3.hm with retPend := banks, cePend := ce != [], scrubbed := true,
                               retLatched := z3.hm.retLatched || (had == 0 && ue != []) } }

/-- The pending faults of a scrub are recorded with the chart's reaction (R77, R78). -/
def State.reportScrub (s : State) : State :=
  let s1 := (s.recordIf s.hm.cePend 0x0C 2).recordIf (s.hm.retPend != 0) 0x0C 4
  { s1 with hm := { s1.hm with cePend := false, retPend := 0 } }

/-- The Basin is prepared for the event that started the check. -/
def State.basinAtEnd (s : State) : State :=
  if (s.dom 43).power ≠ .on then s
  else if !s.hm.wakeCheck then s.basinPrepare fun _ => false
  else if s.hm.afterWarm then s.basinPrepare fun _ => true
  else s.basinPrepare fun b => nbit (s.fld 0x0C F.BASIN_RET_RETAIN 0) b

/-! ## The resource report (R205, Table 6-8) -/

/-- Core clock in MHz and power limit in 0.1 W of the grade (Table 0-2). -/
def gradeClock : Nat := if Config.grade = 0 then 1000 else 1500
def gradePower : Nat := if Config.grade = 0 then 90 else 480

/-- The report names a block: it is AVAILABLE, on with its start-check items passed (R205, R295). -/
def State.reported (s : State) (d : Nat) : Bool := s.serves d

/-- The 32 bytes of the report (Table 6-8). -/
def State.report (s : State) : List Byte :=
  let berths := maskOf (List.range 32) s.reported
  let blocks := b2n (s.reported 32) + b2n (s.reported 33) * 2 + b2n (s.reported 41) * 4 + b2n (s.reported 38) * 8
    + b2n (s.reported 39) * 16 + b2n (s.reported 40) * 32
  let links := maskOf (List.range 4) fun q => s.qstate q == 7
  let b := leBytes 4 berths ++ leBytes 2 blocks ++ leBytes 1 links ++ leBytes 1 Config.grade.val ++ leBytes 2 gradeClock
    ++ leBytes 2 gradePower ++ leBytes 2 (s.usableTop / 0x4000000) ++ leBytes 1 s.chip ++ leBytes 1 1 ++ leBytes 8 s.tide.toNat
  b ++ leBytes 4 (crc32c b) ++ [0, 0, 0, 0]

/-- The Pilot writes its report to PILOT_RES and to its mailbox in the Basin (R205, R212). -/
def State.writeReport (s : State) : State :=
  let b := s.report
  let s1 := (List.range 4).foldl (fun (t : State) i => t.setReg 1 .PILOT_RES i (BitVec.ofNat 64 (leNat ((b.drop (8 * i)).take 8)))) s
  (s1.writeAt .pilot (.basin 0xFFFFC0) b).s

/-! ## The end of a check (R294 to R299, Table 7-2) -/

/-- Table 8-4's consequences for the blocks: failed ones are excluded and go off through the drain protocol (R251, R294), the others
are available. -/
def State.scOutcome (s : State) (failed : List ScFail) : State :=
  let out := failed.filterMap scExcluded
  (List.range 44).foldl (fun (t : State) d =>
    if out.contains d then (t.setDom d { t.dom d with selfTest := false, excluded := true }).drainOut d
    else if (t.dom d).power = .on then t.setDom d { t.dom d with selfTest := false, excluded := false } else t) s

/-- The central failures that stand after a check: those of the check, and the earlier ones whose item it did not run (R296). -/
def State.centralAfter (s : State) (kind : ScKind) (failed : List ScFail) : List (Nat × Nat) :=
  (s.hm.central.filter fun x => !s.scCovers kind ⟨x.1, x.2, 0, 0⟩) ++ ((failed.filter scCentral).map fun f => (f.item, f.inst)).eraseDups

/-- The Pilot records CHART_BAD (reasons 1 to 10) or CHART_APPLY (16 to 18) with its reason (Tables 6-11 and 6-15). -/
def State.chartFail (s : State) (reason : Nat) : State :=
  let st := if reason < 16 then 7 else 3
  ((s.setFld 1 F.PILOT_STAT_REASON 0 reason).setFld 1 F.PILOT_STAT_LAST_STATUS 0 st).record 1 (if reason < 16 then 1 else 3)

/-- After the reset that a failed load caused, its reason is recorded (R216). -/
def State.recordFailed (s : State) : State :=
  match s.pilot.failed with
  | some r => { s with pilot := { s.pilot with failed := none } }.chartFail r
  | none => s

/-- The chip's position lies outside the board domain (R246). -/
def State.strapBad (s : State) : Bool := decide (s.side ≤ s.posX) || decide (s.side ≤ s.posY)

/-- The Pilot loads no chart: STRAP_BAD (R246), a central failure (R296), or a core PLL that has failed (R249). -/
def State.pilotBarred (s : State) : Bool := s.strapBad || s.hm.central != [] || s.pllFailed 0

/-- The Safe cause at the end of a check, 0 for Idle. -/
def State.endCause (s : State) (full : Bool) : Nat :=
  if s.hm.central ≠ [] then 15
  else if full ∧ s.strapBad then 9
  else if !full ∧ s.fld 0 F.HM_BOOTREC_MODE 0 = 3 then 16
  else if s.hm.safeDue then s.hm.safeCause
  else if s.anyLine then (if s.estopLine then 7 else 6)
  else 0

/-- The load that follows a check (R223, R228, R246, R249, R296). A PILOT_BOOT that was accepted during the check is that load (R219). -/
def State.loadDue (s : State) : Nat :=
  if s.pilotBarred then 0
  else if s.pilot.due = 3 then 3
  else if s.fld 0 F.HM_BOOTREC_MODE 0 = 3 then 0
  else if s.hm.wakeCheck ∧ s.hm.afterWarm = false then 2 else 1

/-- The report of a check is written, and the Q32 goes to Idle or Safe. -/
def State.checkDone (s : State) (c : Check) : State :=
  let full := decide (c.kind = .full)
  let s1 := s.basinAtEnd
  let dur := min 0xFFFF ((s.clk.now - c.start) / 1000)
  let fails := min 255 c.fails
  let ok := b2n (c.fails == 0)
  let s2 := (s1.setReg 0 .HM_SC_STAT 0 (BitVec.ofNat 64 (ok + kindCode c.kind * 2 + fails * 2 ^ 24 + dur * 2 ^ 32))).logEntry 0 0xFF 0x0012
    (ok + kindCode c.kind * 2 + fails * 2 ^ 8 + dur * 2 ^ 16)
  let s3 := s2.scOutcome c.failed
  let s4 := { s3 with hm := { s3.hm with check := none, central := s2.centralAfter c.kind c.failed } }
  let s5 : State := { s4 with pilot := { due := s4.loadDue, failed := s4.pilot.failed, bootUsed := s4.pilot.bootUsed } }
  let s6 := s5.writeReport.recordFailed
  let cause := s6.endCause full
  if cause ≠ 0 then s6.enterSafe cause else (s6.setDev .idle 4).settle 6

/-- The last injection has ended, the items of blocks that did not come on fail with RESPONSE 8 (Table 8-6), and item 7 was not run when
logging had moved to the spare log before W4 (R308). -/
def State.scClose (s : State) : State :=
  let s1 := s.scBegin.scHide
  let s2 := if s.log.degraded && decide (phaseRank (s.fld 0 F.HM_SC_STAT_PHASE 0) < phaseRank 4) then s1.scBit ⟨7, 0, 0, 0⟩ true else s1
  (List.range 44).foldl (fun (t : State) d =>
    match t.hm.check, (domItems d).head? with
    | some c, some f =>
      if t.domStuck d && !(c.failed.any fun x => domainOf (scSlot x) == d) then t.scFail { f with sub := 1, resp := 8 } else t
    | _, _ => t) s2

/-- W8 and W9: the Basin is prepared and the report written (Table 8-2). -/
def State.scReport (s : State) : State :=
  match s.scClose.hm.check with
  | some c => s.scClose.checkDone c
  | none => s

def execStartCheckDone (s : State) : Out :=
  match s.hm.check with
  | none => nothing s
  | some c =>
    if s.dev ≠ .startCheck ∨ s.domsUp = false then nothing s
    else if s.trainingOver c then .next s.scReport
    else .next (s.setFld 0 F.HM_SC_STAT_PHASE 0 11)

/-! ## Memory training (R67, R68, R72) -/

/-- Bytes that a channel's capacity code names. -/
def capBytes (c : Nat) : Nat := if c = 0 ∨ 4 < c then 0 else 2 ^ (30 + c)

/-- The measured capacity is taken: channel 0 alone, or both channels alike (R67). -/
def State.trainDone (s : State) (c0 c1 : Nat) : State :=
  let top := (capBytes c0 + capBytes c1) / 8 * 7 / 256
  let put (t : State) (sl c : Nat) : State := (t.setFld sl F.MC_CFG_CAP 0 c).setFld sl F.MC_CFG_USABLE_TOP 0 top
  let s1 := put (put s 0x0A c0) 0x0B c1
  { s1 with hm := { s1.hm with trained := true } }

/-- Training ends in the full check, with its controllers on. -/
def execMemoryTrainingDone (cap0 cap1 : BitVec 3) (s : State) : Out :=
  let fitted := decide (cap0.toNat ≤ 4) && (cap1 == 0 || cap1 == cap0)
  when (s.dev == .startCheck && !s.hm.wakeCheck && !s.hm.trained && (s.dom 39).power == .on && fitted) s
    (s.trainDone cap0.toNat cap1.toNat)

/-! ## Domain items (R108, R256, R299, R727) -/

/-- A failure that the domain's items can have. Item 11 skips a slot whose timer runs for a genuine fault (R721). -/
def State.domFails (s : State) (d : Nat) (l : List ScFail) : List ScFail :=
  l.filter fun f => scExists f && f.resp != 0 && domainOf (scSlot f) == d && ((domItems d).any fun i => i.item == f.item)
    && !(f.item == 11 && s.graceBusy f.inst)

/-- The entries, bits and SC_FAIL of domain items that failed. They run within the step in which the domain comes on, so that the time
they take, DURATION, is open. -/
def State.domReport (s : State) (d : Nat) (fails : List ScFail) : State :=
  let f := s.freeVal
  let s1 := f.2.logEntry 0 0xFF 0x0010 (2 + d * 2 ^ 32)
  let s2 := (fails.take 16).foldl (fun t f => t.logEntry 0 0xFF 0x0011 (scDetail f)) s1
  let s3 := fails.foldl (fun t f => t.scBit f true) s2
  (s3.logEntry 0 0xFF 0x0012 (4 + min 255 fails.length * 2 ^ 8 + f.1.toNat % 65536 * 2 ^ 16)).record 0 9

/-- A central failure of domain items (R296): the Q32 enters Safe, at once or, in Service or sleep entry, as for an input line. -/
def State.domCentral (s : State) : State :=
  match s.dev with
  | .idle => s.enterSafe 15
  | .run => s.enterSafe 15
  | .service =>
    let s1 := s.setFld 0 F.HM_SAFE_STAT_PENDING 0 1
    { s1 with hm := { s1.hm with safeCause := if s.fld 0 F.HM_SAFE_STAT_PENDING 0 = 1 then s.hm.safeCause else 15 } }
  | .entering => s.safeAtEnd 15
  | _ => s

/-- The block's items end: it is available when all passed; one that failed is excluded and goes off through the drain protocol. A
central failure excludes no block and stands until a later check passes the item (R294, R296). -/
def State.domainItems (s : State) (d : Nat) (fails : List ScFail) : State :=
  let s1 := (domItems d).foldl (fun t f => t.scBit f false) s
  let central := (s1.hm.central.filter fun x => !(domainOf (scSlot ⟨x.1, x.2, 0, 0⟩) == d && s1.scCovers .wake ⟨x.1, x.2, 0, 0⟩))
    ++ ((fails.filter scCentral).map fun f => (f.item, f.inst)).eraseDups
  let s2 : State := { s1 with hm := { s1.hm with central := central } }
  if fails.any fun f => scExcluded f == some d then
    let s3 := s2.domReport d fails
    (s3.setDom d { s3.dom d with selfTest := false, excluded := true }).drainOut d
  else
    let s3 := s2.setDom d { s2.dom d with faulted := false, excluded := false, selfTest := false }
    let s4 := if fails = [] then s3 else (s3.domReport d fails).domCentral
    if d = 43 then
      let s5 := s4.basinPrepare fun b => nbit (s.fld 0x0C F.BASIN_RET_RETAIN 0) b
      if s.chartOn then s5.reportScrub else s5
    else s4

/-- A ramp completes (R252): in Start-check the block is tested with the others, otherwise its own items run. A member Berth of the
running chart that is available again starts its sequencer (R121, R171). -/
def State.domainOn (s : State) (d : Nat) (fails : List ScFail) : State :=
  let s0 := s.setDom d { s.dom d with power := .on, selfTest := s.dev == .startCheck && tested d }
  let s1 : State := if d = 42 then { s0 with host := { s0.host with spi := none, i3c := none } } else if d = 41 then s0.voidClaims else s0
  if s.dev = .startCheck then s1
  else
    let s2 := s1.domainItems d (s1.domFails d fails)
    if d < 32 && s.chartOn && s.dev != .service && s2.serves d && s2.fld (bslot d) F.BERTH_CFG_MEMBER 0 == 1 then s2.seqStart d else s2

end Sys2Proof.Machine
end

