-- ==== Sys2Proof/Machine/Person.lean ====
section
/-! DEFINITION. The person at the device: filtered inputs, presence, seal, e-stop and touch (17_person_presence.md), the AO tick and
the rise of POR_N (07_sleep_wake_clocks_straps.md R243, R267, R712).
Log entries: 3 DEDUCED, 59 DEDUCED, 60 DEDUCED, 65 DEDUCED, 66 DESIGN CHOICE, 67 DEDUCED, 68 DEDUCED, 138 DEDUCED. -/

namespace Sys2Proof.Machine

def State.input (s : State) (i : Nat) : Input := Tab.get {} s.person.inputs i
def State.setInput (s : State) (i : Nat) (x : Input) : State :=
  { s with person := { s.person with inputs := Tab.set {} s.person.inputs i x } }

/-- The device counts AO ticks: it is not Off. -/
def State.alive (s : State) : Bool := s.dev != .off

/-! ## The AO tick -/

/-- The field of IN_CNT that counts an input's chatter events. -/
def inCnt (i : Nat) : Fld :=
  match i with
  | 0 => F.IN_CNT_CNT0 | 1 => F.IN_CNT_CNT1 | 2 => F.IN_CNT_CNT2 | 3 => F.IN_CNT_CNT3 | _ => F.IN_CNT_CNT4

/-- The active level of a raw sample: WAKE[w] by its polarity (R598), SERVICE_N low. -/
def State.activeRaw (s : State) (raw i : Nat) : Bool :=
  if i < 4 then nbit raw i == nbit (s.fld 0 F.WAKE_POL_POL 0) i else !nbit raw 4

/-- An input is sampled (R596, R597): the filter counts differing ticks, and a change that reverts before the 66th is a chatter
event, which begins or prolongs a chatter run. -/
def State.sample (s : State) (raw i : Nat) : State :=
  let a := s.activeRaw raw i
  let x := s.input i
  let y := { x with raw := a, still := if a = x.raw then x.still + 1 else 1 }
  if a ≠ x.filt then s.setInput i { y with diff := x.diff + 1 }
  else if 0 < x.diff ∧ x.diff < 66 then
    (s.count 0 (inCnt i) 0 1).setInput i { y with diff := 0, run := some (x.run.getD s.clk.ticks) }
  else s.setInput i { y with diff := 0 }

/-- The e-stop channels as sampled (R611): while they still differ after 1,639 ticks ESTOP_DISC is recorded again. -/
def State.sampleEstop (s : State) : State :=
  let p := s.person
  if p.aLow = p.bLow then ({ s with person := { p with discTicks := 0 } }).setFld 0 F.ESTOP_STAT_DISC 0 0
  else { s with person := { p with discTicks := p.discTicks + 1 } }.recordIf (s.fld 0 F.ESTOP_STAT_DISC 0 == 1) 0 11

/-- The keeping counter's step on tick `n` (R267). -/
def State.keepStep (s : State) (n : Nat) : Nat :=
  if nbit s.strap 11 then 30500 else 30517 + (if 37 * n / 64 < 37 * (n + 1) / 64 then 1 else 0)

/-- The tide is kept by the AO tick: in Sleep, and in Start-check until the mesh PLL runs or has failed (R249, R267). -/
def State.keeping (s : State) : Bool :=
  !s.clk.running && (s.dev == .sleep || (s.dev == .startCheck && !s.pllFailed 1))

/-- An AO tick: the keeping counter advances and the inputs are sampled. -/
def State.aoTick (s : State) (raw : Nat) : State :=
  let n := s.clk.ticks
  let tide := if s.keeping then s.tide + BitVec.ofNat 64 (s.keepStep n) else s.tide
  let s1 := { s with clk := { s.clk with ticks := n + 1, tide := tide }
                     person := { s.person with svcHigh := if nbit raw 4 then s.person.svcHigh + 1 else 0 } }
  ((List.range 5).foldl (fun (t : State) i => t.sample raw i) s1).sampleEstop

def execAoTick (raw : BitVec 5) (s : State) : Out := when s.alive s (s.aoTick raw.toNat)

/-- The tide alarm is compared once per tick, in Sleep and on the way into and out of it (R264). -/
def execTideAlarm (s : State) : Out :=
  when ((s.dev == .sleep || s.dev == .entering || s.dev == .startCheck) && decide ((s.reg 2 .TIDE_ALARM 0).toNat ≤ s.tide.toNat)) s
    (s.wakeSource 1)

/-- The AO tick moves to the crystal once it has given 1,024 good cycles (R712). -/
def execXtalSwitch (s : State) : Out :=
  when (s.alive && !nbit s.strap 11 && !s.clk.xtal && decide (s.clk.now < 2000000000)) s { s with clk := { s.clk with xtal := true } }

/-- 2 s after POR_N rising the crystal is given up, and CLK_MON is recorded for the RC's check (R537, R712). -/
def execXtalStartTimeout (s : State) : Out :=
  when (s.alive && !nbit s.strap 11 && !s.clk.xtal && decide (2000000000 ≤ s.clk.now)) s (s.clkMon 5 0)

/-! ## Presence (R600 to R609) -/

/-- The window closes (R603): in Service the Q32 leaves it (R604), and debug access ends (R609). -/
def State.closeWindow (s : State) (cause : Nat) : State :=
  let s1 := { s with person := { s.person with winEnd := none } }.logEntry 0 0xFF 0x0059 cause
  let s2 := if s.pins.factory then s1 else s1.setFld 0x10 F.HOST_DBG_EN 0 0
  if s.dev = .service then s2.warmReset 12 else s2

/-- WIN_S as applied (R603). -/
def State.winS (s : State) : Nat :=
  let w := s.fld 0 F.PRES_CFG_WIN_S 0
  if 60 ≤ w ∧ w ≤ 3600 then w else 600

/-- The window opens. -/
def State.openWindow (s : State) : State :=
  let s1 := s.count 0 F.PRES_STAT_OPENED 0 1
  { s1 with person := { s1.person with winEnd := some (s.clk.ticks + s.winS * 32768) } }.logEntry 0 0xFF 0x0058 s.winS

/-- Milliseconds of a number of ticks, rounded to nearest. -/
def ticksMs (d : Nat) : Nat := min ((d * 1000 + 16384) / 32768) 0xFFFFFFFF

/-- A press of `d` ticks ends (R600, R602, R618). -/
def State.judge (s : State) (d : Nat) : State :=
  let ignored (r : Nat) := s.logEntry 0 0xFF 0x005A (ticksMs d + r * 2 ^ 32)
  if d < 65536 then ignored 1
  else if 327680 < d then ignored 2
  else
    match s.person.winEnd with
    | some t => if t ≤ s.clk.ticks then { s with person := { s.person with expired := some s.clk.ticks } }.closeWindow 1
                else s.closeWindow 2
    | none =>
      if s.person.expired = some s.clk.ticks then s
      else if !s.person.sealOpen || s.pins.factory then s.openWindow
      else ignored 3

/-- SERVICE_N is ignored (R599, R601). -/
def State.svcIgnored (s : State) : Bool := (s.input 4).stuck || s.person.svcStart

/-- The filtered level of an input changes (R596, R598, R600). -/
def State.filterChange (s : State) (i : Nat) : State :=
  let x := s.input i
  let s1 := s.setInput i { x with filt := !x.filt, diff := 0, since := s.clk.ticks }
  if i < 4 then
    if !x.filt then (if x.stuck then s1 else s1.wakeSource (2 ^ (9 + i)))
    else if x.stuck then (s1.setInput i { s1.input i with stuck := false }).logEntry 0 0xFF 0x0062 i
    else s1
  else if !x.filt then
    if s.svcIgnored then { s1 with person := { s1.person with pressVoid := true } }
    else { s1 with person := { s1.person with pressVoid := false } }.wakeSource (2 ^ 14)
  else if s.svcIgnored || s.person.pressVoid then s1
  else s1.judge (s.clk.ticks - x.since)

def execInputFilterChange (i : Fin 5) (s : State) : Out :=
  when (s.alive && decide (66 ≤ (s.input i).diff) && !(s.input i).chatter) s (s.filterChange i)

/-- A chatter run has lasted 32,768 ticks (R597). -/
def execChatter (i : Fin 5) (s : State) : Out :=
  match (s.input i).run with
  | some t => when (s.alive && !(s.input i).chatter && decide ((s.input i).still < 66) && decide (t + 32768 ≤ s.clk.ticks)) s
      (((s.setInput i { s.input i with chatter := true }).record 0 13).logEntry 0 0xFF 0x0061 i)
  | none => nothing s

/-- A chatter run ends: the raw level has stayed unchanged for 66 ticks (R597). -/
def State.runEnd (s : State) (i : Nat) : State :=
  let x := s.input i
  let s1 := s.setInput i { x with run := none, chatter := false }
  if x.chatter then
    let s2 := s1.logEntry 0 0xFF 0x0062 (i + 0x100)
    if x.raw ≠ x.filt then s2.filterChange i else s2
  else s1

def execChatterRunEnd (i : Fin 5) (s : State) : Out :=
  when (s.alive && (s.input i).run.isSome && decide (66 ≤ (s.input i).still)) s (s.runEnd i)

/-- The stuck limit of WAKE[w] in ticks. -/
def State.stuckLimit (s : State) (w : Nat) : Nat := bitsOf (s.reg 0 .WAKE_STUCK 0) (16 * w + 15) (16 * w) * 32768

/-- WAKE[w] has been active beyond its limit (R598). -/
def execWakeStuck (w : Fin 4) (s : State) : Out :=
  let x := s.input w
  when (s.alive && x.filt && !x.stuck && s.stuckLimit w != 0 && decide (x.since + s.stuckLimit w < s.clk.ticks)) s
    (((s.setInput w { x with stuck := true }).record 0 12).logEntry 0 0xFF 0x0060 w)

/-- A press reaches 983,041 ticks (R601, R618). -/
def execServiceStuck (s : State) : Out :=
  let x := s.input 4
  when (s.alive && x.filt && !s.svcIgnored && !s.person.pressVoid && decide (x.since + 983041 ≤ s.clk.ticks)) s
    (({ s.setInput 4 { x with stuck := true } with person := { (s.setInput 4 { x with stuck := true }).person with pressVoid := true } }.record 0 12).logEntry
      0 0xFF 0x0060 4)

/-- SERVICE_N has been high for 32,768 ticks (R599, R601). -/
def State.svcRelease (s : State) : State :=
  let s1 := s.setInput 4 { s.input 4 with stuck := false }
  let s2 := { s1 with person := { s1.person with svcStart := false } }
  if s.person.svcStart then s2 else s2.logEntry 0 0xFF 0x0062 4

def execServiceStuckRelease (s : State) : Out :=
  when (s.alive && s.svcIgnored && decide (32768 ≤ s.person.svcHigh)) s s.svcRelease

def execPresenceWindowExpiry (s : State) : Out :=
  match s.person.winEnd with
  | some t => when (s.alive && decide (t ≤ s.clk.ticks)) s
      ({ s with person := { s.person with expired := some s.clk.ticks } }.closeWindow 1)
  | none => nothing s

/-! ## The seal (R606) -/

/-- The level that SEAL_OUT drove in the half period that ends at the present tick. -/
def State.sealOut (s : State) : Bool := Config.sealStart != nbit (s.clk.ticks / 8 - 1) 0

/-- The seal opens. -/
def State.sealOpens (s : State) : State :=
  let s1 := { s with person := { s.person with sealOpen := true, sealT := s.tide } }
  let s2 := (s1.record 0 15).logEntry 0 0xFF 0x0070 0
  if s.person.winEnd.isSome then s2.closeWindow 3 else s2

/-- The seal is intact again; its start after POR appends nothing. -/
def State.sealCloses (s : State) : State :=
  let s1 := { s with person := { s.person with sealOpen := false, sealStart := false } }
  if s.person.sealStart then s1 else s1.logEntry 0 0xFF 0x0071 s.person.sealT.toNat

/-- SEAL_IN is sampled. -/
def State.sealSample (s : State) (level : Bool) : State :=
  let p := s.person
  if level = s.sealOut then
    let s1 := { s with person := { p with sealAt := s.clk.ticks, sealGood := p.sealGood + 1, sealLast := p.sealLast && p.sealGood == 0 } }
    if p.sealOpen && decide (4 ≤ p.sealGood + 1) then s1.sealCloses else s1
  else
    let s1 := { s with person := { p with sealAt := s.clk.ticks, sealGood := 0, sealLast := true } }
    if p.sealLast && !p.sealOpen then s1.sealOpens else s1

def execSealSample (level : Bool) (s : State) : Out :=
  when (s.alive && decide (s.clk.ticks % 8 = 0) && decide (s.person.sealAt < s.clk.ticks)) s (s.sealSample level)

/-! ## The e-stop (R610 to R613) -/

/-- A recognised low on a channel. -/
def State.estopFall (s : State) (ch : Nat) : State :=
  let p := s.person
  let q := { p with aLow := p.aLow || ch == 0, bLow := p.bLow || ch == 1, stableAt := none, stableLog := true }
  let s1 := { s with person := q, hm := { s.hm with estopAtSafe := s.hm.estopAtSafe || s.dev == DevState.safe } }
  let s2 := ((s1.count 0 F.ESTOP_STAT_EVENTS 0 1).setFld 0 F.ESTOP_STAT_STABLE 0 0).setReg 0 .ESTOP_T 0 s.tide
  let s3 := (s2.markOut s).recordAs 0 10 7
  ((s3.logEntry 0 0xFF 0x0050 (b2n q.aLow + 2 * b2n q.bLow)).wakeSource (2 ^ 13)).wakeIfDue

/-- A low of 50 ns or more is recognised; whether a shorter one is, is open (R610). -/
def execEstopLow (ch : Fin 2) (lowNs : Nat) (s : State) : Out :=
  let low := if ch = 0 then s.person.aLow else s.person.bLow
  if !s.alive || low || lowNs == 0 then nothing s
  else if 50 ≤ lowNs then .next (s.estopFall ch)
  else
    let f := s.freeVal
    if nbit f.1.toNat 0 then .next (f.2.estopFall ch) else .next f.2

/-- A channel rises; the stable time runs from the later rise, as the next tick samples it (R612). -/
def State.estopRise (s : State) (ch : Nat) : State :=
  let p := s.person
  let q := { p with aLow := p.aLow && ch != 0, bLow := p.bLow && ch != 1 }
  let q1 := if q.aLow || q.bLow then q else { q with stableAt := some (s.clk.ticks + 1), stableTide := s.tide }
  { s with person := q1 }.markOut s

def execEstopRise (ch : Fin 2) (s : State) : Out :=
  when (s.alive && (if ch = 0 then s.person.aLow else s.person.bLow)) s (s.estopRise ch)

/-- The channels have differed on 1,639 ticks (R611). -/
def execEstopDisc (s : State) : Out :=
  when (s.alive && decide (1639 ≤ s.person.discTicks) && s.fld 0 F.ESTOP_STAT_DISC 0 == 0) s
    (((s.setFld 0 F.ESTOP_STAT_DISC 0 1).record 0 11).logEntry 0 0xFF 0x0052 (b2n s.person.aLow))

/-- The stable time completes (R612, R618). -/
def execEstopStable (s : State) : Out :=
  match s.person.stableAt with
  | none => nothing s
  | some t =>
    if s.alive && decide (t + 1639 ≤ s.clk.ticks) && !s.estopLine then
      let s1 := { s with person := { s.person with stableAt := none, stableLog := false } }.setFld 0 F.ESTOP_STAT_STABLE 0 1
      .next (if s.person.stableLog then s1.logEntry 0 0xFF 0x0051 s.person.stableTide.toNat else s1)
    else nothing s

/-! ## Touch pads (R614 to R616) -/

def State.pad (s : State) (p : Nat) : Pad := Tab.get {} s.person.pads p
def State.setPad (s : State) (p : Nat) (x : Pad) : State :=
  { s with person := { s.person with pads := Tab.set {} s.person.pads p x } }

/-- BASE_RATE as applied. -/
def State.baseRate (s : State) : Nat := let r := s.fld 0 F.TOUCH_CFG_BASE_RATE 0; if r = 0 then 1 else r

/-- DELTA. -/
def Pad.delta (x : Pad) : Int := (x.raw.toNat : Int) - x.base.toNat

/-- BASELINE moves one count towards RAW. -/
def Pad.drift (x : Pad) (rate : Nat) : Pad :=
  if x.moved + 1 < rate then { x with moved := x.moved + 1 }
  else { x with moved := 0, base := if x.base.toNat < x.raw.toNat then x.base + 1 else if x.raw.toNat < x.base.toNat then x.base - 1 else x.base }

/-- A scan of a pad. -/
def Pad.scan (x : Pad) (raw : BitVec 16) (thresh rate : Nat) : Pad :=
  let y := { x with raw := raw }
  let d := y.delta
  let hi := if (thresh : Int) ≤ d then x.hi + 1 else 0
  let lo := if 2 * d < thresh then x.lo + 1 else 0
  let neg := if 2 * d ≤ -(thresh : Int) then x.neg + 1 else 0
  let z := { y with hi := hi, lo := lo, neg := neg }
  if x.touched then
    if 3 ≤ lo then { z with touched := false, held := 0, hi := 0, lo := 0 } else { z with held := x.held + 1 }
  else if 3 ≤ neg then { z with base := raw, stuck := false, neg := 0, moved := 0 }
  else if 3 ≤ hi && !x.stuck then { z with touched := true, held := 0, lo := 0 }
  else z.drift rate

/-- A pad is scanned; a new touch raises its wake source (Table 7-8). -/
def State.scanPad (s : State) (p : Nat) (raw : BitVec 16) : State :=
  let x := s.pad p
  let y := x.scan raw (s.fld 0 F.TOUCH_CFG_THRESH 0) s.baseRate
  let s1 := s.setPad p y
  if y.touched && !x.touched then s1.wakeSource (2 ^ (1 + p)) else s1

def execTouchScan (raw : List (BitVec 16)) (s : State) : Out :=
  when s.alive s ((List.range 8).foldl (fun (t : State) p =>
    if nbit (s.fld 0 F.TOUCH_CFG_EN 0) p then t.scanPad p (raw.getD p 0) else t) s)

/-- A pad has stayed touched for 3,000 scans (R616). -/
def State.touchStuck (s : State) (p : Nat) : State :=
  let x := s.pad p
  let s1 := s.setPad p { x with touched := false, stuck := true, base := x.raw, held := 0, hi := 0, lo := 0, neg := 0, moved := 0 }
  (s1.record 0 14).logEntry 0 0xFF 0x0068 (p + x.raw.toNat * 2 ^ 16)

def execTouchStuck (p : Fin 8) (s : State) : Out := when (s.alive && (s.pad p).touched && decide (3000 ≤ (s.pad p).held)) s (s.touchStuck p)

/-- IN_CNT.CLR. -/
def execInCntClr (s : State) : Out := when s.awake s (s.setReg 0 .IN_CNT 0 0)

/-! ## Registers of the chapter as they read (Table 17-6) -/

def State.presStat (s : State) : U64 :=
  let rem := match s.person.winEnd with
    | some t => min 0xFFF (cdiv (t - s.clk.ticks) 32768)
    | none => 0
  BitVec.ofNat 64 (b2n s.presence + b2n s.pins.factory * 2 + b2n (!s.person.sealOpen) * 4 + b2n s.svcIgnored * 8 + rem * 2 ^ 16
    + s.fld 0 F.PRES_STAT_OPENED 0 * 2 ^ 32)

def State.inStat (s : State) : U64 :=
  let filt := maskOf (List.range 5) fun i => (s.input i).filt
  let stuck := maskOf (List.range 5) fun i => if i = 4 then s.svcIgnored else (s.input i).stuck
  let chat := maskOf (List.range 5) fun i => (s.input i).chatter
  BitVec.ofNat 64 (filt + b2n (!s.person.aLow) * 32 + b2n (!s.person.bLow) * 64 + stuck * 2 ^ 8 + chat * 2 ^ 16)

def State.estopStat (s : State) : U64 :=
  BitVec.ofNat 64 ((s.reg 0 .ESTOP_STAT 0).toNat / 4 * 4 + b2n s.person.aLow + b2n s.person.bLow * 2)

def State.touchStat (s : State) : U64 :=
  BitVec.ofNat 64 (maskOf (List.range 8) (fun p => (s.pad p).touched) + maskOf (List.range 8) (fun p => (s.pad p).stuck) * 256)

def State.touchPad (s : State) (p : Nat) : U64 :=
  let x := s.pad p
  BitVec.ofNat 64 (x.raw.toNat + x.base.toNat * 2 ^ 16 + (x.raw - x.base).toNat * 2 ^ 32)

/-! ## POR_N, rails and SAFEPOL -/

/-- POR_N rises with the rails in range: straps and FACTORY_N are latched and Start-check is entered (R243, R246, R247, R607); a
channel that is low asserts the e-stop line (R610). `estopA` and `estopB` are the channels' levels. -/
def State.porRise (s : State) (gpio : BitVec 14) (factoryN estopA estopB : Bool) : State :=
  let s1 := { s with pins := { s.pins with porLow := false, factory := !factoryN } }
  let s2 := (s1.setReg 0 .HM_STRAP 0 (gpio.setWidth 64)).strapReact allSlots
  let p := { s.person with aLow := !estopA, bLow := !estopB, stableAt := if estopA && estopB then some 0 else none,
                           stableLog := !(estopA && estopB) }
  let s3 := { s2 with person := p }.setDev .startCheck 1
  let s4 := s3.recordIf s3.strapBad 0 2
  if p.aLow || p.bLow then s4.recordAs 0 10 7 else s4

def execPorNRise (gpio : BitVec 14) (factoryN estopA estopB : Bool) (s : State) : Out :=
  when (s.dev == .off && s.pins.porLow && s.pins.rails) s (s.porRise gpio factoryN estopA estopB)

/-- POR_N falls and resets the Q32 (Table 7-6, R284, R706): nothing is kept but the flash, in which a granted segment is cut off,
and the levels on the pins; PHY_EN and DDR_EN are low (R688). -/
def State.porFall (s : State) : State :=
  let s1 := match s.hm.granted with
    | some g => s.flashCut (g.lo / 2 ^ 32) (g.lo % 2 ^ 32) g.len
    | none => s
  { pending := s.pending, flash := s1.flash, fresh := s1.fresh
    pins := { s.pins with porLow := true, factory := false, fbAt := [], outAt := [], xoEn := false, phyEn := false, ddrEn := false,
                          ddrHold := false } }

/-- A low of 10 µs or more resets, one below 1 µs does not, and whether one in between does is open (R706). -/
def execPorNFall (lowNs : Nat) (s : State) : Out :=
  if lowNs < 1000 then nothing s
  else if 10000 ≤ lowNs then .next s.porFall
  else
    let f := s.freeVal
    if nbit f.1.toNat 0 then .next f.2.porFall else .next f.2

/-- VDD_AO and VDDIO_33 are in range: SAFE_OUT drives the safe level (R244, R695). -/
def execAoIoRailsInRange (s : State) : Out := .next { s with pins := { s.pins with rails := true } }

/-- The level on GPIO[10] while POR_N is low (R694). -/
def execSafepolPinChange (level : Bool) (s : State) : Out := when s.pins.porLow s { s with pins := { s.pins with safepol := level } }

end Sys2Proof.Machine
end

