-- ==== Sys2Proof/Machine/HmWrite.lean ====
section
/-! DEFINITION. What register writes of the Harbourmaster, of the tide clock and of every slot's BLK_PWR and BLK_INJ do
(07_sleep_wake_clocks_straps.md, 08_start_check.md R303 to R305 and R725, 19_register_map.md R671 and R672).
Log entries: 47 DEDUCED, 52 DEDUCED, 54 DEDUCED, 113 DEDUCED, 116 DEDUCED. -/

namespace Sys2Proof.Machine

/-! ## BLK_PWR (R671, R672, R677) -/

/-- Requests a domain reset: while no chart runs, or of a faulted block (R672). -/
def State.pwrReset (s : State) (slot : Nat) : State :=
  let d := domainOf slot
  if !s.chartOn || (s.dom d).faulted then s.drainReq d true else s.lockedWrite slot 0x40

/-- Switches a domain on; while it drains, the switch-on follows the drain (R283). -/
def State.pwrOn (s : State) (d : Nat) : State :=
  if (s.dom d).draining then s.setDom d { s.dom d with thenOn := true } else s.switchOn [d]

/-- Applies ON, which is RWL (R109, R671). -/
def State.pwrSet (s : State) (who : Requester) (slot : Nat) (on : Bool) : State :=
  let d := domainOf slot
  if s.wanted d = on then s
  else if !s.mayRwl who slot then s.lockedWrite slot 0x40
  else if on then s.pwrOn d else s.drainReq d false

/-- BLK_PWR accepts a write: the slot's block lies in a switched domain, and no start check runs (R300, R671). -/
def State.pwrTakes (s : State) (slot : Nat) : Bool := s.awake && s.dev != .startCheck && domainOf slot != 0xFF

/-- A write of BLK_PWR. A refused RESET and a refused ON of one write append one entry. -/
def State.pwrWrite (s : State) (who : Requester) (slot : Nat) (v : U64) : State :=
  if !s.pwrTakes slot then s
  else
    let refused : Bool := nbit v.toNat 1 && s.chartOn && !(s.dom (domainOf slot)).faulted
    let s1 := if nbit v.toNat 1 then s.pwrReset slot else s
    if refused && !s.mayRwl who slot then s1 else s1.pwrSet who slot (nbit v.toNat 0)

/-! ## Faults of the Harbourmaster copies (R531 to R534) -/

/-- The Harbourmaster copies differ: `comp` is 1 for comparator A, 2 for B, 3 for both; HM_MISM captures the first event. -/
def State.hmUpset (s : State) (groups comp : Nat) : State :=
  let s1 := s.captureHm groups comp
  let s2 : State := { s1 with hm := { s1.hm with broken := true } }
  let s3 := s2.record 0 0
  (if comp = 3 then s3 else s3.record 0 1).wakeIfDue

/-! ## Manual injection (R303 to R305, R725) -/

/-- A pair's slot. -/
def pairUnitOf (slot : Nat) : Option PairUnit :=
  if h : 0x20 ≤ slot ∧ slot < 0x40 then some (.berth ⟨slot - 0x20, by omega⟩)
  else if slot = 0x0E then some .wharfinger else if slot = 0x0F then some .dredger else none

/-- Comparator kinds 1 to 4: the buses that differ and the comparators that flag. -/
def cmpKind (kind target : Nat) : Option (Nat × Nat) :=
  match kind with
  | 1 => if target < 6 then some (2 ^ target, 3) else none
  | 2 => some (0x3F, 3)
  | 3 => some (0, 1)
  | 4 => some (0, 2)
  | _ => none

/-- The test read of kinds 5 and 6: the place of its first word and the copy. -/
def State.testWord (s : State) (slot target : Nat) : Option (Place × Nat) :=
  if 0x20 ≤ slot then (if target < 2 then some (.hold (slot - 0x20) 0, target) else none)
  else if slot = 0x0C then (if target < 16 then some (.basin (target * 0x100000), 0) else none)
  else if slot = 0x0A then some (.lpddr 0, 0)
  else if slot = 0x0B then (if s.fld 0x0B F.MC_CFG_CAP 0 = 0 then none else some (.lpddr 0x100, 0))
  else none

/-- An injected expiry takes 1 µs (Table 8-1, items 10 and 11); its command ends it. -/
def timedKind (slot kind target : Nat) : Bool := kind == 11 || ((kind == 8 || kind == 9) && slot == 0x12 && decide (target < 64))

/-- What an injection that ends at once does: recorded and reacted to as a genuine fault; `none` for a kind that does not apply. -/
def State.inject (s : State) (slot kind target : Nat) : Option State :=
  match kind with
  | 5 =>
    if slot = 3 then some (s.record 3 0)
    else (s.testWord slot target).map fun p =>
      let e := s.eccOf (offsetOf p.1) p.2
      (s.correct p.1 (offsetOf p.1) p.2).setEcc (offsetOf p.1) p.2 e
  | 6 =>
    if slot = 3 then some (if s.log.degraded then s else s.sramFail 0)
    else (s.testWord slot target).map fun p => s.uncorrectable p.1 (offsetOf p.1) p.2
  | 7 =>
    if 4 ≤ slot ∧ slot ≤ 7 then
      let s1 := s.count slot F.QUAY_CNT_CRC_ERR 0 1
      some (if s.qstate (slot - 4) = 7 then s1.sendAck (slot - 4) true else s1)
    else none
  | 10 => if slot = 0x13 ∧ target < 4 then some (s.record 0x13 0) else none
  | k =>
    match cmpKind k target with
    | none => none
    | some (buses, comp) =>
      if slot = 0 then some (s.hmUpset buses comp)
      else (pairUnitOf slot).map fun u => s.pairEvent u buses comp

/-- BLK_INJ.KIND and TARGET of a written value. -/
def injBits (v : U64) : Nat := bitsOf v 15 8 * 256 + bitsOf v 3 0

/-- The domain's power keeps BLK_INJ from acting: off, ramping or draining (R305). -/
def State.injIgnored (s : State) (slot : Nat) : Bool :=
  let d := domainOf slot
  d != 0xFF && ((s.dom d).power != .on || (s.dom d).draining)

/-- A write of BLK_INJ: ignored in Start-check (R300), refused without presence (R303), never a Pilot target (R203), and ignored while an
injection is in progress (R305). An injected expiry is in progress for 1 µs; any other injection runs to its end within the write: RESULT
is 1 and KIND reads 0. -/
def State.injWrite (s : State) (who : Requester) (slot : Nat) (v : U64) : State :=
  let keep (t : State) (res : Nat) : State :=
    t.setReg slot .BLK_INJ 0 (BitVec.ofNat 64 (bitsOf v 15 8 * 256 + res * 2 ^ 56))
  if !s.awake || s.dev = .startCheck || who = .pilot then s
  else if !s.presence then
    (if injBits v = injBits (s.reg slot .BLK_INJ 0) then s else s.presenceDenied slot 0x38)
  else if s.injIgnored slot || (s.hdr slot).injAt.isSome then s
  else
    let kind := bitsOf v 3 0
    if kind = 0 ∨ 12 ≤ kind then keep s (s.fld slot F.BLK_INJ_RESULT 0)
    else if timedKind slot kind (bitsOf v 15 8) then
      let s1 := (s.logEntry slot 0xFF 0x0032 (injBits v)).setReg slot .BLK_INJ 0
        (BitVec.ofNat 64 (injBits v + s.fld slot F.BLK_INJ_RESULT 0 * 2 ^ 56 + 2 ^ 63))
      s1.setHdr slot { s1.hdr slot with injAt := some (s.after 1000) }
    else
      match s.inject slot kind (bitsOf v 15 8) with
      | none => keep s 3
      | some _ =>
        match (s.logEntry slot 0xFF 0x0032 (injBits v)).inject slot kind (bitsOf v 15 8) with
        | some t => keep t 1
        | none => keep s 3

/-! ## Service (R241, R549) -/

/-- HM_SVC.ENTER under presence: every sequencer stops and every Lighthouse is disarmed. Safe is pending when Service was entered
from Safe (R580). -/
def State.serviceEnter (s : State) : State :=
  if s.presence && (s.dev == .idle || s.dev == .run || s.dev == .safe) then
    let fromSafe := s.dev == .safe
    let s1 := s.setDev .service 11
    let s2 := (List.range 32).foldl (fun (t : State) n => t.seqHalt n) s1
    let s3 := s2.lhDisarm fun _ => true
    let s4 : State := { s3 with hm := { s3.hm with svcFromSafe := fromSafe } }
    (s4.setFld 0 F.HM_SAFE_STAT_IN_SAFE 0 0).setFld 0 F.HM_SAFE_STAT_PENDING 0 (b2n fromSafe)
  else s

/-- HM_SVC.LEAVE: Service ends with a warm reset. -/
def State.serviceLeave (s : State) : State := if s.presence && s.dev == .service then s.warmReset 12 else s

/-- A write of HM_SVC, whose fields are RWP and read 0 once acted on. With both set, the one that the present state takes acts: LEAVE in
Service, ENTER in every other state (log entry 116, DEDUCED). -/
def State.svcWrite (s : State) (who : Requester) (v : U64) : State :=
  if who = .pilot then s
  else if !s.presence then (if bitsOf v 1 0 = 0 then s else s.presenceDenied 0 0xC0)
  else if nbit v.toNat 1 && s.dev == .service then s.serviceLeave
  else if nbit v.toNat 0 then s.serviceEnter else s

/-! ## Sleep entry (R242, R261, R279, R571) -/

/-- The Pilot loads, re-charts or stores, or is about to (R237). -/
def State.pilotBusy (s : State) : Bool := s.pilot.load.isSome || s.pilot.store.isSome || s.pilot.due != 0

/-- A STORE ends with a status: PILOT_STAT takes it, and PILOT_CMD.CMD reads 0 (Table 6-14). -/
def State.storeEnd (s : State) (st : Status) : State :=
  let s1 := ((s.setFld 1 F.PILOT_STAT_LAST_STATUS 0 (statusCode st)).setFld 1 F.PILOT_STAT_STORING 0 0).setFld 1 F.PILOT_CMD_CMD 0 0
  { s1 with pilot := { s1.pilot with store := none } }

/-- A deferred segment is abandoned: its store ends with BUSY (R278, R279, R533). -/
def State.abandonSeg (s : State) (u : NvUser) : State :=
  match u with
  | .pilot => s.storeEnd .busy
  | .logbook => if s.log.mirror.isSome then s.mirrorAbandon else s
  | .wharfinger => s.stowEnd .busy
  | .xspiCmd => s.xspiEnd .busy

/-- Why HM_SLEEP.REQ is not accepted; 0 when it is (R242). -/
def State.sleepRefusal (s : State) : Nat :=
  if s.dev ≠ .run then 1
  else if !s.pilot.sleepOk then 2
  else if s.pilotBusy then 3
  else if s.hm.granted.isSome then 4
  else 0

/-- Grace timers that run expire as sleep entry begins (R571). -/
def State.graceAll (s : State) : State :=
  allSlots.foldl (fun (t : State) sl => if (t.hdr sl).graceEnd.isSome then t.graceExpire sl else t) s

/-- Domains that sleep entry drains, in descending order: those that are on but for the Basin and the memory controllers. -/
def State.sleepDoms (s : State) : List Nat :=
  ((List.range 43).filter fun d => d != 39 && d != 40 && (s.dom d).power != .off).reverse

/-- Sleep entry begins. Switch-ons and resets that were still to come are dropped: the entry leaves every domain off. SO_STAT.LATCHED
speaks of the latest entry (log entry 143, DESIGN CHOICE). -/
def State.sleepBegin (s : State) : State :=
  let s1 := (s.setDev .entering 13).setFld 0x13 F.SO_STAT_LATCHED 0 0
  let users := s1.hm.deferred.map (·.user)
  let s2 : State := (List.range 44).foldl (fun (t : State) d =>
      t.setDom d { t.dom d with holdEnd := none, thenOn := false, thenReset := false })
    { s1 with hm := { s1.hm with deferred := [], switchQ := [], wakeSeen := 0, sleepWait := false } }
  let s3 := (users.foldl State.abandonSeg s2).graceAll.lhDisarm fun _ => true
  State.sleepNext 44 { s3 with hm := { s3.hm with sleepQ := s3.sleepDoms } }

/-- HM_SLEEP.REQ: accepted, or REFUSED records why. A request that finds the Pilot busy waits until it is idle (R237), and is then decided
again. -/
def State.sleepReq (s : State) : State :=
  let r := s.sleepRefusal
  let s1 := s.setFld 0 F.HM_SLEEP_REFUSED 0 r
  if r = 0 then s1.sleepBegin else { s1 with hm := { s1.hm with sleepWait := r == 3 } }

/-- The Pilot has become idle: a request to enter Sleep that waits is decided. -/
def State.sleepResume (s : State) : State := if s.hm.sleepWait && !s.pilotBusy then s.sleepReq else s

/-! ## Tide time (R274) -/

/-- TIDE_SET: only in Idle, and never backwards; with a chart running it is a locked write. -/
def State.tideSet (s : State) (who : Requester) (v : U64) : State :=
  if s.dev = .idle then
    (if s.tide.toNat ≤ v.toNat then { s.setReg 2 .TIDE_SET 0 v with clk := { s.clk with tide := v } } else s)
  else if !s.mayRwl who 2 && s.reg 2 .TIDE_SET 0 != v then s.lockedWrite 2 0x88
  else s

/-- HM_DOM_STAT: the domains that are on. -/
def State.domStat (s : State) : U64 := BitVec.ofNat 64 (maskOf (List.range 44) fun d => (s.dom d).power == .on)

end Sys2Proof.Machine
end

