-- ==== Sys2Proof/Machine/View.lean ====
section
/-! DEFINITION. What a register reads as: the stored value, and for fields that the hardware keeps up to date the value that
the state gives them (each chapter's "Registers" section).
Log entries: 106 DEDUCED, 113 DEDUCED. -/

namespace Sys2Proof.Machine

/-! ## The common block header (Tables 19-4 to 19-8) -/

/-- STATE of BLK_STAT: always-on and spine blocks read 3 while awake. -/
def State.blockState (s : State) (slot : Nat) : Nat :=
  if domainOf slot = 0xFF then (if s.awake then 3 else 0) else domStateCode (s.dom (domainOf slot))

/-- BLK_STAT (Table 19-6). -/
def State.blkStat (s : State) (slot : Nat) : U64 :=
  let h := s.hdr slot
  BitVec.ofNat 64 (s.blockState slot + (s.dom (domainOf slot)).drain % 4 * 16 + b2n h.graceEnd.isSome * 64 + b2n h.graceExp * 128
    + b2n (s.hasReaction slot 3) * 256 + b2n (s.irqPend slot) * 512 + b2n (s.safeLine slot) * 1024)

/-- BLK_REACT: group g in bits [2g + 1 : 2g] (R562, R665, R670). -/
def State.blkReact (s : State) (slot : Nat) : U64 :=
  BitVec.ofNat 64 (((List.range 32).map fun g => s.reaction slot g * 4 ^ g).foldl (· + ·) 0)

/-- BLK_PWR.ON is the requested domain state. -/
def State.blkPwr (s : State) (slot : Nat) : U64 :=
  let d := domainOf slot
  BitVec.ofNat 64 (d * 256 + if d = 0xFF then 0 else b2n (s.wanted d))

/-! ## A Berth (Tables 3-7, 4-18, 4-21 and 13-15) -/

/-- WAIT_CAUSE (Table 4-18). -/
def Wait.code : Wait → Nat
  | .none => 0 | .woEntry _ _ => 1 | .send _ _ _ => 2 | .poll _ _ _ _ => 3 | .waitt _ => 4 | .fence _ _ _ => 5 | .commit _ _ => 6
  | .hold _ => 7 | .load _ _ => 8 | .yield _ => 9 | .cgSlot _ _ => 10

/-- STATE of a sequencer (Table 4-18). -/
def SeqState.code : SeqState → Nat
  | .stopped => 0 | .running => 1 | .waiting => 2 | .yielded => 3 | .halted => 4 | .faulted => 5

def State.berthStat (s : State) (n : Nat) : U64 :=
  let b := s.berth n
  BitVec.ofNat 64 (domStateCode (s.dom n) + b.woq.length * 2 ^ 8 + b.tags.length * 2 ^ 16 + b.cgs.length * 2 ^ 28)

def State.seqStat (s : State) (n : Nat) : U64 :=
  let b := s.berth n
  BitVec.ofNat 64 (b.seq.code + b.wait.code * 2 ^ 8 + s.fld (bslot n) F.SEQ_STAT_WO_IRQ 0 * 2 ^ 16 + b.pc % 65536 * 2 ^ 32
    + b.loops.length * 2 ^ 48)

/-- MSG_QSTAT: the counts, and the index of the oldest unreleased entry. -/
def State.qStat (s : State) (n q : Nat) : U64 :=
  let b := s.berth n
  let d := s.fld (bslot n) F.MSG_Q_DEPTH q
  let oldest := if d = 0 then 0 else (Tab.get 0 b.delivered q - (b.rx q).length) % d
  BitVec.ofNat 64 (b.occS q + b.occAD q * 2 ^ 16 + oldest * 2 ^ 32)

/-! ## Logbook and Lighthouses -/

/-- LOG_STAT (Table 16-12). -/
def State.logStat (s : State) : U64 :=
  BitVec.ofNat 64 (s.log.seq.toNat + s.log.lost.toNat * 2 ^ 32 + s.log.dropped * 2 ^ 48 + b2n s.log.degraded * 2 ^ 56
    + b2n s.log.mirror.isSome * 2 ^ 57 + s.log.boot.toNat % 64 * 2 ^ 58)

/-- LH_ARMED. -/
def State.lhArmed (s : State) : U64 := BitVec.ofNat 64 (maskOf (List.range 64) fun i => (s.lh i).armed)

/-! ## Host interface and TAP -/

/-- HOST_STAT.READY: domain 42 is on and no start check runs. -/
def State.hostReady (s : State) : Bool :=
  (s.dom ioDomain).power == .on && s.dev != .off && s.dev != .sleep && s.dev != .startCheck

/-- HOST_DBG.ACTIVE: the TAP holds the DEBUG instruction and debug access is enabled (R658). -/
def State.debugOn (s : State) : Bool := s.host.tapIr == 5 && s.fld 0x10 F.HOST_DBG_EN 0 == 1

/-! ## Every register -/

/-- What instance `i` of a register kind in a slot reads as. -/
def State.view (s : State) (slot : Nat) (r : Reg) (i : Nat) : U64 :=
  let n := slot - 0x20
  let v := s.reg slot r i
  match r with
  | .BLK_ID => F.BLK_ID_CHIP.put v s.chip
  | .BLK_STAT => s.blkStat slot
  | .BLK_REACT => s.blkReact slot
  | .BLK_GRACE => BitVec.ofNat 64 (s.graceUs slot)
  | .BLK_PWR => s.blkPwr slot
  | .BERTH_STAT => s.berthStat n
  | .BERTH_CG => s.berthCg n
  | .SEQ_STAT => s.seqStat n
  | .SEQ_CTL => F.SEQ_CTL_STOP.put v (b2n (s.berth n).stopReq)
  | .WO_SEQ => (s.berth n).woNext.zeroExtend 64
  | .MSG_QSTAT => s.qStat n i
  | .MSG_STAT => F.MSG_STAT_SEQ_NEXT.put v (s.berth n).msgSeq.toNat
  | .HM_WAKE_EN => BitVec.ofNat 64 (v.toNat ||| 2 ^ 13)
  | .HM_DOM_STAT => s.domStat
  | .HM_HU_CFG0 => s.huCfg0
  | .HM_HU_CFG1 => s.huCfg1
  | .PRES_STAT => s.presStat
  | .IN_STAT => s.inStat
  | .ESTOP_STAT => s.estopStat
  | .TOUCH_STAT => s.touchStat
  | .TOUCH_PAD => s.touchPad i
  | .TIDE_NOW => s.tide
  | .LOG_STAT => s.logStat
  | .ROUTE_STAT => s.routeStat
  | .LT_STAT => s.ltStat
  | .LT_POOL_GEO => s.ltGeo i
  | .LH_ARMED => s.lhArmed
  | .LH_UNUSABLE => s.reg 0 .HM_SC_LH 0
  | .LH_STAT => F.LH_STAT_STATE.put v (s.lhState i)
  | .SO_STAT => s.soStat
  | .SO_REQ => s.soReq
  | .STREAM_STAT => s.streamStat i
  | .KV_STAT => s.kvStat
  | .KV_POOL_STAT => s.poolStat i
  | .DRG_STAT => s.drgStat
  | .HOST_STAT => F.HOST_STAT_READY.put v (b2n s.hostReady)
  | .HOST_DBG => F.HOST_DBG_ACTIVE.put v (b2n s.debugOn)
  | .UART_STAT => s.uartStat
  | .GPIO_IN => s.gpioIn
  | _ => v

end Sys2Proof.Machine
end

