-- ==== Sys2Proof/Machine/Bus.lean ====
section
/-! DEFINITION. The register bus: reads and writes of every register with what they set going (02_address_space.md R43 and R44,
03_berth_pairs.md R99, 16_fault_reaction_logbook.md R565, 19_register_map.md R676). The writes of PILOT_BOOT and PILOT_CMD are
those of Pilot.lean.
Log entries: 16 DEDUCED, 32 DEDUCED, 33 DEDUCED, 110 DEDUCED. -/

namespace Sys2Proof.Machine

/-! ## Availability of a slot (R43, R99, R565) -/

/-- The slot is assigned (Table 2-3). -/
def assigned (slot : Nat) : Bool := allSlots.contains slot

/-- An offset of a slot is served: header offsets by the spine, every other offset while the block serves. -/
def State.slotServes (s : State) (slot off : Nat) : Bool :=
  s.awake && (!assigned slot || decide (off < 0x50) || s.serves (domainOf slot))

/-- A register read is 4 or 8 bytes, a write 8 bytes, naturally aligned (R44). -/
def regRead44 (size off : Nat) : Bool := (size == 4 || size == 8) && off % size == 0
def regWrite44 (size off : Nat) : Bool := size == 8 && off % 8 == 0

/-! ## CAN message buffers (R641) -/

/-- The controller, buffer and byte at an offset of slot 0x11. -/
def canAt (off : Nat) : Option (Nat × Nat × Nat) :=
  if 0x4000 ≤ off ∧ off < 0x4000 + 4 * 0x1800 then
    some ((off - 0x4000) / 0x1800, (off - 0x4000) % 0x1800 / 96, (off - 0x4000) % 0x1800 % 96)
  else none

/-! ## Reads -/

/-- The 64-bit register at an offset, and the state after a read that has an effect of its own. -/
def State.regGet (s : State) (who : Requester) (slot off : Nat) : U64 × State :=
  match regAt slot off with
  | some (.LOG_RD, w) => s.logRead w
  | some (.STREAM_CLAIM, i) => s.claim who i
  | some (.UART_DATA, _) => s.uartPop
  | some (r, i) => (s.view slot r i, s)
  | none =>
    match slot, canAt off with
    | 0x11, some (c, b, i) => (BitVec.ofNat 64 (s.canNum c b i 8), s)
    | _, _ => (0, s)

/-- A register read of `size` bytes. -/
def State.regRead (s : State) (who : Requester) (slot off size : Nat) : Ans :=
  if !regRead44 size off then poison size (s.recordHole who)
  else if !s.slotServes slot off then ⟨.down, List.replicate size 0, s⟩
  else
    let r := s.regGet who slot (off - off % 8)
    ⟨.ok, leBytes size (r.1.toNat / 2 ^ (8 * (off % 8))), r.2⟩

/-! ## Writes with an effect of their own -/

/-- BLK_REACT: groups that have a source and are not locked take the value (R562, R665, R667). -/
def State.reactWrite (s : State) (who : Requester) (slot : Nat) (v : U64) : State :=
  let have' := fun g => nbit (sourceMask slot) g
  if s.mayRwl who slot then
    let cur := s.reg slot .BLK_REACT 0
    s.setReg slot .BLK_REACT 0 ((List.range 32).foldl (fun w g =>
      if have' g && !s.locked slot g then withBits w (2 * g + 1) (2 * g) (bitsOf v (2 * g + 1) (2 * g)) else w) cur)
  else if (List.range 32).any fun g => have' g && s.reaction slot g != bitsOf v (2 * g + 1) (2 * g) then s.lockedWrite slot 0x20
  else s

/-- BLK_GRACE stores what it applies (R567, R667). -/
def State.graceWrite (s : State) (who : Requester) (slot : Nat) (v : U64) : State :=
  if s.mayRwl who slot then s.setFld slot F.BLK_GRACE_US 0 (F.BLK_GRACE_US.get v)
  else if F.BLK_GRACE_US.get v = s.graceUs slot then s else s.lockedWrite slot 0x28

/-- SO_CFG: outputs may change their level; FOLLOW_N takes up a SAFE_N that is low (R576). -/
def State.soCfgWrite (s : State) (who : Requester) (v : U64) : State :=
  let s1 := (s.applyWrite 0x13 .SO_CFG 0 who v).markOut s
  s1.recordIf (s1.safeNLine && !s.safeNLine) 0x13 1

/-- STREAM_CFG, STREAM_SHAPE, STREAM_RING, STREAM_CONS and STREAM_FILT (R316): a change reconfigures the stream; a change of its
consumers alone does not. -/
def State.streamWrite (s : State) (who : Requester) (r : Reg) (i : Nat) (v : U64) : State :=
  if r = .STREAM_CONS then (s.applyWrite 0x0D r i who v).recheck i
  else if s.written 0x0D r who (s.reg 0x0D r i) v = s.reg 0x0D r i then s.applyWrite 0x0D r i who v
  else
    let s1 := if (s.stream i).active then s.stopStream i else s
    (s1.applyWrite 0x0D r i who v).reconfigure i

/-- STREAM_REL: REL releases a slot; a write with REL = 0 clears the counters when CNT_CLR is set (R319, R320). -/
def State.streamRelWrite (s : State) (who : Requester) (i : Nat) (v : U64) : Status × State :=
  if nbit v.toNat 4 then s.releaseFrame who i (bitsOf v 3 0) else (.ok, if nbit v.toNat 63 then s.streamCntClr i else s)

/-- SEQ_CTL: presence-gated (R146, R168). A stop and a restart in one write stop the sequencer first. -/
def State.seqCtlWrite (s : State) (who : Requester) (n : Nat) (v : U64) : State :=
  let s0 := s.pokeBerth n
  if who = .pilot then s0
  else if !s.presence then (if bitsOf v 1 0 = 2 * b2n (s.berth n).stopReq then s0 else s0.presenceDenied (bslot n) 0x108)
  else
    let s1 := if nbit v.toNat 1 then s0.seqHalt n else s0
    if nbit v.toNat 0 && ((s1.berth n).seq == .halted || (s1.berth n).seq == .stopped) then s1.seqStart n else s1

/-- BERTH_CFG: lines outside a shadow region that has moved are FREE. -/
def State.berthCfgWrite (s : State) (who : Requester) (n : Nat) (v : U64) : State :=
  let s1 := s.applyWrite (bslot n) .BERTH_CFG 0 who v
  let r := s1.shadowRange n
  let b := s1.berth n
  s1.setBerth n { b with lines := Tab.drop b.lines fun l => !(decide (r.1 ≤ l * 256) && decide (l * 256 < r.2)) }

/-- MSG_Qq with a non-zero DEPTH opens the queue (R452). -/
def State.msgQWrite (s : State) (who : Requester) (n q : Nat) (v : U64) : State :=
  let s1 := s.applyWrite (bslot n) .MSG_Q q who v
  if s.mayRwl who (bslot n) then s1.openQueue n q else s1

/-- MSG_SFLOWf: the flow holds its CREDITS (R457, R477). -/
def State.msgFlowWrite (s : State) (who : Requester) (n f : Nat) (v : U64) : State :=
  let s1 := s.applyWrite (bslot n) .MSG_SFLOW f who v
  if s.mayRwl who (bslot n) then
    s1.setFld (bslot n) F.MSG_SFLOW_AVAIL f (if s1.flowOn n f then s1.fld (bslot n) F.MSG_SFLOW_CREDITS f else 0)
  else s1

/-- LOG_CLEAR is RWP (R586). -/
def State.logClearWrite (s : State) (who : Requester) (v : U64) : State :=
  if !nbit v.toNat 0 || who = .pilot then s
  else if s.presence then s.logClear else s.presenceDenied 3 0xC8

/-- HOST_WIN: ignored when BASE names bit 46 or the top of a local map (R625). -/
def State.hostWinWrite (s : State) (v : U64) : State :=
  if nbit v.toNat 14 || bitsOf v 7 4 == 0xF then s else s.setReg 0x10 .HOST_WIN 0 (BitVec.ofNat 64 (bitsOf v 15 0))

/-- ETH_MDIO through the bus: what the management interface reads back is open. -/
def State.mdioWrite (s : State) (m : Nat) (v : U64) : State :=
  let f := s.freeVal
  f.2.ethMdio m v (f.1.toNat % 65536)

/-- XSPI_CMD1 issues the operation that XSPI_CMD0.OP names. -/
def State.xspiWrite (s : State) (v : U64) : State :=
  let op := s.fld 0x11 F.XSPI_CMD0_OP 0
  if 1 ≤ op ∧ op ≤ 4 then s.xspiIssue op (if op ≤ 2 then bitsOf v 47 0 else 0) else s

/-- Clears the counters of a register when CLR is written. -/
def State.cntClr (s : State) (slot : Nat) (r : Reg) (v : U64) : State := if nbit v.toNat 63 then s.clearReg slot r 0 else s

/-- BASIN_ECC.CLR clears both counters and leaves SCRUB_DONE. -/
def State.basinEccClr (s : State) : State := (s.setFld 0x0C F.BASIN_ECC_CE_CNT 0 0).setFld 0x0C F.BASIN_ECC_UE_CNT 0 0

/-- A write to instance `i` of a register kind: its status and the state after it. -/
def State.regPut (s : State) (who : Requester) (slot : Nat) (r : Reg) (i : Nat) (v : U64) : Status × State :=
  let n := slot - 0x20
  match r with
  | .BLK_ID => (.ok, s)
  | .BLK_STAT => (.ok, s)
  | .BLK_FAULT => (.ok, s.faultW1C slot v.toNat)
  | .BLK_FMASK => (.ok, s.fmaskWrite slot v.toNat)
  | .BLK_REACT => (.ok, s.reactWrite who slot v)
  | .BLK_GRACE => (.ok, s.graceWrite who slot v)
  | .BLK_ACK => (.ok, if nbit v.toNat 0 then s.ack slot else s)
  | .BLK_INJ => (.ok, s.injWrite who slot v)
  | .BLK_PWR => (.ok, s.pwrWrite who slot v)
  | .BLK_IRQ => (.ok, s.irqWrite slot v)
  | .HM_SLEEP => (.ok, if nbit v.toNat 0 then s.sleepReq else s)
  | .HM_RESET => (.ok, if nbit v.toNat 0 then s.warmReset 3 else s)
  | .HM_SVC => (.ok, s.svcWrite who v)
  | .HM_SAFE => (.ok, if nbit v.toNat 0 && isHost who then s.safeExit else s)
  | .IN_CNT => (.ok, if nbit v.toNat 63 then s.setReg 0 .IN_CNT 0 0 else s)
  | .PILOT_BOOT => (.ok, s)
  | .PILOT_CMD => (.ok, s)
  | .TIDE_SET => (.ok, s.tideSet who v)
  | .LOG_CTL => (.ok, if nbit v.toNat 0 then s.mirrorStart else s)
  | .LOG_CLEAR => (.ok, s.logClearWrite who v)
  | .QUAY_CTL => (.ok, s.quayCtl (slot - 4) v)
  | .LT_RELEASE => (.ok, s.ltRelease (bitsOf v 47 0))
  | .SO_CFG => (.ok, s.soCfgWrite who v)
  | .SO_CMD => (.ok, s.soCmd who v)
  | .STREAM_CFG => (.ok, s.streamWrite who r i v)
  | .STREAM_SHAPE => (.ok, s.streamWrite who r i v)
  | .STREAM_RING => (.ok, s.streamWrite who r i v)
  | .STREAM_CONS => (.ok, s.streamWrite who r i v)
  | .STREAM_FILT => (.ok, s.streamWrite who r i v)
  | .STREAM_REL => s.streamRelWrite who i v
  | .FSYNC_START => (.ok, (s.applyWrite slot r i who v).fsyncSet i)
  | .FSYNC_PER => (.ok, (s.applyWrite slot r i who v).fsyncSet i)
  | .KV_HCMD1 => (.ok, s.kvHostCmd v)
  | .KV_CNT => (.ok, s.cntClr slot r v)
  | .KV_POOL_CFG => (.ok, (s.applyWrite slot r i who v).poolUpdate i)
  | .KV_POOL_QUANT => (.ok, (s.applyWrite slot r i who v).poolUpdate i)
  | .KV_POOL_MEM => (.ok, (s.applyWrite slot r i who v).poolUpdate i)
  | .KV_POOL_PAGES => (.ok, (s.applyWrite slot r i who v).poolUpdate i)
  | .KV_POOL_SEQ => (.ok, (s.applyWrite slot r i who v).poolUpdate i)
  | .DRG_HCMD1 => (.ok, s.drgHostCmd v)
  | .DRG_CNT => (.ok, s.cntClr slot r v)
  | .DRG_SLOT_CFG => (.ok, (s.applyWrite slot r i who v).drgUpdate i)
  | .DRG_SLOT_TEMP => (.ok, (s.applyWrite slot r i who v).drgUpdate i)
  | .DRG_SLOT_TMIN => (.ok, (s.applyWrite slot r i who v).drgUpdate i)
  | .DRG_SLOT_OFF => (.ok, (s.applyWrite slot r i who v).drgUpdate i)
  | .HOST_WIN => (.ok, s.hostWinWrite v)
  | .CAN_CFG => (.ok, s.canCfg who i v)
  | .ETH_KICK => (.ok, if nbit v.toNat 0 then s.ethKick i else s)
  | .ETH_MDIO => (.ok, s.mdioWrite i v)
  | .XSPI_CMD1 => (.ok, s.xspiWrite v)
  | .SPIC_TRIG => (.ok, s.spicTrig i v)
  | .UART_DATA => (.ok, s.uartSend (BitVec.ofNat 8 (bitsOf v 7 0)))
  | .BERTH_CFG => (.ok, s.berthCfgWrite who n v)
  | .SEQ_CTL => (.ok, s.seqCtlWrite who n v)
  | .FMT_CNT => (.ok, s.cntClr slot r v)
  | .FMC_CNT => (.ok, s.cntClr slot r v)
  | .CRANE_CNT => (.ok, s.cntClr slot r v)
  | .HOLD_ECC => (.ok, s.cntClr slot r v)
  | .MC_ECC => (.ok, s.cntClr slot r v)
  | .BASIN_ECC => (.ok, if nbit v.toNat 63 then s.basinEccClr else s)
  | .MSG_Q => (.ok, s.msgQWrite who n i v)
  | .MSG_SFLOW => (.ok, s.msgFlowWrite who n i v)
  | r => (.ok, s.applyWrite slot r i who v)

/-- A register write at an offset of a slot: reserved registers and slots ignore it (R8, R43, R676). -/
def State.regSet (s : State) (who : Requester) (slot off : Nat) (v : U64) : Status × State :=
  if !s.slotServes slot off then (.down, s)
  else match regAt slot off with
    | some (r, i) => s.regPut who slot r i v
    | none =>
      match slot, canAt off with
      | 0x11, some (c, b, i) => (.ok, s.canSet c b i v)
      | _, _ => (.ok, s)

/-! ## Register-bus parity (R535) -/

/-- A request or response fails its parity check: REG_PARITY, and HM_REGPAR captures the first. -/
def State.regParity (s : State) (slot dir : Nat) : State :=
  let s1 := if s.fld 0 F.HM_REGPAR_VALID 0 = 1 then s
    else s.setReg 0 .HM_REGPAR 0 (BitVec.ofNat 64 (2 ^ 63 + dir * 256 + slot))
  s1.record 0 8

end Sys2Proof.Machine
end

