-- ==== Sys2Proof/Machine/Chart.lean ====
section
/-! DEFINITION. The chart file and the checks the Pilot makes of it (06_charts.md R199 to R204, R226, R230, R231; R449, R489). A
failed check answers the reason of Table 6-15.
Log entries: 71 DEDUCED, 72 DEDUCED, 78 DESIGN CHOICE. -/

namespace Sys2Proof.Machine

/-! ## SHA-256 (FIPS 180-4, R199) -/

/-- The primes below 312 (FIPS 180-4 numbers its constants by the first sixty-four primes). -/
def shaPrimes : List Nat :=
  [2, 3, 5, 7, 11, 13, 17, 19, 23, 29, 31, 37, 41, 43, 47, 53] ++ [59, 61, 67, 71, 73, 79, 83, 89, 97, 101, 103, 107, 109, 113, 127, 131]
    ++ [137, 139, 149, 151, 157, 163, 167, 173, 179, 181, 191, 193, 197, 199, 211, 223]
    ++ [227, 229, 233, 239, 241, 251, 257, 263, 269, 271, 277, 281, 283, 293, 307, 311]

/-- The greatest `r` of at most `bits` further bits above `r0` with `r ^ k ≤ n`. -/
def rootFrom (k n : Nat) : Nat → Nat → Nat
  | 0, r0 => r0
  | bits + 1, r0 => rootFrom k n bits (if (r0 + 2 ^ bits) ^ k ≤ n then r0 + 2 ^ bits else r0)

/-- The first 32 bits of the fractional part of the `k`-th root of a prime. -/
def rootFraction (k p : Nat) : BitVec 32 := BitVec.ofNat 32 (rootFrom k (p * 2 ^ (32 * k)) 40 0)

/-- A word is rotated right by each count of a list, and the results are added modulo 2. -/
def turns (x : BitVec 32) (l : List Nat) : BitVec 32 := l.foldl (fun s n => s ^^^ x.rotateRight n) 0

/-- The hash between blocks and between rounds: the last four values of its two recurrences, the latest first. The eight working
words of FIPS 180-4 are the four of `up` followed by the four of `low`. -/
structure Sha where
  up : List (BitVec 32)
  low : List (BitVec 32)
  deriving DecidableEq, Repr

/-- The eight words in order. -/
def Sha.words (x : Sha) : List (BitVec 32) := x.up ++ x.low

/-- The hash before the first block: the square roots of the first eight primes. -/
def shaInit : Sha :=
  let l := (shaPrimes.take 8).map (rootFraction 2)
  ⟨l.take 4, l.drop 4⟩

/-- A value enters a recurrence; the oldest leaves it. -/
def enter (l : List (BitVec 32)) (v : BitVec 32) : List (BitVec 32) := v :: l.take 3

/-- One round, with the sum of its schedule word and its constant. -/
def Sha.round (x : Sha) (wk : BitVec 32) : Sha :=
  match x.up, x.low with
  | [u0, u1, u2, u3], [l0, l1, l2, l3] =>
    let pick := l2 ^^^ (l0 &&& (l1 ^^^ l2))                    -- Ch: a bit of l0 picks l1 or l2
    let most := (u0 &&& u1) ||| (u2 &&& (u0 ||| u1))           -- Maj: the bit that two of three share
    let step := l3 + turns l0 [6, 11, 25] + pick + wk
    ⟨enter x.up (step + turns u0 [2, 13, 22] + most), enter x.low (u3 + step)⟩
  | _, _ => x

/-- The schedule word that follows a list of at least sixteen, the latest first. -/
def shaNext (w : List (BitVec 32)) : BitVec 32 :=
  let near := w.getD 1 0
  let far := w.getD 14 0
  w.getD 15 0 + w.getD 6 0 + (turns far [7, 18] ^^^ far >>> 3) + (turns near [17, 19] ^^^ near >>> 10)

/-- The schedule of a block whose sixteen words stand in a list, the latest first. -/
def shaSchedule (w : List (BitVec 32)) : List (BitVec 32) :=
  ((List.range 48).foldl (fun l _ => shaNext l :: l) w).reverse

/-- Word `i` of a block: four bytes, the first the most significant. -/
def beWord (b : List Byte) (i : Nat) : BitVec 32 := BitVec.ofNat 32 (leNat ((b.drop (4 * i)).take 4).reverse)

/-- Takes one 64-byte block. -/
def Sha.block (x : Sha) (b : List Byte) : Sha :=
  let w := shaSchedule ((List.range 16).map (beWord b)).reverse
  let y := ((w.zip shaPrimes).map fun p => p.1 + rootFraction 3 p.2).foldl Sha.round x
  let sum (l m : List (BitVec 32)) := (l.zip m).map fun p => p.1 + p.2
  ⟨sum x.up y.up, sum x.low y.low⟩

/-- Takes `n` blocks. -/
def Sha.blocks : Nat → Sha → List Byte → Sha
  | 0, x, _ => x
  | n + 1, x, d => Sha.blocks n (x.block (d.take 64)) (d.drop 64)

/-- The message with its padding and its length in bits. -/
def shaPad (d : List Byte) : List Byte :=
  d ++ 0x80 :: List.replicate ((119 - d.length % 64) % 64) 0 ++ (leBytes 8 (8 * d.length)).reverse

/-- The digest as bytes. -/
def sha256 (d : List Byte) : List Byte :=
  let p := shaPad d
  (Sha.blocks (p.length / 64) shaInit p).words.flatMap fun w => (leBytes 4 w.toNat).reverse

/-! ## The header and the directory (Tables 6-1 to 6-3, R200, R201) -/

/-- `n` bytes from offset `i`. -/
def slice (d : List Byte) (i n : Nat) : List Byte := (d.drop i).take n

/-- The bytes are zero. -/
def zeros (d : List Byte) : Bool := d.all (· == 0)

/-- The chart header. -/
structure ChartHdr where
  total : Nat
  sects : Nat
  places : Nat
  sleep : Bool
  part : Nat
  id : U64
  bank : Nat
  deriving DecidableEq, Repr

/-- A check that answers its reason. -/
def need (c : Bool) (r : Nat) : Except Nat Unit := if c then .ok () else .error r

/-- Whether a chart is partial, and for which partition. -/
def partialOk (want : Option Nat) (fl part places : Nat) : Bool :=
  match want with
  | none => !nbit fl 1
  | some p => nbit fl 1 && decide (part = p ∧ places = 0)

/-- Reads the header. `len` is the length that the source gives, `want` the partition of a re-chart, `strap` HM_STRAP. -/
def chartHdr (strap : Nat) (len want : Option Nat) (b : List Byte) : Except Nat ChartHdr := do
  need (decide (256 ≤ b.length)) 7
  need (decide (leAt b 0 4 = 0x54484351 ∧ leAt b 4 2 = 1 ∧ leAt b 6 2 = 0xA032)) 1
  need (decide (leAt b 252 4 = crc32c (b.take 252))) 2
  let total := leAt b 8 4
  need (decide (total % 16 = 0 ∧ 816 ≤ total ∧ len.getD total = total)) 7
  let n := leAt b 12 1
  let places := leAt b 13 1
  let fl := leAt b 14 1
  let part := leAt b 15 1
  let bank := leAt b 36 1
  let sleep := nbit fl 0
  need (decide (1 ≤ n ∧ n ≤ 32)) 3
  need (partialOk want fl part places) 9
  need (decide (fl < 4) && zeros (slice b 37 215) && decide (bank < 16) && (sleep || bank == 0)
    && (want.isSome || decide (1 ≤ places ∧ places ≤ 4 ∧ part = 0))) 1
  need (!sleep || decide (total ≤ 0x80000 ∧ strap / 256 % 4 = 0 ∧ strap % 4 = 0)) 8
  return ⟨total, n, places, sleep, part, BitVec.ofNat 64 (leAt b 16 8), bank⟩

/-- A used directory entry. -/
structure Sect where
  typ : Nat
  place : Nat
  off : Nat
  len : Nat
  crc : Nat
  deriving DecidableEq, Repr

/-- Directory entry `i`. -/
def sectAt (d : List Byte) (i : Nat) : Sect :=
  ⟨leAt d (16 * i) 1, leAt d (16 * i + 1) 1, leAt d (16 * i + 4) 4, leAt d (16 * i + 8) 4, leAt d (16 * i + 12) 4⟩

/-- The used entries lie one after another, in the order of their types. -/
def chained : Nat → Nat → List Sect → Bool
  | _, _, [] => true
  | typ, off, e :: rest =>
    decide (typ ≤ e.typ ∧ 1 ≤ e.typ ∧ e.typ ≤ 8 ∧ e.off = off ∧ 0 < e.len ∧ e.len % 16 = 0 ∧ e.place < 16)
      && chained e.typ (e.off + e.len) rest

/-- Reads the directory. -/
def chartDir (h : ChartHdr) (d : List Byte) : Except Nat (List Sect) := do
  let l := (List.range h.sects).map (sectAt d)
  need (chained 1 768 l) 3
  need (decide (768 + total (l.map (·.len)) = h.total - 32)) 3
  need (zeros (d.drop (16 * h.sects)) && (List.range h.sects).all fun i => zeros (slice d (16 * i + 2) 2)) 3
  need (decide ((l.filter fun e => e.typ == 1).length = h.places) && l.all fun e => e.typ != 1 || e.place == 0) 3
  return l

/-! ## Placements (Tables 6-6 and 6-7) -/

/-- A placement chip record. -/
structure ChipRec where
  chip : Nat
  links : Nat
  blocks : Nat
  berths : Nat
  lpddr : Nat
  deriving DecidableEq, Repr

/-- A placement. -/
structure Placement where
  index : Nat
  clk : Nat
  power : Nat
  chips : List ChipRec
  deriving DecidableEq, Repr

/-- Chip record `k` of a placement. -/
def chipRec (d : List Byte) (k : Nat) : ChipRec :=
  let a := 32 + 16 * k
  ⟨leAt d a 1, leAt d (a + 1) 1, leAt d (a + 2) 2, leAt d (a + 4) 4, leAt d (a + 8) 2⟩

/-- The chips of the records ascend. -/
def ascending : List Nat → Bool
  | [] => true
  | [_] => true
  | a :: b :: t => decide (a < b) && ascending (b :: t)

/-- Reads a placement. A malformed one is a directory fault. -/
def placementOf (places : Nat) (seen : List Placement) (d : List Byte) : Except Nat Placement := do
  let n := leAt d 6 2
  let l := (List.range n).map (chipRec d)
  need (decide (leAt d 0 1 < places ∧ leAt d 1 1 ≤ 2 ∧ 1 ≤ n ∧ n ≤ 64 ∧ d.length = 32 + 16 * n) && zeros (slice d 8 24)) 3
  need (seen.all fun p => p.index != leAt d 0 1) 3
  need (ascending (l.map (·.chip)) && l.all (fun c => decide (c.chip < 64 ∧ c.links < 16 ∧ c.blocks < 64))
    && (List.range n).all fun k => zeros (slice d (42 + 16 * k) 6)) 3
  return ⟨leAt d 0 1, leAt d 2 2, leAt d 4 2, l⟩

/-! ## Records (Tables 6-4 and 6-5, R202, R203) -/

/-- A record; an image without data fills with zeros. -/
inductive Rec where
  | reg (chip slot off : Nat) (v : U64)
  | img (chip addr len : Nat) (data : Option (List Byte))
  deriving DecidableEq, Repr

/-- The chip that a record names. -/
def Rec.chip : Rec → Nat
  | .reg c _ _ _ => c
  | .img c _ _ _ => c

/-- A record's CHIP names a chip index or every chip. -/
def chipOk (c : Nat) : Bool := decide (c < 64) || c == 0xFF

/-- Targets that a section type permits a register record (Table 6-3). -/
def regTarget (typ slot off : Nat) : Bool :=
  assigned slot && off % 8 == 0 &&
    (match typ with
     | 2 => off == 0x18 || off == 0x20 || off == 0x28 || off == 0x48
     | 3 => off == 0x40 || (decide (0x80 ≤ off) && (slot == 1 || (decide (0xA ≤ slot) && decide (slot ≤ 0xC)) || decide (0x20 ≤ slot)))
     | 4 => decide (0x80 ≤ off) && decide (4 ≤ slot) && decide (slot ≤ 9)
     | 5 => decide (0x80 ≤ off) && (slot == 0 || slot == 2 || slot == 3 || slot == 0x13)
     | 6 => decide (0x80 ≤ off) && decide (0xD ≤ slot) && decide (slot ≤ 0x12)
     | _ => false)

/-- Credits of a QUAY_VC value: 8 to 96 each, 192 together (R489). -/
def vcOk (v : U64) : Bool :=
  let l := (List.range 6).map fun i => bitsOf v (8 * i + 7) (8 * i)
  decide (total l ≤ 192) && l.all fun c => decide (8 ≤ c ∧ c ≤ 96)

/-- A register record's value writes no RWP field (R203) and keeps R489. -/
def regValue (slot off : Nat) (v : U64) : Bool :=
  match regAt slot off with
  | some (.QUAY_VC, _) => vcOk v
  | some (r, _) => (v.toNat &&& r.info.rwp) == 0
  | none => true

/-- Reads register records. -/
def regRecs (typ : Nat) : Nat → List Byte → Except Nat (List Rec)
  | 0, _ => .ok []
  | n + 1, d => do
    let v := BitVec.ofNat 64 (leAt d 8 8)
    need (chipOk (leAt d 0 1) && zeros (slice d 4 4) && regTarget typ (leAt d 1 1) (leAt d 2 2)
      && regValue (leAt d 1 1) (leAt d 2 2) v) 6
    let t ← regRecs typ n (d.drop 16)
    return .reg (leAt d 0 1) (leAt d 1 1) (leAt d 2 2) v :: t

/-- Two local offsets lie in the same memory that an image record may target (Table 6-3). -/
def imageTarget : Place → Place → Bool
  | .hold _ _, .hold _ _ => true
  | .basin _, .basin _ => true
  | .lpddr _, .lpddr _ => true
  | .tables _, .tables _ => true
  | .store _, .store _ => true
  | _, _ => false

/-- The place that a local address of a chip names. How much LPDDR5X another chip has is not known here: there its whole region
counts, and the chip's own Pilot finds what is beyond it (R202). -/
def State.localOf (s : State) (chip o : Nat) : Place :=
  if chip = s.chip ∨ chip = 0xFF ∨ 0x0800000000 ≤ o then s.local o else .lpddr o

/-- Reads image records: at most `n`. -/
def imgRecs (s : State) : Nat → List Byte → Except Nat (List Rec)
  | 0, _ => .ok []
  | n + 1, d =>
    if d = [] then .ok []
    else do
      need (decide (16 ≤ d.length)) 7
      let chip := leAt d 0 1
      let kind := leAt d 1 1
      let a := leAt d 2 6
      let len := leAt d 8 4
      need (chipOk chip && decide (kind ≤ 1 ∧ a % 16 = 0) && zeros (slice d 12 4)) 6
      need (decide (0 < len ∧ len % 16 = 0) && (kind == 1 || decide (16 + len ≤ d.length))) 7
      need (decide (a + len ≤ 2 ^ 40) && imageTarget (s.localOf chip a) (s.localOf chip (a + len - 1))) 6
      let t ← imgRecs s n (d.drop (if kind = 1 then 16 else 16 + len))
      return .img chip a len (if kind = 1 then none else some (slice d 16 len)) :: t

/-- A section that has been read. -/
structure Section where
  typ : Nat
  place : Nat
  recs : List Rec := []
  pl : Option Placement := none
  deriving DecidableEq, Repr

/-- Placements among sections. -/
def placementsOf (l : List Section) : List Placement := l.filterMap (·.pl)

/-- Reads one section's bytes. -/
def sectionOf (s : State) (h : ChartHdr) (done : List Section) (e : Sect) (d : List Byte) : Except Nat Section :=
  if e.typ = 1 then (placementOf h.places (placementsOf done) d).map fun p => { typ := 1, place := 0, pl := some p }
  else if e.typ = 7 then (imgRecs s (d.length / 16) d).map fun l => { typ := 7, place := e.place, recs := l }
  else if e.typ = 8 then .ok { typ := 8, place := e.place }
  else (regRecs e.typ (d.length / 16) d).map fun l => { typ := e.typ, place := e.place, recs := l }

/-! ## Layout of a Berth's Hold (R449, Table 3-6) -/

/-- The sections of a placement (R204). -/
def inPlace (p : Nat) (x : Section) : Bool := x.place == 0 || nbit x.place p

/-- The value that a list of register records leaves at an offset of a slot on a chip, zero when none writes it. -/
def lastReg (l : List Rec) (chip slot off : Nat) : U64 :=
  l.foldl (fun v r => match r with
    | .reg c sl o x => if (c = chip ∨ c = 0xFF) ∧ sl = slot ∧ o = off then x else v
    | _ => v) 0

/-- Two byte ranges meet. -/
def meets (x y : Nat × Nat) : Bool := decide (x.1 < y.2) && decide (y.1 < x.2)

/-- A ring or a Buoy overlaps the program region, the shadow region, another queue's ring or another's Buoy, or the shadow region
runs past the Hold. -/
def badLayout (cfg prog : U64) (q : List U64) : Bool :=
  let base := F.BERTH_CFG_SHADOW_BASE.get cfg
  let size := F.BERTH_CFG_SHADOW_SIZE.get cfg
  let shadow := if 1 ≤ size ∧ size ≤ 4 then [(base * 0x10000, (base + size) * 0x10000)] else []
  let pb := F.SEQ_CFG_PROG_BASE.get prog
  let ps := F.SEQ_CFG_PROG_SIZE.get prog
  let fixed := if 1 ≤ ps ∧ ps ≤ 64 then shadow ++ [(pb * 0x1000, (pb + ps) * 0x1000)] else shadow
  let on := q.filter fun v => F.MSG_Q_DEPTH.get v != 0
  let ring (v : U64) : Nat × Nat := (F.MSG_Q_BASE.get v * 32, F.MSG_Q_BASE.get v * 32 + F.MSG_Q_DEPTH.get v * 32)
  let buoy (v : U64) : Nat × Nat := (F.MSG_Q_BUOY.get v * 8, F.MSG_Q_BUOY.get v * 8 + 8)
  decide (16 < base + size) || (List.range on.length).any fun i =>
    let v := on.getD i 0
    let others := (on.take i ++ on.drop (i + 1)).flatMap fun w => [ring w, buoy w]
    (fixed ++ others).any fun x => meets (ring v) x || meets (buoy v) x

/-- The STRUCTURE records leave a bad layout in some Berth of some placement. -/
def layoutBad (l : List Section) : Bool :=
  let pl := (placementsOf l).map (·.index)
  pl.any fun p =>
    let recs := (l.filter fun x => x.typ == 3 && inPlace p x).flatMap (·.recs)
    (recs.map Rec.chip).eraseDups.any fun c => (List.range 32).any fun n =>
      badLayout (lastReg recs c (bslot n) 0x80) (lastReg recs c (bslot n) 0x100)
        ((List.range 4).map fun q => lastReg recs c (bslot n) (0x200 + 8 * q))

/-! ## Conditions on Sleep (R226) -/

/-- The register records addressed to a chip in a placement. -/
def regCount (l : List Section) (p chip : Nat) : Nat :=
  ((l.filter (inPlace p)).flatMap (·.recs)).countP fun r => match r with
    | .reg c _ _ _ => c == chip || c == 0xFF
    | _ => false

/-- A chart with SLEEP = 1 retains its bank in every placement and keeps to 4,096 register records for each chip. -/
def sleepFits (h : ChartHdr) (chip : Nat) (l : List Section) : Bool :=
  !h.sleep || (placementsOf l).all fun p =>
    nbit (lastReg ((l.filter fun x => x.typ == 3 && inPlace p.index x).flatMap (·.recs)) chip 0x0C 0x80).toNat h.bank
      && p.chips.all fun c => decide (regCount l p.index c.chip ≤ 4096)

/-! ## A whole chart -/

/-- A chart as far as it can be read: its sections up to the first that fails a check, and the reason of that failure. -/
structure Chart where
  hdr : ChartHdr
  secs : List Section
  bad : Option Nat
  deriving DecidableEq, Repr

/-- The sections, up to the first that fails. The layout is judged once the STRUCTURE sections have been read. -/
def readSections (s : State) (h : ChartHdr) (b : List Byte) : List Section → List Sect → List Section × Option Nat
  | acc, [] => (acc, if layoutBad acc then some 6 else none)
  | acc, e :: rest =>
    if 3 < e.typ && acc.all (fun x => decide (x.typ ≤ 3)) && layoutBad acc then (acc, some 6)
    else
      let d := slice b e.off e.len
      if crc32c d ≠ e.crc then (acc, some 4)
      else match sectionOf s h acc e d with
        | .error r => (acc, some r)
        | .ok x => readSections s h b (acc ++ [x]) rest

/-- The digest at the end of a chart is right. -/
def digestOk (h : ChartHdr) (b : List Byte) : Bool := sha256 (b.take (h.total - 32)) == slice b (h.total - 32) 32

/-- Reads a chart. An error is a failure before the placements are known. `digest` asks for the digest's check. -/
def readChart (s : State) (len want : Option Nat) (digest : Bool) (b : List Byte) : Except Nat Chart := do
  let h ← chartHdr s.strap len want b
  need (decide (768 ≤ b.length)) 7
  let dir ← chartDir h (slice b 256 512)
  need (decide (h.total ≤ b.length)) 7
  let r := readSections s h b [] dir
  let bad := match r.2 with
    | some x => some x
    | none => if digest && !digestOk h b then some 5 else if sleepFits h s.chip r.1 then none else some 8
  match bad with
  | some x => if (placementsOf r.1).length < h.places then .error x else .ok ⟨h, r.1, bad⟩
  | none => .ok ⟨h, r.1, none⟩

/-- Reads a chart that is verified whole before anything is applied (Table 6-10). -/
def wholeChart (s : State) (len want : Option Nat) (digest : Bool) (b : List Byte) : Except Nat Chart :=
  match readChart s len want digest b with
  | .error r => .error r
  | .ok c => match c.bad with
    | some r => .error r
    | none => .ok c

/-! ## Partial charts (R230, R231) -/

/-- Member Berths of a partition in the running chart. -/
def State.partBerths (s : State) (p : Nat) : List Nat :=
  (List.range 32).filter fun n => s.fld (bslot n) F.BERTH_CFG_MEMBER 0 == 1 && s.fld (bslot n) F.BERTH_CFG_PART 0 == p

/-- The running chart assigns Lighthouse `i` to a partition: it is enabled and names it. -/
def State.lhOfPart (s : State) (p i : Nat) : Bool := s.fld 0x12 F.LH_CFG_EN i == 1 && s.fld 0x12 F.LH_CFG_PART i == p

/-- Bits of BERTH_CFG that a partial chart leaves unchanged. -/
def berthKey (v : U64) : Nat × Nat × Nat := (F.BERTH_CFG_MEMBER.get v, F.BERTH_CFG_PART.get v, F.BERTH_CFG_CRIT.get v)

/-- A record of a partial chart stays inside its partition. -/
def State.partRec (s : State) (p : Nat) : Rec → Bool
  | .reg c slot off v =>
    c == s.chip &&
      (if 0x20 ≤ slot then
        (s.partBerths p).contains (slot - 0x20) && (off != 0x80 || berthKey v == berthKey (s.reg slot .BERTH_CFG 0))
      else if slot = 0x12 then
        match regAt slot off with
        | some (.LH_CFG, i) => s.lhOfPart p i
        | some (.LH_LIM, i) => s.lhOfPart p i
        | _ => false
      else false)
  | .img c a len _ =>
    c == s.chip &&
      (match s.local a, s.local (a + len - 1) with
       | .hold n _, .hold m _ => n == m && (s.partBerths p).contains n
       | .lpddr _, .lpddr _ =>
         decide (s.fld 1 F.PILOT_PART_BASE_MIB p * 0x100000 ≤ a
           ∧ a + len ≤ (s.fld 1 F.PILOT_PART_BASE_MIB p + s.fld 1 F.PILOT_PART_SIZE_MIB p) * 0x100000)
       | _, _ => false)

/-- Why a verified partial chart is refused; 0 when it is accepted. `spans` says that the partition has a member Berth on another
chip. -/
def State.partRefusal (s : State) (p : Nat) (spans : Bool) (c : Chart) : Nat :=
  if spans then 10
  else if (s.partBerths p).any (fun n => s.fld (bslot n) F.BERTH_CFG_CRIT 0 == 1) && s.dev != .safe then 9
  else if (c.secs.flatMap (·.recs)).all (s.partRec p) then 0 else 9

end Sys2Proof.Machine
end

