-- ==== Sys2Proof/Machine/Pilot.lean ====
section
/-! DEFINITION. The Pilot: boot loads, the fit rule, the application of charts, its commands and the batches of a board domain
(06_charts.md R205 to R239). A load runs on until it has to wait for a Berth, a report or a batch; `State.pilotRun` resumes it.
Log entries: 69 DESIGN CHOICE, 70 DESIGN CHOICE, 72 DEDUCED, 73 DEDUCED, 74 DEDUCED, 75 DEDUCED, 76 DEDUCED,
77 DEDUCED, 78 DESIGN CHOICE. -/

namespace Sys2Proof.Machine

/-! ## The load in progress -/

/-- Changes the load. -/
def State.withLoad (s : State) (f : Load → Load) : State := { s with pilot := { s.pilot with load := s.pilot.load.map f } }

/-- The load or the command ends with PILOT_STAT.STATE; PILOT_CMD.CMD reads 0, and a request to sleep that waited goes on (R237). -/
def State.loadOver (s : State) (st : Nat) : State :=
  (({ s with pilot := { s.pilot with load := none } }.setFld 1 F.PILOT_STAT_STATE 0 st).setFld 1 F.PILOT_CMD_CMD 0 0).sleepResume

/-- STATE when no load runs: 4 with a running chart, otherwise 0. -/
def State.restState (s : State) : Nat := if s.chartOn then 4 else 0

/-- The Pilot is not idle (R235). -/
def State.pilotNotIdle (s : State) : Bool :=
  let st := s.fld 1 F.PILOT_STAT_STATE 0
  st == 1 || st == 2 || st == 3 || st == 5 || s.fld 1 F.PILOT_STAT_STORING 0 == 1

/-- This chip's Pilot is the domain Pilot (R210). -/
def State.domainPilot (s : State) : Bool := s.side == 1 || s.chip == 0

/-- BOOT straps (Table 7-3). -/
def State.boot (s : State) : Nat := s.strap % 4

/-! ## Sources (R221 to R223, Table 6-10) -/

/-- Offset of a stored slot (R221). `true` is B. -/
def slotBase (b : Bool) : Nat := if b then 0x3000000 else 0x1000000

/-- LEN of a stored slot's header. -/
def State.slotLen (s : State) (b : Bool) : Nat := leNat (s.flashBytes 0 (slotBase b + 4) 4)

/-- SEQ of a stored slot whose header is valid (R221). -/
def State.slotSeq (s : State) (b : Bool) : Option Nat :=
  if s.slotLen b = 0 then none else s.nvSeq 0 (slotBase b) 0x1FFFFC0

/-- The stored slot that R222 chooses; A when neither header is valid. -/
def State.pickSlot (s : State) : Bool := (nvChoose (s.slotSeq false) (s.slotSeq true)).getD false

/-- The chart in memory at PILOT_SRC. One too short for a header is reason 7; a read that does not complete OK, a hole included, is
reason 18 (Table 6-11, R669). -/
def State.memChart (s : State) : Except Nat (List Byte) × State :=
  let a := s.fld 1 F.PILOT_SRC_ADDR 0
  let n := s.fld 1 F.PILOT_LEN_LEN 0
  if n < 256 then (.error 7, s)
  else
    let r := State.readSpan .pilot (spanFuel n) s a n
    (if r.st = .ok then .ok r.data else .error 18, r.s)

/-- The retained bank that holds a resident copy: its chart names the bank. -/
def State.residentBank (s : State) : Option Nat :=
  (List.range 16).find? fun b =>
    let h := s.bytes (basinBase + b * 0x100000) 64
    nbit (s.fld 0x0C F.BASIN_RET_RETAIN 0) b && decide (leAt h 0 4 = 0x54484351 ∧ leAt h 36 1 = b) && nbit (leAt h 14 1) 0

/-- The resident copy with the index of its placement: absent when its bank failed the scrub or its chart a check (R78, R228). -/
def State.residentChart (s : State) : Option (Chart × List Byte × Nat) × State :=
  match s.residentBank with
  | none => (none, s)
  | some b =>
    if !s.serves 43 || nbit (s.fld 0x0C F.BASIN_ERR_RET_BANKS 0) b then (none, s)
    else
      let at_ := basinBase + b * 0x100000
      let n := leNat (s.bytes (at_ + 8) 4)
      if 0x80000 < n then (none, s)
      else
        let r := State.readSpan .pilot (spanFuel (n + 1)) s at_ (n + 1)
        match r.st, wholeChart r.s none none false (r.data.take n) with
        | .ok, .ok c =>
          let p := leAt r.data n 1
          if (placementsOf c.secs).any (fun x => x.index == p) then (some (c, r.data.take n, p), r.s) else (none, r.s)
        | _, _ => (none, r.s)

/-- A source's chart, with the length that the source gives. -/
def State.fetchChart (s : State) (src : LoadSrc) : Except Nat (List Byte × Option Nat) × State :=
  match src with
  | .flash b =>
    if (s.slotSeq b).isNone then (.error 2, s)
    else if flashHas 0 (slotBase b + 64) (s.slotLen b) then
      (.ok (s.flashBytes 0 (slotBase b + 64) (s.slotLen b), some (s.slotLen b)), s)
    else (.error 4, s)
  | .stream =>
    let head := (List.range 12).map (Config.streamByte s.fresh)
    (.ok ((List.range (leAt head 8 4)).map (Config.streamByte s.fresh), none), { s with fresh := s.fresh + 1 })
  | _ =>
    let r := s.memChart
    (r.1.map fun b => (b, some b.length), r.2)

/-! ## The fit rule (R205 to R209, R211, Table 6-9) -/

/-- This chip's resource report. -/
def State.ownReport (s : State) : List Byte := (List.range 4).flatMap fun i => leBytes 8 (s.reg 1 .PILOT_RES i).toNat

/-- A report is VALID with a correct CRC. -/
def reportOk (r : List Byte) : Bool := nbit (leAt r 15 1) 0 && leAt r 24 4 == crc32c (r.take 24)

/-- The other chips of the board domain. -/
def State.otherChips (s : State) : List Nat :=
  (List.range 64).filter fun c => decide (c % 8 < s.side) && decide (c / 8 < s.side) && c != s.chip

/-- Reads the reports of the other chips through the board window. -/
def State.askReports (s : State) : List (Nat × List Byte) × State :=
  s.otherChips.foldl (fun x c =>
    let r := x.2.remoteAsk .pilot c (basinBase + 0xFFFFC0) (.read 32)
    (x.1 ++ [(c, if r.st = .ok then r.data else [])], r.s)) ([], s)

/-- Checks 2 to 7 of a chip record against a report: the first that fails, with SHORT. -/
def shortOf (p : Placement) (c : ChipRec) (r : List Byte) : Option (Nat × Nat) :=
  let miss (x y : Nat) : Nat := x - (x &&& y)
  let l := [(2, miss c.berths (leAt r 0 4)), (3, miss c.blocks (leAt r 4 2)), (4, c.lpddr - leAt r 12 2),
            (5, miss c.links (leAt r 6 1)), (6, p.clk - leAt r 8 2), (7, p.power - leAt r 10 2)]
  l.find? fun x => x.2 != 0

/-- The first failed check of a placement: CHECK, CHIP and SHORT. -/
def unfit (side : Nat) (reports : List (Nat × List Byte)) (p : Placement) : Option (Nat × Nat × Nat) :=
  p.chips.findSome? fun c =>
    match reports.find? fun r => r.1 == c.chip with
    | some r =>
      if c.chip % 8 < side ∧ c.chip / 8 < side ∧ reportOk r.2 = true then (shortOf p c r.2).map fun x => (x.1, c.chip, x.2)
      else some (1, c.chip, 0)
    | none => some (1, c.chip, 0)

/-- PILOT_FITp records a failed check. -/
def State.setFit (s : State) (p check chip short : Nat) : State :=
  s.setReg 1 .PILOT_FIT p (BitVec.ofNat 64 (2 ^ 63 + check * 2 ^ 48 + chip * 2 ^ 40 + short % 2 ^ 32))

/-- Tries placements in order: the first that fits. -/
def State.tryFit (reports : List (Nat × List Byte)) : State → List Placement → Option Placement × State
  | s, [] => (none, s)
  | s, p :: rest =>
    match unfit s.side reports p with
    | none => (some p, s)
    | some (check, chip, short) => State.tryFit reports (s.setFit p.index check chip short) rest

/-- No placement fits (R207). -/
def State.chartUnfit (s : State) : State :=
  let s1 := (s.recordAs 1 2 8).setFld 1 F.PILOT_STAT_LAST_STATUS 0 8
  let s2 := if s1.dev = .idle ∨ s1.dev = .run then s1.enterSafe 8 else s1
  s2.loadOver 0

/-! ## Records as operations (R203, R204, R213) -/

/-- A record is for a chip: it names it, or every chip that the placement names (R204, Table 6-4). -/
def Rec.isFor (named : Bool) (chip : Nat) (r : Rec) : Bool := r.chip == chip || (named && r.chip == 0xFF)

/-- The Berth that a record makes a member of a partition (R215). -/
def Rec.member : Rec → Option Nat
  | .reg _ slot off v => if 0x20 ≤ slot ∧ off = 0x80 ∧ F.BERTH_CFG_MEMBER.get v = 1 then some (slot - 0x20) else none
  | .img _ _ _ _ => none

/-- What applies a record. -/
def Rec.op : Rec → LoadOp
  | .reg _ slot off v => .reg slot off v
  | .img _ a _ (some b) => .copy a b
  | .img _ a len none => .fill a len

/-- The operations of a chip's records, in file order, after the power-on of the Berths that they make members (R202, R215). -/
def recOps (named : Bool) (chip : Nat) (l : List Rec) : List LoadOp :=
  let own := l.filter (Rec.isFor named chip)
  (own.filterMap Rec.member).map .power ++ own.map Rec.op

/-- A record as it lies in a batch. -/
def Rec.bytes : Rec → List Byte
  | .reg c slot off v => leBytes 1 c ++ leBytes 1 slot ++ leBytes 2 off ++ leBytes 4 0 ++ leBytes 8 v.toNat
  | .img c a len d => leBytes 1 c ++ leBytes 1 (b2n d.isNone) ++ leBytes 6 a ++ leBytes 4 len ++ leBytes 4 0 ++ d.getD []

/-- Images whose data would not fit the staging buffer are cut, at most `n` times. -/
def cutImage : Nat → Rec → List Rec
  | 0, r => [r]
  | n + 1, .img c a len (some d) =>
    if len ≤ 0xF0000 then [.img c a len (some d)]
    else .img c a 0xF0000 (some (d.take 0xF0000)) :: cutImage n (.img c (a + 0xF0000) (len - 0xF0000) (some (d.drop 0xF0000)))
  | _ + 1, r => [r]

/-- Records packed into batches of at most the staging buffer (R212). -/
def packRecs : List Byte → List Rec → List (List Byte)
  | cur, [] => if cur = [] then [] else [cur]
  | cur, r :: rest =>
    if cur.length + r.bytes.length ≤ 0xF8000 then packRecs (cur ++ r.bytes) rest
    else cur :: packRecs r.bytes rest

/-- The batches of a section for another chip. -/
def batchOps (chip : Nat) (x : Section) : List LoadOp :=
  let l := (x.recs.filter (Rec.isFor true chip)).flatMap fun r => cutImage 32 r
  (packRecs [] l).map (.batch chip x.typ)

/-- The operations of a section, for this chip and then for the others of the placement. -/
def secOps (chip : Nat) (named : Bool) (others : List Nat) (x : Section) : List LoadOp :=
  recOps named chip x.recs ++ others.flatMap fun c => batchOps c x

/-- The operations of a load: the defaults of R666 and the REACTION records, what follows them, and the other sections. -/
def loadOps (chip : Nat) (named : Bool) (others : List Nat) (place : Nat) (l : List Section) : List LoadOp :=
  let m := l.filter (inPlace place)
  .defaults :: (m.filter fun x => x.typ == 2).flatMap (secOps chip named others) ++ .reacted ::
    (m.filter fun x => decide (3 ≤ x.typ)).flatMap (secOps chip named others)

/-- Partitions that have a member Berth on another chip. -/
def spanning (others : List Nat) (l : List Section) : List Nat :=
  ((l.flatMap (·.recs)).filter fun r => others.any fun c => r.isFor true c).filterMap fun r => match r with
    | .reg _ _ _ v => if r.member.isSome then some (F.BERTH_CFG_PART.get v) else none
    | .img _ _ _ _ => none

/-! ## Manifests of the Pilot (R213, R214) -/

/-- Sends a Class A Manifest to the Pilot of a chip of the domain. TAG is a section type for a batch, 0xFF for START and
0x100 plus the status for an answer. -/
def State.pilotSend (s : State) (chip tag addr len : Nat) : State :=
  let x := (s.fld 9 F.MESH_ORIGIN_OX 0 + chip % 8) % 256
  let y := (s.fld 9 F.MESH_ORIGIN_OY 0 + chip / 8) % 128
  s.unitSend 34 (mPut (mPut (mPut (mPut (mPut (mPut (mPut 0 0 1 x) 1 1 y) 2 1 34) 3 1 1) 4 2 tag) 12 6 addr) 20 4 len)

/-- The staging buffer (R212). -/
def staging : Nat := basinBase + 0xF00000

/-! ## Failures (R216, R222, R224) -/

/-- A failed load with MODE 0 and BOOT = 00 leads to the other stored slot when its header is valid, any other to no load. -/
def State.otherSlot (s : State) (mode : Nat) (b : Bool) : Nat × Nat :=
  if mode = 0 ∧ s.boot = 0 ∧ (s.slotSeq (!b)).isSome then (2, b2n (!b)) else (3, s.fld 0 F.HM_BOOTREC_SLOT 0)

/-- HM_BOOTREC after a failed load. The resident copy counts as the slot that R222 chooses (R224). -/
def State.bootrecAfter (s : State) (l : Load) : Nat × Nat :=
  let cur := s.fld 0 F.HM_BOOTREC_SLOT 0
  if l.mode = 1 then (0, cur)
  else match l.src with
    | .resident => s.otherSlot l.mode s.pickSlot
    | .flash b => s.otherSlot l.mode b
    | _ => (3, cur)

/-- A failed boot load: a warm reset when a record has been applied, or for a stored, resident or MODE 1 or 2 chart; the reason is
recorded after the reset. Otherwise it is recorded at once. -/
def State.bootFail (s : State) (l : Load) (r : Nat) : State :=
  let stored : Bool := match l.src with
    | .flash _ => true
    | .resident => true
    | _ => false
  if l.applied || stored || l.mode == 1 || l.mode == 2 then
    let m := s.bootrecAfter l
    let s1 := s.setReg 0 .HM_BOOTREC 0 (BitVec.ofNat 64 (m.1 + m.2 * 8 + r * 2 ^ 16))
    { s1 with pilot := { s1.pilot with failed := some r } }.warmReset 3
  else (s.chartFail r).loadOver 0

/-- A load, a re-chart or a batch fails with a reason. -/
def State.pilotFail (s : State) (r : Nat) : State :=
  match s.pilot.load with
  | none => s.chartFail r
  | some l =>
    match l.src with
    | .rechart _ => (s.chartFail r).loadOver s.restState
    | .domain => (s.pilotSend 0 (0x100 + statusCode .down) 0 0).loadOver 0
    | _ => s.bootFail l r

/-! ## Operations -/

/-- What an operation of a load comes to: it is done, it waits, or it fails with a reason. -/
inductive OpRes where
  | done (s : State)
  | wait (s : State)
  | bad (s : State) (r : Nat)

/-- The block of a domain does not serve yet and will. -/
def State.coming (s : State) (d : Nat) : Bool := !s.serves d && s.wanted d && !(s.dom d).faulted

/-- The Holds that a local range touches. -/
def State.holdsOf (s : State) (a n : Nat) : List Nat :=
  match s.local a, s.local (a + n - 1) with
  | .hold i _, .hold j _ => (List.range (j + 1 - i)).map (i + ·)
  | _, _ => []

/-- An image (R215, Table 6-11). -/
def State.image (s : State) (a : Nat) (d : List Byte) : OpRes :=
  let off := (s.holdsOf a d.length).filter fun n => !s.serves n
  if off ≠ [] then (if off.all s.coming then .wait s else .bad s 17)
  else
    let r := State.writeSpan .pilot (spanFuel d.length) s a d
    if r.st = .ok then .done r.s else .bad r.s 18

/-- The Pilot waits for a Berth that it has powered on: its 1 ms runs from its switch-on (R215). One that the Harbourmaster does not
switch on can only run out of it. -/
def State.watchPower (s : State) (d : Nat) : State :=
  if s.serves d then s
  else s.withLoad fun l =>
    if (Tab.find l.powered d).isSome || l.coming.contains d then l
    else if s.wanted d && (s.dom d).power != .ramping then { l with coming := d :: l.coming }
    else { l with powered := Tab.put l.powered d s.clk.now }

/-- A register record: one of a block that is being switched on waits, one of a block that is off is not performed. -/
def State.regRecord (s : State) (slot off : Nat) (v : U64) : OpRes :=
  let d := domainOf slot
  if 0x80 ≤ off ∧ s.serves d = false then (if s.coming d then .wait s else .done s)
  else
    let t := (s.regSet .pilot slot off v).2
    .done (if off = 0x40 ∧ d < 32 ∧ nbit v.toNat 0 = true then t.watchPower d else t)

/-- The digest's registers and entries, and CHART_ID (R217). -/
def State.digest (s : State) (b : List Byte) : State :=
  let d := b.drop (b.length - 32)
  let s1 := (List.range 4).foldl (fun (t : State) i =>
    (t.setReg 1 .PILOT_DIGEST i (BitVec.ofNat 64 (leAt d (8 * i) 8))).logEntry 1 0xFF 0x20 (leAt d (8 * i) 8)) s
  s1.setReg 1 .PILOT_CHART_ID 0 (BitVec.ofNat 64 (leAt b 16 8))

/-- A batch for another chip: staged there, then announced (R213). One batch is out for a chip at a time. -/
def State.sendBatch (s : State) (l : Load) (chip typ : Nat) (d : List Byte) : OpRes :=
  if (Tab.find l.waits chip).isSome then .wait s
  else
    let r := State.writeSpan .pilot (spanFuel d.length) s (2 ^ 47 + chip * 2 ^ 40 + staging) d
    if r.st = .ok then
      .done ((r.s.pilotSend chip typ staging d.length).withLoad fun x => { x with waits := Tab.put x.waits chip (r.s.after 1000000) })
    else .bad r.s 18

/-- One operation. -/
def State.pilotOp (s : State) (l : Load) : LoadOp → OpRes
  | .defaults => .done (allSlots.foldl (fun (t : State) sl => t.setReg sl .BLK_REACT 0 (reactDefault sl)) s)
  | .reg slot off v => s.regRecord slot off v
  | .copy a d => s.image a d
  | .fill a n => s.image a (List.replicate n 0)
  | .reacted => .done { s with reactDone := true }.reportScrub
  | .power d => .done ((s.pwrSet .pilot (bslot d) true).watchPower d)
  | .batch c t d => s.sendBatch l c t d
  | .digest => .done (s.digest l.chart)
  | .keep b =>
    let d := l.chart ++ leBytes 1 l.place
    let r := State.writeSpan .pilot (spanFuel d.length) s (basinBase + b * 0x100000) d
    if r.st = .ok then .done r.s else .bad r.s 18
  | .fail r => .bad s r
  | .answer => .done (s.pilotSend 0 0x100 0 0)
  | .reset => if l.drains.all (fun d => (s.dom d).power == .off) then .done ((s.warmReset 3).switchOn l.drains) else .wait s

/-- An operation that applies a record. -/
def LoadOp.applies : LoadOp → Bool
  | .reg _ _ _ => true
  | .power _ => true
  | .copy _ _ => true
  | .fill _ _ => true
  | .batch _ _ _ => true
  | _ => false

/-! ## The end of a load (R94, R121, R214, R223, R232) -/

/-- Member Berths of the running chart. -/
def State.members (s : State) : List Nat := (List.range 32).filter fun n => s.fld (bslot n) F.BERTH_CFG_MEMBER 0 == 1

/-- Starts the sequencers of Berths that serve. In Service no sequencer runs (R241). -/
def State.startBerths (s : State) (l : List Nat) : State :=
  if s.dev = .service then s else (l.filter fun n => s.serves n).foldl State.seqStart s

/-- A chart runs: Berths of no partition go off, a switch-on that waits included (R94), member sequencers start, and the Q32 enters
Run unless it is in Safe. -/
def State.chartRuns (s : State) (sleep : Bool) : State :=
  let out := (List.range 32).filter fun n => !s.members.contains n && ((s.dom n).power != .off || s.wanted n)
  let s1 := out.foldl (fun (t : State) n => t.drainReq n false) s
  let s2 : State := { s1 with chartOn := true, reactDone := true, pilot := { s1.pilot with sleepOk := sleep } }
  let s3 := ((s2.startBerths s.members).setFld 1 F.PILOT_STAT_LAST_STATUS 0 0).setFld 1 F.PILOT_STAT_REASON 0 0
  let s4 := (s3.setFld 0 F.HM_BOOTREC_MODE 0 0).setFld 0 F.HM_BOOTREC_REASON 0 0
  let s5 := s4.loadOver 4
  if s5.dev = .idle then s5.enterRun 5 else s5

/-- A re-chart of a partition and its Berths is complete. -/
def State.rechartEnd (s : State) (p : Nat) (part : List Nat) : State :=
  let s1 := ((s.startBerths part).lhWatch (s.lhOfPart p)).setFld 1 F.PILOT_STAT_LAST_STATUS 0 0
  (s1.setFld 1 F.PILOT_STAT_REASON 0 0).loadOver s.restState

/-- The load has nothing left to do: it ends once its Berths are available and every batch is answered. -/
def State.pilotFinish (s : State) (l : Load) : State :=
  if l.powered ≠ [] ∨ l.coming ≠ [] ∨ l.waits ≠ [] then s
  else match l.src with
    | .domain => s
    | .rechart p => s.rechartEnd p l.part
    | _ => ((l.chips.filter fun c => c != s.chip).foldl (fun (t : State) c => t.pilotSend c 0xFF 0 0) s).chartRuns
             (nbit (leAt l.chart 14 1) 0)

/-! ## Resuming -/

/-- Berths that are available are no longer waited for; one that is switched on, or will not be, starts its 1 ms. -/
def State.pilotSync (s : State) : State :=
  s.withLoad fun l =>
    let left := match l.src with
      | .rechart _ => l.drains.filter fun d => !s.serves d
      | _ => l.drains
    let due := l.coming.filter fun d => (s.dom d).power == .ramping || s.serves d || !s.wanted d
    let timed := due.foldl (fun t d => Tab.put t d s.clk.now) l.powered
    { l with drains := left, coming := l.coming.filter fun d => !due.contains d, powered := Tab.drop timed fun d => s.serves d }

/-- Berths of a re-chart that did not come back (R233). -/
def State.notBack (s : State) (l : Load) : List Nat := l.drains.filter fun d => (s.dom d).excluded && !s.wanted d

/-- A re-chart fails with CHART_FIT: its partition goes off. -/
def State.rechartUnfit (s : State) (part out : List Nat) : State :=
  let s1 := ((s.setFit 0 2 s.chip (maskOf out fun _ => true)).recordAs 1 2 8).setFld 1 F.PILOT_STAT_LAST_STATUS 0 8
  (part.foldl (fun (t : State) d => t.drainReq d false) s1).loadOver s.restState

/-- Runs the load, at most `fuel` operations. -/
def State.pilotGo : Nat → State → State
  | 0, s => s
  | fuel + 1, s =>
    match s.pilot.load with
    | none => s
    | some l =>
      match l.todo with
      | [] => s.pilotFinish l
      | op :: rest =>
        match s.pilotOp l op with
        | .done t => State.pilotGo fuel (t.withLoad fun x => { x with todo := rest, applied := x.applied || op.applies })
        | .wait t => t
        | .bad t r => (t.withLoad fun x => { x with applied := x.applied || op.applies }).pilotFail r

/-- The Pilot goes on with its load, if it has one and does not wait for the Berths of a re-chart. -/
def State.pilotRun (s : State) : State :=
  let t := s.pilotSync
  match t.pilot.load with
  | none => s
  | some l =>
    if t.dev = .startCheck ∨ l.fitted = false then s
    else match l.src with
      | .rechart _ =>
        if t.notBack l ≠ [] then t.rechartUnfit l.part (t.notBack l) else if l.drains ≠ [] then t else State.pilotGo (l.todo.length + 1) t
      | _ => State.pilotGo (l.todo.length + 1) t

/-! ## Boot loads (R207, R208, R210, R211, R223, R227, R228) -/

/-- A load starts: the Pilot discovers. -/
def State.loadStart (s : State) (src : LoadSrc) : State :=
  let s1 := (List.range 4).foldl (fun (t : State) p => t.setReg 1 .PILOT_FIT p 0) s
  let s2 := s1.setFld 1 F.PILOT_STAT_STATE 0 1
  let s3 := match src with
    | .flash b => s2.setFld 1 F.PILOT_STAT_SLOT 0 (b2n b)
    | _ => s2
  { s3 with pilot := { s3.pilot with load := some { src := src, mode := s.fld 0 F.HM_BOOTREC_MODE 0, start := s.clk.now } } }

/-- A placement is chosen: its records are applied. -/
def State.placed (s : State) (c : Chart) (b : List Byte) (src : LoadSrc) (p : Placement) : State :=
  let named := (p.chips.map (·.chip)).contains s.chip
  let others := (p.chips.map (·.chip)).filter fun x => x != s.chip
  let resident : Bool := match src with
    | .resident => true
    | _ => false
  let tail : List LoadOp := match c.bad with
    | some r => [.fail r]
    | none => .digest :: (if c.hdr.sleep && !resident then [.keep c.hdr.bank] else [])
  let s1 := ((s.setFld 1 F.PILOT_STAT_STATE 0 3).setFld 1 F.PILOT_STAT_PLACE 0 p.index).setFld 1 F.PILOT_STAT_FALLBACK 0
    (b2n (p.index != 0))
  let s2 := s1.recordIf (p.index != 0) 1 5
  let s3 : State := { s2 with pilot := { s2.pilot with spans := spanning others (c.secs.filter (inPlace p.index)) } }
  (s3.withLoad fun l => { l with src := src, fitted := true, chart := b.take c.hdr.total, place := p.index, chips := p.chips.map (·.chip),
                                 todo := loadOps s.chip named others p.index c.secs ++ tail }).pilotRun

/-- Placements by ascending INDEX. -/
def byIndex (l : List Placement) : List Placement := (List.range 4).filterMap fun i => l.find? fun p => p.index == i

/-- The fit is decided on the reports: the first placement that fits is applied, otherwise nothing is. -/
def State.decideFit (s : State) (reports : List (Nat × List Byte)) (c : Chart) (b : List Byte) (src : LoadSrc) (only : Option Nat) :
    State :=
  let l := (byIndex (placementsOf c.secs)).filter fun p => match only with
    | some i => p.index == i
    | none => true
  let r := State.tryFit ((s.chip, s.ownReport) :: reports) s l
  match r.1 with
  | some p => r.2.placed c b src p
  | none => r.2.chartUnfit

/-- The chart is read and the fit decided. A stored or streamed chart is checked in a single pass (R218), one in memory whole. -/
def State.readAndFit (s : State) (src : LoadSrc) (reports : List (Nat × List Byte)) : State :=
  let f := s.fetchChart src
  match f.1 with
  | .error r => f.2.pilotFail r
  | .ok (b, len) =>
    let c := match src with
      | .memory => wholeChart f.2 len none true b
      | _ => readChart f.2 len none true b
    match c with
    | .error r => f.2.pilotFail r
    | .ok c => f.2.decideFit reports c b src none

/-- The domain Pilot reads the reports; the fit is decided when every chip's is VALID, or at the end of the 20 ms. -/
def State.discover (s : State) (last : Bool) : State :=
  match s.pilot.load with
  | none => s
  | some l =>
    let r := s.askReports
    if last || r.1.all fun x => reportOk x.2 then r.2.readAndFit l.src r.1 else r.2

/-- The boot load that a PILOT_BOOT has asked for (R219), or that HM_BOOTREC and the BOOT straps select (R223). Other chips of a domain
wait for the domain Pilot (R210). -/
def State.bootLoad (s0 : State) : State :=
  let s : State := { s0 with pilot := { s0.pilot with due := 0 } }
  let mode := s.fld 0 F.HM_BOOTREC_MODE 0
  if s0.pilot.due = 3 then (s.loadStart .memory).discover false
  else if !s.domainPilot then s.setFld 1 F.PILOT_STAT_STATE 0 1
  else if mode = 1 then (s.loadStart .memory).discover false
  else if mode = 2 then ((s.record 1 4).loadStart (.flash (s.fld 0 F.HM_BOOTREC_SLOT 0 == 1))).discover false
  else if s.boot = 0 then (s.loadStart (.flash s.pickSlot)).discover false
  else if s.boot = 3 then (s.loadStart .stream).discover false
  else s.setFld 1 F.PILOT_STAT_STATE 0 0

/-- The Pilot may act on a load that is due. -/
def State.loadsDue (s : State) (k : Nat) : Bool := s.pilot.due == k && (s.dev == .idle || s.dev == .safe || s.dev == .service)

def execBootLoad (s : State) : Out := when (s.loadsDue 1 || s.loadsDue 3) s s.bootLoad

/-- The resident copy is applied with the placement of the last full load; when it is absent, the stored chart is loaded. -/
def State.residentLoad (s : State) : State :=
  let r := s.residentChart
  match r.1 with
  | some (c, b, p) =>
    let t : State := { r.2 with pilot := { r.2.pilot with due := 0 } }
    (t.loadStart .resident).decideFit [] c b .resident (some p)
  | none => r.2.bootLoad

def execResidentChartLoad (s : State) : Out := when (s.loadsDue 2) s s.residentLoad

/-- Chips without a VALID report are absent (R211). -/
def execReportTimeout (s : State) : Out :=
  match s.pilot.load with
  | some l => when (!l.fitted && s.domainPilot && s.dev != .startCheck && decide (l.start + 20000000 ≤ s.clk.now)) s (s.discover true)
  | none => nothing s

/-! ## Batches on another chip (R213, R214, R216) -/

/-- A Manifest that the Pilot's queue can carry: a batch, START or an answer from a Pilot. -/
def pilotMsg (m : Manifest) : Bool :=
  mClass m == 1 && !mInline m && mSrcUnit m == 34 &&
    ((decide (2 ≤ mTag m) && decide (mTag m ≤ 8)) || mTag m == 0xFF || (decide (0x100 ≤ mTag m) && decide (mTag m ≤ 0x108)))

/-- Takes up the Manifest at the head of the Pilot's queue when it satisfies a test; one that is none of the Pilot's is dropped. -/
def State.pilotTake (s : State) (p : Manifest → Bool) (k : State → State) : State :=
  match s.blockTake 34 with
  | none => s
  | some (m, t) => if pilotMsg m && p m then k t else if pilotMsg m then s else t

/-- The Pilot loads for the domain Pilot: its load collects what the batches bring. -/
def State.domainLoad (s : State) : State :=
  match s.pilot.load with
  | some _ => s
  | none =>
    let s1 := s.setFld 1 F.PILOT_STAT_STATE 0 3
    { s1 with pilot := { s1.pilot with load := some { src := .domain, start := s.clk.now, fitted := true, todo := [.defaults] } } }

/-- Applies a batch and answers with its status. -/
def State.applyBatch (s : State) (typ : Nat) (a : Addr) (len : Nat) : State :=
  let r := State.readSpan .pilot (spanFuel len) s a.toNat len
  if r.st ≠ .ok then r.s.pilotSend 0 (0x100 + statusCode r.st) 0 0
  else match if typ = 7 then imgRecs r.s (len / 16) r.data else regRecs typ (len / 16) r.data with
    | .error _ => r.s.pilotSend 0 (0x100 + statusCode .poison) 0 0
    | .ok l =>
      let s1 := r.s.domainLoad
      let react : List LoadOp := if 2 < typ ∧ s.reactDone = false then [.reacted] else []
      (s1.withLoad fun x => { x with todo := x.todo ++ react ++ recOps true s.chip l ++ [.answer] }).pilotRun

/-- The Pilot waits for the domain Pilot, and no chart runs. -/
def State.takesBatches (s : State) : Bool := !s.domainPilot && !s.chartOn && (s.dev == .idle || s.dev == .safe)

def execChartBatch (secType : BitVec 8) (addr : Addr) (len : Nat) (x y : BitVec 8) (s : State) : Out :=
  when s.takesBatches s (s.pilotTake (fun m => mTag m == secType.toNat && decide (mTag m ≤ 8) && mPointer m == addr.toNat
    && mLength m == len && mNum m 6 1 == x.toNat && mNum m 7 1 == y.toNat) fun t => t.applyBatch secType.toNat addr len)

/-- Which partitions span chips is known to the Pilot that read the chart; no message tells another chip's, where it is open. -/
def State.spansOpen (s : State) : State :=
  let f := s.freeVal
  { f.2 with pilot := { f.2.pilot with spans := (List.range 16).filter (nbit f.1.toNat) } }

/-- START: the member sequencers start. -/
def execChartStart (s : State) : Out :=
  when s.takesBatches s (s.pilotTake (fun m => mTag m == 0xFF) fun t =>
    ((if t.reactDone then t else { t with reactDone := true }.reportScrub).chartRuns false).spansOpen)

/-- A remote chip answers its batch: a status other than OK fails the load. -/
def State.batchAnswer (s : State) (chip : Nat) (st : Status) : State :=
  match s.pilot.load with
  | none => s
  | some l =>
    if (Tab.find l.waits chip).isNone then s
    else
      let t := s.withLoad fun x => { x with waits := Tab.del x.waits chip }
      if st = .ok then t.pilotRun else t.pilotFail 18

def execBatchAnswer (chip : Fin 64) (st : Status) (s : State) : Out :=
  when (s.domainPilot && s.awake) s (s.pilotTake (fun m => mTag m == 0x100 + statusCode st
    && mNum m 6 1 == (s.fld 9 F.MESH_ORIGIN_OX 0 + chip.val % 8) % 256 && mNum m 7 1 == (s.fld 9 F.MESH_ORIGIN_OY 0 + chip.val / 8) % 128)
    fun t => t.batchAnswer chip st)

def execBatchTimeout (chip : Fin 64) (s : State) : Out :=
  match s.pilot.load with
  | none => nothing s
  | some l =>
    match Tab.find l.waits chip.val with
    | some t => when (decide (t ≤ s.clk.now)) s (s.pilotFail 16)
    | none => nothing s

/-- A Berth that is not AVAILABLE 1 ms after its power-on (R215). -/
def execBerthAvailableTimeout (n : Fin 32) (s : State) : Out :=
  match s.pilot.load with
  | none => nothing s
  | some l =>
    match Tab.find l.powered n.val with
    | some t => when (decide (t + 1000000 ≤ s.clk.now) && !s.serves n) s (s.pilotFail 17)
    | none => nothing s

/-- A NACK to a batch or START Manifest fails the load (R464). After START the load that ran is over; its chart is the running
one. -/
def State.pilotNack (s : State) : State :=
  match s.pilot.load with
  | some l => if l.waits = [] then s else s.pilotFail 16
  | none =>
    if s.chartOn && s.domainPilot && s.side != 1 then
      let src : LoadSrc := if s.boot = 0 then .flash (s.fld 1 F.PILOT_STAT_SLOT 0 == 1) else .memory
      s.bootFail { src := src, start := s.clk.now, applied := true } 16
    else s

/-! ## Commands (R219, R220, R225, R230 to R236) -/

/-- A write of PILOT_BOOT: GO is accepted once after a reset, with BOOT 01 or 10, while no chart runs (R219). One that is accepted
during a start check is the load that follows it. A Pilot that loads no chart (R246, R249, R296) ignores it, a busy one answers BUSY to
every write (R235). -/
def State.pilotBoot (s : State) (go : Bool) : State :=
  let t : State := { s with pilot := { s.pilot with bootUsed := true, due := 0 } }
  if s.pilotNotIdle then s.setFld 1 F.PILOT_STAT_LAST_STATUS 0 1
  else if !go || s.pilot.bootUsed || !(s.boot == 1 || s.boot == 2) || s.chartOn || !s.domainPilot then s
  else if s.dev = .startCheck then { t with pilot := { t.pilot with due := 3 } }
  else if s.pilotBarred then s
  else (t.loadStart .memory).discover false

/-- LOAD: the chart is verified, every Berth is drained, and the warm reset leads to the boot load of MODE 1. -/
def State.cmdLoad (s : State) : State :=
  let f := s.memChart
  match f.1 with
  | .error r => f.2.chartFail r
  | .ok b =>
    match wholeChart f.2 (some b.length) none true b with
    | .error r => f.2.chartFail r
    | .ok _ =>
      let on := (List.range 32).filter fun n => (f.2.dom n).power != .off
      let s1 := (f.2.setFld 0 F.HM_BOOTREC_MODE 0 1).setFld 1 F.PILOT_STAT_STATE 0 2
      let s2 := (on.foldl (fun (t : State) n => t.drainReq n false) s1).setFld 1 F.PILOT_CMD_CMD 0 1
      { s2 with pilot := { s2.pilot with load := some { src := .memory, mode := 1, start := s.clk.now, fitted := true, drains := on,
                                                         todo := [.reset] } } }.pilotRun

/-- RECHART of a partition. -/
def State.cmdRechart (s : State) (p : Nat) : State :=
  let f := s.memChart
  match f.1 with
  | .error r => f.2.chartFail r
  | .ok b =>
    match wholeChart f.2 (some b.length) (some p) true b with
    | .error r => f.2.chartFail r
    | .ok c =>
      let r := f.2.partRefusal p (s.pilot.spans.contains p) c
      if r ≠ 0 then f.2.chartFail r
      else
        let on := f.2.partBerths p
        let s1 := (f.2.setFld 1 F.PILOT_STAT_STATE 0 5).setFld 1 F.PILOT_CMD_CMD 0 2
        let s2 := (on.foldl (fun (t : State) n => t.drainReq n true) s1).lhDisarm (f.2.lhOfPart p)
        let ops := recOps true s.chip ((c.secs.filter (inPlace (s.fld 1 F.PILOT_STAT_PLACE 0))).flatMap (·.recs))
        { s2 with pilot := { s2.pilot with load := some { src := .rechart p, start := s.clk.now, fitted := true, drains := on,
                                                           part := on, coming := on, todo := ops } } }.pilotRun

/-- STORE: the verified chart is to be written to the slot that R222 would not choose. -/
def State.cmdStore (s : State) : State :=
  let f := s.memChart
  match f.1 with
  | .error r => f.2.chartFail r
  | .ok b =>
    match wholeChart f.2 (some b.length) none true b with
    | .error r => f.2.chartFail r
    | .ok c =>
      if 0x1FFFFC0 < c.hdr.total then f.2.chartFail 7
      else
        let t := nvTarget (f.2.slotSeq false) (f.2.slotSeq true)
        let s1 := (f.2.setFld 1 F.PILOT_STAT_STORING 0 1).setFld 1 F.PILOT_CMD_CMD 0 3
        { s1 with pilot := { s1.pilot with store := some { b := t.1, seq := t.2, chart := b } } }

/-- A write of PILOT_CMD, whose presence gate is decided as it arrives (R236) and which no record of a chart can make (R203). A Pilot
that is not idle answers BUSY to every write, a gated one included (R235); one that loads no chart ignores LOAD and RECHART
(R246, R296), and without the core clock it does nothing (R249). -/
def State.pilotCmd (s : State) (who : Requester) (v : U64) : State :=
  let cmd := F.PILOT_CMD_CMD.get v
  let cur := s.reg 1 .PILOT_CMD 0
  let s0 := if s.pilotNotIdle then s.setFld 1 F.PILOT_STAT_LAST_STATUS 0 1 else s
  if who = .pilot then s
  else if !s.presence then (if (v.toNat ^^^ cur.toNat) &&& 0xF0F = 0 then s0 else s0.presenceDenied 1 0x88)
  else if s.pilotNotIdle || s.pilot.due != 0 || !(s.dev == .idle || s.dev == .run || s.dev == .safe || s.dev == .service) then
    s.setFld 1 F.PILOT_STAT_LAST_STATUS 0 1
  else
    let s1 := s.setFld 1 F.PILOT_CMD_PART 0 (F.PILOT_CMD_PART.get v)
    if s.pllFailed 0 ∨ (cmd ≠ 3 ∧ s.pilotBarred = true) then s1
    else if cmd = 1 then s1.cmdLoad
    else if cmd = 2 then s1.cmdRechart (F.PILOT_CMD_PART.get v)
    else if cmd = 3 then s1.cmdStore
    else s1

/-- PILOT_CMD with a command and a partition. -/
def cmdValue (cmd part : Nat) : U64 := BitVec.ofNat 64 (cmd + part * 256)

def execPilotBoot (s : State) : Out := when s.awake s (s.pilotBoot true)
def execLoad (s : State) : Out := when s.awake s (s.pilotCmd (.host .pcie) (cmdValue 1 (s.fld 1 F.PILOT_CMD_PART 0)))
def execRechart (part : BitVec 4) (s : State) : Out := when s.awake s (s.pilotCmd (.host .pcie) (cmdValue 2 part.toNat))
def execStore (s : State) : Out := when s.awake s (s.pilotCmd (.host .pcie) (cmdValue 3 (s.fld 1 F.PILOT_CMD_PART 0)))

/-! ## The segments of a STORE (R225, R275, R281) -/

/-- Windows of 64 KiB that the slot header and the chart take. -/
def Store.windows (x : Store) : Nat := cdiv (64 + x.chart.length) 0x10000

/-- The next segment of a STORE: its place in the flash, the range it erases, and the bytes it programs. The slot header is last. -/
def State.storeNext (s : State) : Option (Nat × Nat × Nat) :=
  s.pilot.store.map fun x =>
    if x.next < x.windows then
      (slotBase x.b + x.next * 0x10000, 0x10000, if x.next = 0 then min x.chart.length (0x10000 - 64) else
        min 0x10000 (64 + x.chart.length - x.next * 0x10000))
    else (slotBase x.b, 0, 64)

/-- A granted segment runs to its end. After the header, the chart is verified again in its slot. -/
def State.storeSegment (s : State) : State :=
  match s.pilot.store with
  | none => s
  | some x =>
    let base := slotBase x.b
    let more (t : State) : State := { t with pilot := { t.pilot with store := some { x with next := x.next + 1 } } }
    if x.next < x.windows then
      let at_ := base + x.next * 0x10000
      let e := s.flashErase 0 at_ 0x10000
      more (if x.next = 0 then e.flashProgram 0 (base + 64) (x.chart.take (0x10000 - 64))
        else e.flashProgram 0 at_ (slice x.chart (x.next * 0x10000 - 64) 0x10000))
    else
      let t := s.flashProgram 0 base (nvHeader x.seq x.chart.length)
      match wholeChart t (some x.chart.length) none true (t.flashBytes 0 (base + 64) x.chart.length) with
      | .ok _ => t.storeEnd .ok
      | .error r => (t.storeEnd .ok).chartFail r

end Sys2Proof.Machine
end

