-- ==== Sys2Proof/Machine/Ports.lean ====
section
/-! DEFINITION. Register accesses and memory requests as commands (02_address_space.md R43 to R65, 00_scope.md R11, R722), the
counter clears, and the background scrub.
Log entries: 15 DESIGN CHOICE, 16 DEDUCED, 17 DESIGN CHOICE. -/

namespace Sys2Proof.Machine

/-! ## Register writes -/

/-- A register write, those of PILOT_BOOT and PILOT_CMD included. -/
def State.regStore (s : State) (who : Requester) (slot off : Nat) (v : U64) : Status × State :=
  if !s.slotServes slot off then (.down, s)
  else match regAt slot off with
    | some (.PILOT_BOOT, _) => (.ok, if who = .pilot then s else s.pilotBoot (nbit v.toNat 0))
    | some (.PILOT_CMD, _) => (.ok, s.pilotCmd who v)
    | _ => s.regSet who slot off v

/-- An operation at a register slot: R44 holds, and an atomic is a hole (R46). -/
def State.regOp (s : State) (who : Requester) (slot off : Nat) : MemOp → Ans
  | .read n => s.regRead who slot off n
  | .write d =>
    if regWrite44 d.length off then
      let r := s.regStore who slot off (BitVec.ofNat 64 (leNat d))
      ⟨r.1, [], r.2⟩
    else ⟨.poison, [], s.recordHole who⟩
  | _ => poison 8 (s.recordHole who)

/-- A write to a register slot from a requester: not performed on a parity error (R535) or when it breaks R44. -/
def State.regCommand (s : State) (who : Requester) (slot off size : Nat) (v : U64) (parityOk : Bool) : Status × State :=
  if !parityOk then (.poison, s.regParity slot 0)
  else if !regWrite44 size off then (.poison, s.recordHole who)
  else s.regStore who slot off v

/-- The program counter that a posted write of a requester carries. -/
def State.pcOf (s : State) : Requester → Nat
  | .berth n => (s.berth n).pc
  | _ => 0

def execRegisterWrite (who : Requester) (addr : Addr) (size : Nat) (v : U64) (parityOk : Bool) (s : State) : Out :=
  match s.place addr with
  | .regs slot off =>
    let r := s.regCommand who slot off size v parityOk
    when s.awake s (r.2.postedBad who r.1 addr.toNat (s.pcOf who) 0)
  | _ => nothing s

/-! ## Memory requests (R45 to R50) -/

/-- R45 binds a Crane, the Lighter and the board window. -/
def bound45 : Requester → Bool
  | .berth _ => true
  | .lighter => true
  | .remote _ _ _ => true
  | _ => false

/-- The place that a request of a requester names; one that breaks R45 is a hole, and another chip's request reaches only what the
board window does (R51). -/
def State.placeFor (s : State) (who : Requester) (a : Addr) (op : MemOp) : Place :=
  if bound45 who && !wellSized a.toNat (opLen op) then .hole
  else match who with
    | .remote _ _ _ => s.windowPlace (a.toNat % 2 ^ 40)
    | who => s.placeBy who a

/-- An operation of any length at an address of this chip's memory, block by block for a requester that R45 does not bind. -/
def State.memOp (s : State) (who : Requester) (p : Place) (a : Addr) (op : MemOp) : Ans :=
  if bound45 who then s.perform who p op
  else match op with
    | .read n => State.readSpan who (spanFuel n) s a.toNat n
    | .write d => State.writeSpan who (spanFuel d.length) s a.toNat d
    | op => s.perform who p op

/-- A request performed at its target: a register, memory here, or another chip. -/
def State.access (s : State) (who : Requester) (a : Addr) (op : MemOp) : Ans :=
  match s.placeFor who a op with
  | .regs slot off => s.regOp who slot off op
  | .remote c off => s.remoteAsk who c off op
  | .hole => poison (opLen op) (s.recordHole who)
  | p => s.memOp who p a op

/-- The completion of a request on its way to its requester. -/
def State.respond (s : State) (who : Requester) (tag : Nat) (epoch : BitVec 2) (st : Status) (d : List Byte) : State :=
  { s with resps := s.resps ++ [⟨who, tag, epoch, st, d⟩] }

/-- A Crane request touches the bytes `[a, a + len)`. -/
def State.tagHits (s : State) (t : Tag) (a : Addr) (len : Nat) : Bool :=
  hits (s.localAddr t.addr).toNat (opLen t.op) ((s.localAddr a).toNat, (s.localAddr a).toNat + len)

/-- A request is the oldest of its Berth that has not left and touches its bytes (R57). -/
def State.craneFirst (s : State) (n : Nat) (t : Tag) : Bool :=
  (s.berth n).tags.all fun x => x.2.sent || decide (t.ord ≤ x.2.ord) || !s.tagHits x.2 t.addr (opLen t.op)

/-- The outstanding Crane request that a MEMORY_REQUEST of a Berth carries: its tag, epoch, address and operation agree, it has
not left the Berth, and no older one that touches its bytes waits. -/
def State.craneAsks (s : State) (n tag : Nat) (epoch : BitVec 2) (a : Addr) (op : MemOp) : Option Tag :=
  match Tab.find (s.berth n).tags tag with
  | some t => if t.epoch = epoch ∧ t.addr = a ∧ t.op = op ∧ t.sent = false ∧ s.craneFirst n t = true then some t else none
  | none => none

/-- A Crane request reaches its target on this chip. One for another chip leaves through the mesh (R510). -/
def State.craneReaches (s : State) (n : Fin 32) (tag : Nat) (t : Tag) : State :=
  match s.placeFor (.berth n) t.addr t.op with
  | .remote _ _ => s
  | _ =>
    let s1 := s.setBerth n { s.berth n with tags := Tab.put (s.berth n).tags tag { t with sent := true, t0 := s.clk.now } }
    let r := s1.access (.berth n) t.addr t.op
    r.s.respond (.berth n) tag t.epoch r.st r.data

/-- The requests of a Berth that have not left and touch the bytes `[a, a + len)` of this chip reach their targets, the oldest first: a
later request of its Crane to these bytes is performed after them (R57). -/
def State.craneOlder (s : State) (n : Fin 32) (a : Addr) (len : Nat) : State :=
  let old := (s.berth n).tags.filter fun t => !t.2.sent && s.tagHits t.2 a len
  (old.foldl (fun (l : Tab (Nat × Tag)) t => Tab.put l t.2.ord t) []).foldl (fun u t => u.craneReaches n t.2.1 t.2.2) s

def execMemoryRequest (who : Requester) (tag : Nat) (epoch : BitVec 2) (addr : Addr) (op : MemOp) (s : State) : Out :=
  if !s.awake then nothing s
  else match who with
    | .berth n =>
      let s1 := s.craneNext n
      match s1.craneAsks n tag epoch addr op with
      | some t => .next (s1.craneReaches n tag t)
      | none => nothing s
    | who =>
      let r := s.access who addr op
      .next (r.s.respond who tag epoch r.st r.data)

/-! ## Counter clears (Tables 2-8, 2-11, 3-10, 3-11, 5-7, 10-7) -/

def execFmtCntClr (n : Fin 32) (s : State) : Out := when (s.serves n) s (s.clearReg (bslot n) .FMT_CNT 0)
def execFmcCntClr (n : Fin 32) (s : State) : Out := when (s.serves n) s (s.clearReg (bslot n) .FMC_CNT 0)
def execCraneCntClr (n : Fin 32) (s : State) : Out := when (s.serves n) s (s.clearReg (bslot n) .CRANE_CNT 0)
def execHoldEccClr (n : Fin 32) (s : State) : Out := when (s.serves n) s (s.clearReg (bslot n) .HOLD_ECC 0)
def execBasinEccClr (s : State) : Out := when (s.serves 43) s s.basinEccClr
def execMcEccClr (c : Fin 2) (s : State) : Out := when (s.serves (39 + c.val)) s (s.clearReg (0x0A + c.val) .MC_ECC 0)

/-! ## Background scrub (R65) -/

/-- The line that the scrub of a bank reads next. -/
def State.setScrub (s : State) (b l : Nat) : State := { s with scrubLine := Tab.set 0 s.scrubLine b l }

/-- The scrub reads its line of each bank that is not busy; a busy bank's line is repeated in the next interval. -/
def State.scrubBank (s : State) (busy b : Nat) : State :=
  if nbit busy b then s
  else
    let l := Tab.get 0 s.scrubLine b
    let w := (List.range 8).map fun i => basinBase + b * 0x100000 + l * 64 + i * 8
    (s.checkWords (.basin (b * 0x100000 + l * 64)) w).setScrub b ((l + 1) % 16384)

/-- The scrub interval has passed. -/
def State.scrubDue (s : State) : Bool :=
  let i := s.fld 0x0C F.BASIN_SCRUB_INTERVAL 0
  s.serves 43 && i != 0 && decide (s.scrubAt + 1000 * i ≤ s.clk.now)

def execBasinScrub (busy : BitVec 16) (s : State) : Out :=
  when s.scrubDue s ((List.range 16).foldl (fun t b => t.scrubBank busy.toNat b) { s with scrubAt := s.clk.now })

end Sys2Proof.Machine
end

