-- ==== Sys2Proof/Machine/Copy.lean ====
section
/-! DEFINITION. The completion of Crane requests, and the pieces of a COPY (03_berth_pairs.md R98, R102 to R104;
04_sequencer_work_orders.md R134, R161).
Log entries: 15 DESIGN CHOICE, 21 DEDUCED, 36 DEDUCED. -/

namespace Sys2Proof.Machine

/-- A write that a COPY makes: performed at once on this chip, or sent as a Crane request to another chip. -/
def State.copyWrite (s : State) (n : Fin 32) (q : U32) (a : Addr) (d : List Byte) : State :=
  match s.berthPlace n a with
  | .remote _ _ => s.craneSend n a (.write d) (.woWrite q)
  | _ =>
    let r := (s.craneOlder n a d.length).access (.berth n) a (.write d)
    r.s.woStatus n q r.st

/-- A read that a COPY makes, and the write that follows it. -/
def State.copyPiece (s : State) (n : Fin 32) (q : U32) (src dst : Addr) (len : Nat) : State :=
  if (s.dom n).faulted then s
  else match s.berthPlace n src with
  | .remote _ _ => s.craneSend n src (.read len) (.woRead q dst)
  | _ =>
    let r := (s.craneOlder n src len).access (.berth n) src (.read len)
    if r.st = .ok then r.s.copyWrite n q dst r.data else r.s.woStatus n q r.st

/-- A row of a COPY in pieces that keep to one block of 256 bytes at both ends: at most `fuel`. -/
def State.copyRow (n : Fin 32) (q : U32) : Nat → State → Nat → Nat → Nat → State
  | 0, s, _, _, _ => s
  | fuel + 1, s, src, dst, len =>
    if len = 0 then s
    else
      let k := min len (min (256 - src % 256) (256 - dst % 256))
      State.copyRow n q fuel (s.copyPiece n q (BitVec.ofNat 48 src) (BitVec.ofNat 48 dst) k) (src + k) (dst + k) (len - k)

/-- A tag is no longer outstanding; it is not reissued before a time (R30, R104). -/
def State.tagFree (s : State) (n tag until_ : Nat) : State :=
  let b := s.berth n
  s.setBerth n { b with tags := Tab.del b.tags tag, blocked := Tab.put b.blocked tag until_ }

/-- A tag completes with a status and data (R102, R134, R161). -/
def State.tagDone (s : State) (n : Fin 32) (tag : Nat) (t : Tag) (st : Status) (d : List Byte) : State :=
  let s1 := (s.tagFree n tag (s.after 1)).craneNext n
  match t.use with
  | .load => s1.setBerth n { s1.berth n with loaded := some (st, BitVec.ofNat 64 (leNat d)) }
  | .post pc word => if st = .ok then s1 else (s1.storeFlt n st t.addr pc word).record (bslot n) 15
  | .woRead q dst => if st = .ok then s1.copyWrite n q dst d else s1.woStatus n q st
  | .woWrite q => s1.woStatus n q st
  | .gone => s1

/-- A response meets an outstanding tag; a FAULTED Berth accepts and discards it (R98). -/
def State.craneCompletes (s : State) (n : Fin 32) (tag : Nat) (t : Tag) (r : Resp) : State :=
  if (s.dom n).faulted then s.tagFree n tag (s.after 1)
  else s.tagDone n tag t r.status r.data

/-- A response arrives. One that matches no outstanding request is discarded and counted (R104). -/
def execCraneCompletion (n : Fin 32) (tag : BitVec 8) (epoch : BitVec 2) (s : State) : Out :=
  match s.respFor n tag.toNat epoch with
  | none => nothing s
  | some r =>
    let s1 := { s with resps := s.resps.erase r }
    match Tab.find (s.berth n).tags tag.toNat with
    | none => .next (s1.count (bslot n) F.CRANE_CNT_LATE 0 1)
    | some t =>
      if t.epoch = epoch ∧ t.sent = true then .next (s1.craneCompletes n tag.toNat t r)
      else .next (s1.count (bslot n) F.CRANE_CNT_LATE 0 1)

/-- A request that has not completed 20 µs after its first beat left the Berth completes LINK_LOST and CRANE_TIMEOUT is recorded; its
tag rests for 100 µs (R103, R104). In a FAULTED Berth nothing waits for what it would have brought (R97, R98). -/
def State.craneTimeout (s : State) (n : Fin 32) (tag : Nat) (t : Tag) : State :=
  let s1 := s.count (bslot n) F.CRANE_CNT_TIMEOUT 0 1
  let s2 := if (s.dom n).faulted then s1 else s1.tagDone n tag t .linkLost []
  (s2.tagFree n tag (s.after 100000)).record (bslot n) 6

def execCraneTimeout (n : Fin 32) (tag : BitVec 8) (s : State) : Out :=
  match Tab.find (s.berth n).tags tag.toNat with
  | none => nothing s
  | some t => when (t.sent && decide (t.t0 + 20000 ≤ s.clk.now)) s (s.craneTimeout n tag.toNat t)

end Sys2Proof.Machine
end

