-- ==== Sys2Proof/Machine/LoadStore.lean ====
section
/-! DEFINITION. The sequencer's memory, message and wait instructions (04_sequencer_work_orders.md R131 to R150, R153;
09_sensor_intake_commit.md R334; 13_manifests_buoys.md R461, R468, R470, Table 13-5).
Log entries: 2 DESIGN CHOICE, 23 DESIGN CHOICE, 24 DEDUCED, 25 DEDUCED, 26 DEDUCED, 27 DEDUCED, 28 DEDUCED, 30 DEDUCED,
31 DEDUCED, 121 DEDUCED, 141 DEDUCED. -/

namespace Sys2Proof.Machine

/-! ## Memory access (R131 to R134) -/

/-- The Hold offset of an address in the Berth's own Hold (R132). -/
def State.ownOff (s : State) (n : Nat) (a : Addr) : Option Nat :=
  match s.berthPlace n a with
  | .hold m off => if m = n then some off else none
  | _ => none

/-- A load or atomic takes its completion: Gd takes the data, or zero for a status other than OK (R134). CAS writes Z; what it
writes to N and C, and to Z without an OK, is open. -/
def State.loadDone (s : State) (n d : Nat) (cas : Bool) (st : Status) (v : U64) : State :=
  let b := s.berth n
  let b1 := (b.setG d (if st = Status.ok then v else 0)).setE st
  if cas then
    let f := s.freeVal
    f.2.setBerth n { b1 with nf := nbit f.1.toNat 0, c := nbit f.1.toNat 1,
                             z := if st = Status.ok then v == b.gr d else nbit f.1.toNat 2 }.resume
  else s.setBerth n b1.resume

/-- The access needs no Crane: the own Hold, or the register bus (R132, R133). -/
def State.direct (s : State) (n : Nat) (a : Addr) : Bool :=
  match s.berthPlace n a with
  | .hold m _ => m == n
  | .regs _ _ => true
  | _ => false

/-- The Berth waits for a load or an atomic that its Crane has sent. -/
def State.loadWait (s : State) (n d : Nat) (cas : Bool) (a : Addr) (op : MemOp) : State :=
  let s1 := s.setBerth n { s.berth n with seq := .waiting, wait := .load (Fin.ofNat 16 d) cas, loaded := none }
  s1.craneSend n a op .load

/-- LD, LDW, FADD or CAS at an address: directly in the own Hold, over the register bus, or through the Crane (R132, R133). -/
def State.memLoad (s : State) (n : Fin 32) (d : Nat) (cas : Bool) (a : Addr) (op : MemOp) : State :=
  if s.direct n a then
    let r := s.access (.berth n) a op
    r.s.loadDone n d cas r.st (BitVec.ofNat 64 (leNat r.data))
  else s.loadWait n d cas a op

/-- A misaligned access is not performed: POISON, and SEQ_ACCESS (R131). -/
def State.misaligned (s : State) (n : Nat) (word : U32) : State := s.seqAccess n .poison word

/-- LD and LDW; one from a shadow line tagged with an outstanding group is held (R334). -/
def loadInstr (i : Instr) (n : Fin 32) (d : Fin 16) (a : Fin 8) (imm : BitVec 18) (size : Nat) (s : State) : Out :=
  s.issue i n fun word t =>
    let x := (t.berth n).ea a imm
    if x.toNat % size ≠ 0 then (t.misaligned n word).loadDone n d false .poison 0
    else
      let ids := match t.ownOff n x with
        | some off => t.lineCgs n off size
        | none => []
      if ids ≠ [] then t.setBerth n { t.berth n with seq := .waiting, wait := .hold ids }
      else t.memLoad n d false x (.read size)

def execLd (n : Fin 32) (d : Fin 16) (a : Fin 8) (imm : BitVec 18) (s : State) : Out := loadInstr (.ld n d a imm) n d a imm 8 s
def execLdw (n : Fin 32) (d : Fin 16) (a : Fin 8) (imm : BitVec 18) (s : State) : Out := loadInstr (.ldw n d a imm) n d a imm 4 s

/-- An access that R153 holds when it leaves the own Hold. -/
def State.outHeld (s : State) (n : Nat) (a : Addr) (k : State) : State :=
  if (s.ownOff n a).isSome then k else s.unlessHeld n k

/-- A posted store: to the own Hold and over the register bus it is performed at once, elsewhere the Crane carries it. The
instruction goes on (R133). -/
def State.memStore (s : State) (n : Fin 32) (word : U32) (a : Addr) (d : List Byte) : State :=
  let pc := (s.berth n).pc
  let s1 := s.setBerth n (s.berth n).next
  if s.direct n a then
    let r := s1.access (.berth n) a (.write d)
    r.s.postedBad (.berth n) r.st a.toNat pc word
  else s1.craneSend n a (.write d) (.post pc word)

/-- ST and STW. -/
def storeInstr (i : Instr) (n : Fin 32) (d : Fin 16) (a : Fin 8) (imm : BitVec 18) (size : Nat) (s : State) : Out :=
  s.issue i n fun word t =>
    let b := t.berth n
    let x := b.ea a imm
    if x.toNat % size ≠ 0 then let t1 := t.misaligned n word; t1.setBerth n (t1.berth n).next
    else t.outHeld n x (t.memStore n word x (leBytes size (b.gr d).toNat))

def execSt (n : Fin 32) (d : Fin 16) (a : Fin 8) (imm : BitVec 18) (s : State) : Out := storeInstr (.st n d a imm) n d a imm 8 s
def execStw (n : Fin 32) (d : Fin 16) (a : Fin 8) (imm : BitVec 18) (s : State) : Out := storeInstr (.stw n d a imm) n d a imm 4 s

/-- FADD and CAS: the operation from Gd and Gb. -/
def atomicInstr (i : Instr) (n : Fin 32) (d : Fin 16) (a : Fin 8) (cas : Bool) (f : Berth → MemOp) (s : State) : Out :=
  s.issue i n fun word t =>
    let b := t.berth n
    let x := b.ar a
    if x.toNat % 8 ≠ 0 then (t.misaligned n word).loadDone n d cas .poison 0
    else t.outHeld n x (t.memLoad n d cas x (f b))

def execFadd (n : Fin 32) (d : Fin 16) (a : Fin 8) (b : Fin 16) (s : State) : Out :=
  atomicInstr (.fadd n d a b) n d a false (fun x => .fetchAdd (x.gr b)) s
def execCas (n : Fin 32) (d : Fin 16) (a : Fin 8) (b : Fin 16) (s : State) : Out :=
  atomicInstr (.cas n d a b) n d a true (fun x => .cas (x.gr d) (x.gr b)) s

/-- The completion of an outstanding load or atomic retires the waiting instruction. -/
def execLoadComplete (n : Fin 32) (s : State) : Out :=
  match (s.berth n).wait, (s.berth n).loaded with
  | .load d cas, some (st, v) =>
    when (s.runs n) s ((s.setBerth n { s.berth n with loaded := none }).loadDone n d cas st v)
  | _, _ => nothing s

/-! ## Messages (R147 to R149, Table 13-5) -/

/-- The Hold offset of the Manifest at an address: in the own Hold, aligned to 32 bytes. -/
def State.manifestAt (s : State) (n : Fin 32) (a : Addr) : Option Nat :=
  match s.ownOff n a with
  | some off => if off % 32 = 0 then some off else none
  | none => none

/-- The pointer range of a Manifest overlaps the shadow region (R153), wherever the range begins. -/
def State.pointsShadow (s : State) (n : Nat) (m : Manifest) : Bool :=
  !mInline m && hits (s.localAddr (BitVec.ofNat 48 (mPointer m))).toNat (mLength m)
    (holdBase n + (s.shadowRange n).1, holdBase n + (s.shadowRange n).2)

/-- MSG_BAD: the Manifest is refused with POISON. -/
def State.sendBad (s : State) (n reason : Nat) (m : Manifest) (d : Nat) : State :=
  let s1 := (s.msgErr n 16 reason m).record (bslot n) 16
  s1.setBerth n ((s1.berth n).answer d .poison)

/-- The time allowed to a SEND in nanoseconds (R468, Table 13-12). -/
def State.moorNs (s : State) (n : Nat) : Nat :=
  let m := s.fld (bslot n) F.MSG_CFG_MOOR 0
  1000 * (if m = 0 ∨ 10000 < m then 100 else m)

/-- A Manifest that can be accepted is; otherwise SEND waits and SENDNB answers BUSY. -/
def State.sendNow (s : State) (n : Nat) (d : Fin 16) (m : Manifest) (nb : Bool) : State :=
  if s.canAccept n m then
    let s1 := s.accept n m
    s1.setBerth n ((s1.berth n).answer d .ok)
  else if nb then s.setBerth n ((s.berth n).answer d .busy)
  else s.setBerth n { s.berth n with seq := .waiting, wait := .send d m (s.after (s.moorNs n)) }

/-- A WO, SEND or SENDNB that issues in the cycle in which its Berth enters DRAIN answers DOWN and the sequencer stops (R148, R170);
in every other cycle `k` is the instruction. -/
def unlessDrain (i : Instr) (n : Fin 32) (d : Fin 16) (s : State) (k : Out) : Out :=
  if s.drainEdge n && decide ((s.berth n).pc < s.progWords n) then
    let r := s.fetch n
    if r.st = Status.ok ∧ seqWord i = some (BitVec.ofNat 32 (leNat r.data)) then
      .next (r.s.setBerth n ({ r.s.berth n with drainEdge := false, stopReq := true }.answer d .down))
    else .next s
  else k

/-- SEND and SENDNB. A Manifest in a shadow line that is tagged with an outstanding group is held as a load of it is (R26, R334). -/
def sendInstr (i : Instr) (n : Fin 32) (d : Fin 16) (a : Fin 8) (nb : Bool) (s : State) : Out :=
  unlessDrain i n d s <| s.issue i n fun word t =>
    match t.manifestAt n ((t.berth n).ar a) with
    | none =>
      let t1 := t.seqAccess n .poison word
      t1.setBerth n ((t1.berth n).answer d .poison)
    | some off =>
      let ids := t.lineCgs n off 32
      let r := t.readAt (.berth n) (.hold n off) 32
      let m : Manifest := BitVec.ofNat 256 (leNat r.data)
      if ids ≠ [] then t.setBerth n { t.berth n with seq := .waiting, wait := .hold ids }
      else if r.st ≠ .ok then r.s.setBerth n ((r.s.berth n).answer d r.st)
      else
        let bad := r.s.msgBad n m
        if bad ≠ 0 then r.s.sendBad n bad m d
        else if r.s.pointsShadow n m then r.s.unlessHeld n (r.s.sendNow n d m nb)
        else r.s.sendNow n d m nb

def execSend (n : Fin 32) (d : Fin 16) (a : Fin 8) (s : State) : Out := sendInstr (.send n d a) n d a false s
def execSendnb (n : Fin 32) (d : Fin 16) (a : Fin 8) (s : State) : Out := sendInstr (.sendnb n d a) n d a true s

/-- A waiting SEND is accepted (R461, R470). -/
def execSendAccept (n : Fin 32) (s : State) : Out :=
  match (s.berth n).wait with
  | .send d m _ =>
    let s1 := s.accept n m
    when (s.serves n && s.canAccept n m) s (s1.setBerth n ((s1.berth n).answer d .ok))
  | _ => nothing s

/-- The mooring timeout: STALLED, the Manifest is withdrawn, QSTALL (R468). -/
def execMooringTimeout (n : Fin 32) (s : State) : Out :=
  match (s.berth n).wait with
  | .send d m t =>
    let s1 := (s.count (bslot n) F.MSG_STAT_STALLED 0 1).record (bslot n) 13
    when (s.serves n && decide (t ≤ s.clk.now) && !s.canAccept n m) s (s1.setBerth n ((s1.berth n).answer d .stalled))
  | _ => nothing s

/-- RELQ (R149). -/
def execRelq (n : Fin 32) (q : Fin 4) (s : State) : Out :=
  s.issue (.relq n q) n fun _ t => let t1 := t.release n q; t1.setBerth n (t1.berth n).next

/-! ## POLL (R139 to R141) -/

/-- The POLL is satisfied: the difference of the counts, as a signed 32-bit value, is zero or positive. -/
def pollHolds (word : U64) (target : U32) : Bool := decide ((bitsOf word 31 0 + 2 ^ 32 - target.toNat) % 2 ^ 32 < 2 ^ 31)

/-- A POLL ends: Gd takes the Buoy word, E says whether it timed out. -/
def Berth.pollEnd (b : Berth) (d : Nat) (v : U64) (late : Bool) : Berth := { b.setG d v with e := late }.resume

/-- The unit of a POLL in nanoseconds. -/
def pollUnit (u : Nat) : Nat := if u = 0 then 10 else if u = 1 then 1000 else 1000000

/-- Reads the Buoy word of a waiting POLL. -/
def State.pollWord (s : State) (n : Fin 32) (off : Nat) : Ans := s.readAt (.berth n) (.hold n off) 8

def execPoll (n : Fin 32) (d : Fin 16) (a : Fin 8) (b : Fin 16) (unit : BitVec 2) (count : BitVec 12) (s : State) : Out :=
  s.issue (.poll n d a b unit count) n fun word t =>
    if unit = 3 then t.seqStop n 8 5 word
    else
      let none' (u : State) : State := let u1 := u.seqAccess n .poison word; u1.setBerth n ((u1.berth n).pollEnd d 0 true)
      match t.ownOff n ((t.berth n).ar a) with
      | none => none' t
      | some off =>
        if off % 8 ≠ 0 then none' t
        else
          let r := t.pollWord n off
          let v : U64 := BitVec.ofNat 64 (leNat r.data)
          let target : U32 := ((r.s.berth n).gr b).setWidth 32
          if r.st ≠ .ok then none' r.s
          else if pollHolds v target then r.s.setBerth n ((r.s.berth n).pollEnd d v false)
          else if count = 0 then r.s.setBerth n ((r.s.berth n).pollEnd d v true)
          else r.s.setBerth n { r.s.berth n with seq := .waiting,
                                                 wait := .poll d off target (r.s.tide.toNat + count.toNat * pollUnit unit.toNat) }

def execPollSatisfied (n : Fin 32) (s : State) : Out :=
  match (s.berth n).wait with
  | .poll d off target _ =>
    let r := s.pollWord n off
    let v : U64 := BitVec.ofNat 64 (leNat r.data)
    when (s.serves n && r.st == Status.ok && pollHolds v target) s (r.s.setBerth n ((r.s.berth n).pollEnd d v false))
  | _ => nothing s

def execPollTimeout (n : Fin 32) (s : State) : Out :=
  match (s.berth n).wait with
  | .poll d off target t =>
    let r := s.pollWord n off
    let v : U64 := BitVec.ofNat 64 (leNat r.data)
    when (s.serves n && decide (t ≤ s.tide.toNat) && !(r.st == Status.ok && pollHolds v target)) s
      (r.s.setBerth n ((r.s.berth n).pollEnd d v true))
  | _ => nothing s

/-! ## FENCE and STAMP (R144, R150, R153) -/

/-- What a FENCE issued now waits for. -/
def Berth.fenceWait (b : Berth) (w : Bool) : Wait :=
  .fence ((b.tags.filter fun t => fenced t.2.op t.2.use).map fun t => (t.1, t.2.epoch)) (if w then b.woq.map (·.seq) else [])
    (if b.held.any fun h => fenced h.2.1 h.2.2 then b.held.length else 0)

/-- A FENCE can retire. -/
def Berth.fenceDone (b : Berth) (w : Wait) : Bool :=
  match w with
  | .fence tags wos held =>
    held == 0 && tags.all (fun t => match Tab.find b.tags t.1 with
      | some x => x.epoch != t.2
      | none => true) && wos.all fun q => b.woq.all fun o => o.seq != q
  | _ => false

def execFence (n : Fin 32) (w : Bool) (s : State) : Out :=
  s.issue (.fence n w) n fun _ t =>
    let b := t.berth n
    if b.fenceDone (b.fenceWait w) then t.setBerth n b.next else t.setBerth n { b with seq := .waiting, wait := b.fenceWait w }

def execFenceRetire (n : Fin 32) (s : State) : Out :=
  when (s.serves n && (s.berth n).fenceDone (s.berth n).wait) s (s.setBerth n (s.berth n).resume)

/-- STAMP: dropped with SEQ_ACCESS when the Lighthouse is not assigned to the Berth's partition. -/
def execStamp (n : Fin 32) (a : Fin 16) (idx : Fin 64) (s : State) : Out :=
  s.issue (.stamp n a idx) n fun word t =>
    t.unlessHeld n
      (if t.lhOfPart (t.fld (bslot n) F.BERTH_CFG_PART 0) idx then
        { t with stamps := t.stamps ++ [(n.val, idx.val, (t.berth n).gr a)] }.setBerth n (t.berth n).next
      else let t1 := t.seqAccess n .poison word; t1.setBerth n (t1.berth n).next)

end Sys2Proof.Machine
end

