-- ==== Sys2Proof/Machine/Desc.lean ====
section
/-! DEFINITION. The work-order descriptor: its fields, the regions of its tensors and the checks at issue
(04_sequencer_work_orders.md Tables 4-5 to 4-9, 4-11, R154 to R157, R165, R166; 05_number_formats.md R177, R182, R188;
10_image_operators.md R350 to R352, R358; 11_attention_wharfinger.md R380, R390; 09_sensor_intake_commit.md R330 to R333).
Log entries: 34 DEDUCED, 35 DEDUCED, 39 DEDUCED, 40 DEDUCED. -/

namespace Sys2Proof.Machine

/-! ## Fields -/

def woOp (d : BitVec 512) : Nat := wBits d 7 0
def woFa (d : BitVec 512) : Nat := wBits d 11 8
def woFb (d : BitVec 512) : Nat := wBits d 15 12
def woFc (d : BitVec 512) : Nat := wBits d 19 16
def woLa (d : BitVec 512) : Nat := wBits d 21 20
def woLb (d : BitVec 512) : Nat := wBits d 23 22
def woLc (d : BitVec 512) : Nat := wBits d 25 24

/-- D0 to D3. -/
def woDim (d : BitVec 512) (k : Nat) : Nat := wBits d (64 + 16 * k + 15) (64 + 16 * k)

/-- Bits of PARAM and of PARAM2. -/
def woParam (d : BitVec 512) (hi lo : Nat) : Nat := wBits d (128 + hi) (128 + lo)
def woParam2 (d : BitVec 512) (hi lo : Nat) : Nat := wBits d (480 + hi) (480 + lo)

/-- A tensor descriptor (Table 4-6). -/
structure Ten where
  addr : Nat
  s1 : Nat
  s2 : Nat

/-- T_A, T_B and T_C. -/
def woTen (d : BitVec 512) (i : Nat) : Ten :=
  ⟨wBits d (192 + 96 * i + 47) (192 + 96 * i), wBits d (192 + 96 * i + 71) (192 + 96 * i + 48),
   wBits d (192 + 96 * i + 95) (192 + 96 * i + 72)⟩

/-! ## What each opcode uses -/

/-- A tensor that a work order uses: its place, rows of a plane, planes, bytes of a row, and whether it is read and written. -/
structure Use where
  t : Ten
  rows : Nat
  planes : Nat
  bytes : Nat
  rd : Bool
  wr : Bool

/-- The region of a tensor: its first byte and the byte after its last (R157). -/
def Use.lo (u : Use) : Nat := u.t.addr
def Use.hi (u : Use) : Nat := u.t.addr + (u.planes - 1) * u.t.s2 + (u.rows - 1) * u.t.s1 + u.bytes

/-- A feature map (Table 10-1). -/
def mapUse (t : Ten) (f lay w h c : Nat) (rd wr : Bool) : Use :=
  if lay = 0 then ⟨t, h, 1, rowBytes f (w * c), rd, wr⟩
  else if lay = 1 then ⟨t, h, cdiv c 32, rowBytes f (w * 32), rd, wr⟩
  else ⟨t, h / 8, 1, w / 8 * c * blockBytes lay, rd, wr⟩

/-- The geometry of CONV and DWCONV, and of POOL (Table 10-2). -/
def convGeo (d : BitVec 512) : Geo :=
  { kw := woParam d 3 0, kh := woParam d 7 4, sw := 2 ^ woParam d 9 8, sh := 2 ^ woParam d 11 10, dil := woParam d 13 12 + 1,
    pad := woParam d 15 14 != 2, clamp := woParam d 15 14 == 1, top := woParam d 16 16 == 1, bottom := woParam d 17 17 == 1,
    left := woParam d 18 18 == 1, right := woParam d 19 19 == 1 }
def poolGeo (d : BitVec 512) : Geo :=
  { kw := woParam d 3 0 + 1, kh := woParam d 7 4 + 1, sw := woParam d 11 8 + 1, sh := woParam d 15 12 + 1, dil := 1,
    pad := woParam d 17 17 == 1, clamp := false, top := woParam d 20 20 == 1, bottom := woParam d 21 21 == 1,
    left := woParam d 22 22 == 1, right := woParam d 23 23 == 1 }

/-- The factor of S2D and D2S. -/
def s2dFactor (d : BitVec 512) : Nat := 2 ^ woParam d 1 0

/-- Groups of a CONV; DWCONV has one a channel (R356). -/
def woGroups (d : BitVec 512) : Nat := if woOp d = 3 then woDim d 2 else woParam d 63 48

/-- ACC of MATMUL, CONV and DWCONV. -/
def woAcc (d : BitVec 512) : Bool := if woOp d = 1 then woParam d 0 0 == 1 else woParam d 20 20 == 1

/-- ELEM reads B. -/
def elemBinary (d : BitVec 512) : Bool := decide (woParam d 7 0 ≤ 4) && woParam d 8 8 == 0

/-- FLAGS of ATTNBLK (Table 11-8). -/
def attnInit (d : BitVec 512) : Bool := nbit (woDim d 2) 0
def attnFinal (d : BitVec 512) : Bool := nbit (woDim d 2) 1
def attnCausal (d : BitVec 512) : Bool := nbit (woDim d 2) 2
def attnMerge (d : BitVec 512) : Bool := nbit (woDim d 2) 3

/-- T_A as used. -/
def woA (d : BitVec 512) : Use :=
  let t := woTen d 0
  let f := woFa d
  let n := woDim d
  match woOp d with
  | 1 => ⟨t, n 0, n 3, rowBytes f (n 1), true, false⟩
  | 5 => ⟨t, n 1, n 2 * n 3, rowBytes f (n 0), true, false⟩
  | 6 => ⟨t, n 1, n 2 * n 3, rowBytes f (n 0), true, false⟩
  | 13 => ⟨t, n 1, n 2 * n 3, rowBytes f (n 0), true, false⟩
  | 14 => ⟨t, n 1, n 2, n 0, true, false⟩
  | 12 => ⟨t, n 1, n 2, 2 * n 0, true, false⟩
  | 11 => ⟨t, n 0, 1, if attnMerge d then 8 + 4 * n 1 else rowBytes f (n 1), true, false⟩
  | _ => mapUse t f (woLa d) (n 0) (n 1) (n 2) true false

/-- T_B as used, where the opcode has one. -/
def woB (d : BitVec 512) : Option Use :=
  let t := woTen d 1
  let f := woFb d
  let n := woDim d
  match woOp d with
  | 1 => some (if woParam d 1 1 = 1 then ⟨t, n 2, n 3, rowBytes f (n 1), true, false⟩ else ⟨t, n 1, n 3, rowBytes f (n 2), true, false⟩)
  | 2 => some ⟨t, n 3, 1, rowBytes f ((convGeo d).kh * (convGeo d).kw * (n 2 / woGroups d)), true, false⟩
  | 3 => some ⟨t, n 2, 1, rowBytes f ((convGeo d).kh * (convGeo d).kw), true, false⟩
  | 5 => if elemBinary d then some ⟨t, n 1, n 2 * n 3, rowBytes f (n 0), true, false⟩ else none
  | 11 => if attnFinal d then some ⟨t, n 0, 1, rowBytes f (n 1), false, true⟩ else none
  | 12 => some ⟨t, n 1, n 2, 2 * n 0, true, false⟩
  | _ => none

/-- T_C as used, where the opcode has one. -/
def woC (d : BitVec 512) : Option Use :=
  let t := woTen d 2
  let f := woFc d
  let n := woDim d
  match woOp d with
  | 1 => some ⟨t, n 0, n 3, rowBytes f (n 2), woAcc d, true⟩
  | 2 => some (mapUse t f (woLc d) ((convGeo d).wOut (n 0)) ((convGeo d).hOut (n 1)) (n 3) (woAcc d) true)
  | 3 => some (mapUse t f (woLc d) ((convGeo d).wOut (n 0)) ((convGeo d).hOut (n 1)) (n 2) (woAcc d) true)
  | 4 => some (mapUse t f (woLc d) ((poolGeo d).wOut (n 0)) ((poolGeo d).hOut (n 1)) (n 2) false true)
  | 5 => some ⟨t, n 1, n 2 * n 3, rowBytes f (n 0), false, true⟩
  | 6 => some ⟨t, n 2, n 3, rowBytes f (n 1), false, true⟩
  | 7 => some (mapUse t f 0 (n 0 / s2dFactor d) (n 1 / s2dFactor d) (n 2 * s2dFactor d * s2dFactor d) false true)
  | 8 => some (mapUse t f 0 (n 0 * s2dFactor d) (n 1 * s2dFactor d) (n 2 / (s2dFactor d * s2dFactor d)) false true)
  | 9 => some (mapUse t f (woLc d) (n 0) (n 1) (n 2) false true)
  | 10 => some (mapUse t f (woLc d) (n 0) (n 1) (n 2) false true)
  | 11 => some ⟨t, n 0, 1, 8 + 4 * n 1, !attnInit d, true⟩
  | 12 => none
  | 13 => some ⟨t, n 1, n 2 * n 3, rowBytes f (n 0), false, true⟩
  | 14 => some ⟨t, n 1, n 2, n 0, false, true⟩
  | _ => none

/-- The tensors of a work order. -/
def woUses (d : BitVec 512) : List Use := woA d :: (woB d).toList ++ (woC d).toList

/-! ## Formats, dimensions, layouts, fields (Table 4-11 reasons 3, 4, 7, 8) -/

/-- Formats that POOL, S2D and D2S take. -/
def mapFmts : List Nat := [1, 2, 4, 5, 6, 7, 8]

/-- Formats that the array writes (R188). -/
def outFmts : List Nat := [3, 8, 6, 7, 4, 5, 1, 2]

/-- The formats are allowed for the opcode. -/
def woFmtOk (d : BitVec 512) : Bool :=
  let a := woFa d
  let b := woFb d
  let c := woFc d
  decide (a ≤ 10) && decide (b ≤ 10) && decide (c ≤ 10) &&
  match woOp d with
  | 1 => (pairKind a b).isSome && outFmts.contains c
  | 2 => (pairKind a b).isSome && outFmts.contains c
  | 3 => (pairKind a b).isSome && a != 9 && outFmts.contains c
  | 4 => a == c && mapFmts.contains a
  | 5 => a != 10 && c != 10 && (!elemBinary d || b != 10)
  | 6 => a != 10 && c != 10
  | 7 => a == c && mapFmts.contains a
  | 8 => a == c && mapFmts.contains a
  | 9 => a == c && [1, 4].contains a
  | 10 => a == c && [1, 4].contains a
  | 11 => c == 8 && (if attnFinal d then [8, 6, 7, 4].contains b else b == 0)
  | 12 => a == 6 && b == 6 && c == 0
  | 13 => a != 10 && c != 10
  | _ => a == 0 && b == 0 && c == 0

/-- No dimension that the opcode uses is zero. LAYER of a KVAPPEND, and FLAGS and QPOS of an ATTNBLK, may be. -/
def woDimOk (d : BitVec 512) : Bool :=
  let used := if woOp d = 11 then [0, 1] else if woOp d = 12 then [0, 1, 2] else [0, 1, 2, 3]
  used.all fun k => woDim d k != 0

/-- The layouts are allowed for the tensors. -/
def woLayOk (d : BitVec 512) : Bool :=
  let a := woLa d
  let b := woLb d
  let c := woLc d
  match woOp d with
  | 1 => a == 0 && b == 0 && c == 0
  | 2 => decide (a ≤ 1) && b == 0 && decide (c ≤ 1)
  | 3 => decide (a ≤ 1) && b == 0 && decide (c ≤ 1)
  | 4 => decide (a ≤ 1) && decide (c ≤ 1)
  | 5 => a == 0 && (!elemBinary d || b == 0) && c == 0
  | 9 => decide (a ≤ 1) && decide (2 ≤ c)
  | 10 => decide (2 ≤ a) && decide (c ≤ 1)
  | 11 => a == 0 && b == 0 && c == 0
  | 12 => a == 0 && b == 0 && c == 0
  | 14 => a == 0 && b == 0 && c == 0
  | _ => a == 0 && c == 0

/-- The fields marked zero are zero. -/
def woZeroOk (d : BitVec 512) : Bool :=
  wBits d 31 30 == 0 && wBits d 63 61 == 0 && (wBits d 26 26 == 1 || wBits d 43 32 == 0)
    && (woOp d != 12 || wBits d 479 384 == 0) && (woOp d != 11 || (woDim d 2 < 16 && (attnFinal d || wBits d 383 288 == 0)))

/-! ## PARAM and PARAM2 (reason 12) -/

/-- STRIDE1 and STRIDE2 of an image operator's tensor keep R350. -/
def Use.strideOk (u : Use) (lay : Nat) : Bool :=
  decide (u.bytes ≤ u.t.s1) && (if lay = 1 then decide ((u.rows - 1) * u.t.s1 + u.bytes ≤ u.t.s2) else u.t.s2 == 0)

/-- Two byte intervals overlap. -/
def overlaps (a b : Nat × Nat) : Bool := decide (a.1 < b.2) && decide (b.1 < a.2)

/-- A region with the own chip's window taken back to the local map (R157). -/
def State.region (s : State) (u : Use) : Nat × Nat :=
  let lo := (s.localAddr (BitVec.ofNat 48 u.lo)).toNat
  (lo, lo + (u.hi - u.lo))

/-- R350 and R351 for an image operator. -/
def State.imageOk (s : State) (d : BitVec 512) : Bool :=
  match woC d with
  | none => true
  | some c =>
    (woA d).strideOk (woLa d) && c.strideOk (woLc d) && (woB d).all (fun b => b.strideOk 0)
      && !overlaps (s.region (woA d)) (s.region c) && (woB d).all fun b => !overlaps (s.region b) (s.region c)

/-- Q4S rows hold a multiple of 32 elements (R177). -/
def q4sRows (d : BitVec 512) : Bool :=
  let ok (f k : Nat) : Bool := f != 9 || k % 32 == 0
  match woOp d with
  | 1 => ok (woFa d) (woDim d 1) && ok (woFb d) (if woParam d 1 1 = 1 then woDim d 1 else woDim d 2)
  | 2 => ok (woFa d) (woDim d 2 / woGroups d)
  | 5 => ok (woFa d) (woDim d 0) && ok (woFc d) (woDim d 0) && (!elemBinary d || ok (woFb d) (woDim d 0))
  | 6 => ok (woFa d) (woDim d 0) && ok (woFc d) (woDim d 1)
  | 13 => ok (woFa d) (woDim d 0) && ok (woFc d) (woDim d 0)
  | _ => true

/-- Padding fields: EDGES is zero when nothing is padded, and the output has a size (R352). -/
def geoOk (d : BitVec 512) (g : Geo) : Bool :=
  (g.pad || !(g.top || g.bottom || g.left || g.right)) && g.wOut (woDim d 0) != 0 && g.hOut (woDim d 1) != 0

/-- PARAM of CONV and DWCONV. -/
def convOk (d : BitVec 512) : Bool :=
  let g := convGeo d
  let size (k : Nat) : Bool := decide (1 ≤ k) && decide (k ≤ 11)
  size g.kw && size g.kh && decide (woParam d 9 8 ≤ 2) && decide (woParam d 11 10 ≤ 2) && decide (woParam d 15 14 ≤ 2)
    && woParam d 31 21 == 0
    && (if woOp d = 2 then
          decide (1 ≤ woGroups d) && decide (woGroups d ≤ 4096) && woDim d 2 % woGroups d == 0 && woDim d 3 % woGroups d == 0
        else woParam d 63 48 == 0 && woDim d 3 == woDim d 2)
    && geoOk d g

/-- The pool checks of R380 that KVAPPEND and ATTNBLK share. -/
def State.poolFits (s : State) (n : Nat) (d : BitVec 512) (dim : Nat) (k : Pool → Bool) : Bool :=
  match s.poolOf (woParam2 d 11 0) with
  | none => false
  | some i => let p := s.poolCfg i; p.part == s.fld (bslot n) F.BERTH_CFG_PART 0 && p.dim == dim && k p

/-- PARAM, PARAM2 and the shape are allowed for the opcode. -/
def State.woParamOk (s : State) (n : Nat) (d : BitVec 512) : Bool :=
  let p2 := woOp d == 11 || woOp d == 12 || woParam2 d 31 0 == 0
  p2 && q4sRows d &&
  match woOp d with
  | 1 => woParam d 31 2 == 0 && woParam d 63 48 == 0
  | 2 => convOk d && s.imageOk d
  | 3 => convOk d && s.imageOk d
  | 4 => decide (woParam d 3 0 ≤ 7) && decide (woParam d 7 4 ≤ 7) && decide (woParam d 11 8 ≤ 7) && decide (woParam d 15 12 ≤ 7)
      && woParam d 19 18 == 0 && woParam d 63 24 == 0 && woDim d 3 == 1 && geoOk d (poolGeo d) && s.imageOk d
  | 5 => decide (woParam d 7 0 ≤ 11) && woParam d 31 9 == 0
  | 6 => woParam d 63 2 == 0
  | 7 => woParam d 63 2 == 0 && woParam d 1 0 != 0 && woDim d 3 == 1 && woDim d 0 % s2dFactor d == 0
      && woDim d 1 % s2dFactor d == 0 && s.imageOk d
  | 8 => woParam d 63 2 == 0 && woParam d 1 0 != 0 && woDim d 3 == 1 && woDim d 2 % (s2dFactor d * s2dFactor d) == 0 && s.imageOk d
  | 9 => woParam d 63 0 == 0 && woDim d 3 == 1 && woDim d 0 % 8 == 0 && woDim d 1 % 8 == 0 && s.imageOk d
  | 10 => woParam d 63 0 == 0 && woDim d 3 == 1 && woDim d 0 % 8 == 0 && woDim d 1 % 8 == 0 && s.imageOk d
  | 11 => woParam2 d 15 12 == 0 && decide (woDim d 0 ≤ 32) && woParam d 31 0 % 64 == 0
      && decide (woParam d 31 0 ≤ woParam d 63 32) && !(attnMerge d && attnInit d)
      && !(attnMerge d && woParam d 63 32 != woParam d 31 0)
      && s.poolFits n d (woDim d 1) fun p => p.dec == woFa d && decide (woParam2 d 31 16 < p.units)
  | 12 => woParam d 63 48 == 0 && woParam2 d 31 12 == 0 && decide (woDim d 1 ≤ 64)
      && s.poolFits n d (woDim d 0) fun p => decide (woParam d 47 32 + woDim d 2 ≤ p.heads) && decide (woDim d 3 < p.layers)
  | 13 => woParam d 63 0 == 0
  | _ => woParam d 63 0 == 0 && woDim d 3 == 1

/-! ## Regions (reasons 5, 6, 9, 10) -/

/-- The range of the address map that a place lies in; 0 for a hole. -/
def placeKind : Place → Nat
  | .hole => 0
  | .hold _ _ => 1
  | .basin _ => 2
  | .lpddr _ => 3
  | .tables _ => 4
  | .store _ => 5
  | .regs _ _ => 6
  | .rom _ => 7
  | .remote c o => 8 + 2 * c + (if o < 0x0800000000 then 0 else 1)

/-- A region lies in one range of the local map or of a chip's window that is no hole. -/
def State.mapped (s : State) (n : Nat) (u : Use) : Bool :=
  let k := placeKind (s.berthPlace n (BitVec.ofNat 48 u.lo))
  k != 0 && k == placeKind (s.berthPlace n (BitVec.ofNat 48 (u.hi - 1))) && u.lo / 2 ^ 40 == (u.hi - 1) / 2 ^ 40

/-- The offsets of a region that lies wholly in the own Hold. -/
def State.ownRange (s : State) (n : Nat) (u : Use) : Option (Nat × Nat) :=
  match s.ownOff n (BitVec.ofNat 48 u.lo) with
  | some off => if off + (u.hi - u.lo) ≤ 0x100000 then some (off, off + (u.hi - u.lo)) else none
  | none => none

/-- The offsets of the part of a region that lies in the own Hold. -/
def State.ownPart (s : State) (n : Nat) (u : Use) : Option (Nat × Nat) :=
  let r := s.region u
  let lo := max r.1 (holdBase n)
  let hi := min r.2 (holdBase (n + 1))
  if lo < hi then some (lo - holdBase n, hi - holdBase n) else none

/-- R156. -/
def State.woPlaced (s : State) (n : Nat) (d : BitVec 512) : Bool :=
  (woUses d).all fun u => if woOp d = 14 then s.mapped n u else (s.ownRange n u).isSome

/-- A range of Hold offsets lies inside the shadow region. -/
def State.inShadow (s : State) (n : Nat) (r : Option (Nat × Nat)) : Bool :=
  match r with
  | some x => decide ((s.shadowRange n).1 ≤ x.1) && decide (x.2 ≤ (s.shadowRange n).2)
  | none => false

/-- The Buoy is allowed (Table 4-11 reason 9). -/
def State.woBuoyOk (s : State) (n : Nat) (d : BitVec 512) : Bool :=
  !woBuoyEn d || (!hits (woBuoyAt d) 8 (s.progRange n)
    && ((woCg d).isNone || s.inShadow n (some (woBuoyAt d, woBuoyAt d + 8))))

/-- Every write region of a speculative work order lies in the shadow region; a speculative KVAPPEND is refused (R380). -/
def State.woSpecOk (s : State) (n : Nat) (d : BitVec 512) : Bool :=
  (woCg d).isNone || (woOp d != 12 && ((woUses d).filter (·.wr)).all fun u => s.inShadow n (s.ownRange n u))

/-- The group has been committed or squashed (reason 11). -/
def Berth.cgOver (b : Berth) (d : BitVec 512) : Bool :=
  match woCg d with
  | some id => (b.cg id).isNone && b.cgDone.contains id
  | none => false

/-- The first check of Table 4-11 that a descriptor fails, from reason 2 on; 0 when it passes. -/
def State.woReason (s : State) (n : Nat) (d : BitVec 512) : Nat :=
  if woOp d = 0 ∨ 14 < woOp d then 2
  else if !woFmtOk d then 3
  else if !woDimOk d then 4
  else if (woUses d).any fun u => decide (2 ^ 48 < u.hi) then 6
  else if !s.woPlaced n d then 5
  else if !woLayOk d then 7
  else if !woZeroOk d then 8
  else if !s.woBuoyOk n d then 9
  else if !s.woSpecOk n d then 10
  else if (s.berth n).cgOver d then 11
  else if !s.woParamOk n d then 12
  else 0

/-! ## The shadow region (R166, R330 to R333) -/

/-- The regions that a work order writes in the own Hold, its Buoy among them. -/
def State.woWrites (s : State) (n : Nat) (d : BitVec 512) : List (Nat × Nat) :=
  ((woUses d).filter (·.wr)).filterMap (s.ownPart n) ++ (if woBuoyEn d then [(woBuoyAt d, woBuoyAt d + 8)] else [])

/-- The groups of the queued speculative work orders that will tag a shadow line of a Hold range: those that wait before a later
work order tag it before that one starts (R160, R330, R333). -/
def State.queuedCgs (s : State) (n : Nat) (r : Nat × Nat) : List Nat :=
  (s.berth n).woq.filterMap fun w => match woCg w.desc with
    | none => none
    | some id =>
      if (s.woWrites n w.desc).any fun x => (s.shadowLines n x.1 (x.2 - x.1)).any (s.shadowLines n r.1 (r.2 - r.1)).contains
      then some id else none

/-- The groups other than its own with which the shadow lines of a work order's regions are tagged, or will be when the work orders
queued before it have run. -/
def State.woLineCgs (s : State) (n : Nat) (d : BitVec 512) (us : List Use) : List Nat :=
  (us.flatMap fun u => match s.ownPart n u with
    | some r => s.lineCgs n r.1 (r.2 - r.1) ++ s.queuedCgs n r
    | none => []).filter fun id => woCg d != some id

/-- A tagged line belongs to a group that became outstanding after the work order's. -/
def State.woLater (s : State) (n : Nat) (d : BitVec 512) : Bool :=
  match woCg d with
  | none => false
  | some x => match (s.berth n).cg x with
    | none => false
    | some (_, cx) => (s.woLineCgs n d (woUses d)).any fun id => match (s.berth n).cg id with
      | some (_, c) => decide (cx.ord < c.ord)
      | none => false

/-- A region that a speculative work order reads is its own Hold's shadow region or, for COPY, the ring of a frame that the Berth has
claimed. -/
def State.specReads (s : State) (n : Nat) (d : BitVec 512) (u : Use) : Bool :=
  s.inShadow n (s.ownRange n u)
    || (woOp d == 14 && s.claimedRing n (s.localAddr (BitVec.ofNat 48 u.lo)).toNat (u.hi - u.lo))

/-- WO_SHADOW (R166). -/
def State.woShadow (s : State) (n : Nat) (d : BitVec 512) : Bool :=
  let reads := (woUses d).filter (·.rd)
  if (woCg d).isSome then reads.any (fun u => !s.specReads n d u) || s.woLater n d
  else s.woLineCgs n d reads != [] || (s.woWrites n d).any fun r => hits r.1 (r.2 - r.1) (s.shadowRange n)

/-- A write region lies outside the own Hold (R153). -/
def State.woOutside (s : State) (n : Nat) (d : BitVec 512) : Bool :=
  (woUses d).any fun u => u.wr && (s.ownRange n u).isNone

end Sys2Proof.Machine
end

