-- ==== Sys2Proof/Machine/WorkOrder.lean ====
section
/-! DEFINITION. Work orders: issue, start by opcode, and completion (04_sequencer_work_orders.md R154 to R166;
09_sensor_intake_commit.md R329 to R333; 11_attention_wharfinger.md R381, R391, R392).
Log entries: 34 DEDUCED, 35 DEDUCED, 36 DEDUCED, 37 DESIGN CHOICE, 41 DEDUCED, 123 DEDUCED, 124 DESIGN CHOICE, 132 DEDUCED. -/

namespace Sys2Proof.Machine

/-! ## Issue (R153 to R159, R165, R166) -/

/-- A refused descriptor: WO answers POISON, and WO_ERR takes the first (Table 4-20). -/
def State.woRefuse (s : State) (n : Nat) (d : Fin 16) (group reason off : Nat) : State :=
  let s1 := if s.fld (bslot n) F.WO_ERR_VALID 0 = 1 then s
    else s.setReg (bslot n) .WO_ERR 0 (BitVec.ofNat 64 (2 ^ 63 + reason * 2 ^ 48 + off % 2 ^ 20))
  let s2 := s1.record (bslot n) group
  s2.setBerth n ((s2.berth n).answer d .poison)

/-- A descriptor that has passed its checks takes a queue entry and the next sequence number (R158, R159); a group that is not
outstanding becomes so (R329), and it depends on the groups of the lines it touches (R331, R332). -/
def State.woQueue (s : State) (n : Nat) (d : Fin 16) (desc : BitVec 512) : State :=
  let deps := s.woLineCgs n desc (woUses desc)
  let b := s.berth n
  let b1 := match woCg desc with
    | none => b
    | some id => (if (b.cg id).isNone then b.openCg id else b).addDeps id deps
  let b2 : Berth := { b1 with woq := b1.woq ++ [{ desc := desc, seq := b1.woNext }], woNext := b1.woNext + 1 }
  let g : U64 := BitVec.ofNat 64 (b.woNext.toNat * 2 ^ 32)
  s.setBerth n ({ b2.setG d g with e := false }).resume

/-- A speculative work order would make a fifth group outstanding. -/
def Berth.cgFull (b : Berth) (desc : BitVec 512) : Bool :=
  match woCg desc with
  | some id => (b.cg id).isNone && b.cgEntry.isNone
  | none => false

/-- WO with the descriptor it has read. -/
def State.woIssue (s : State) (n : Nat) (d : Fin 16) (a : Fin 8) (off : Nat) (desc : BitVec 512) : State :=
  let b := s.berth n
  let reason := s.woReason n desc
  if reason ≠ 0 then s.woRefuse n d 11 reason off
  else if s.woShadow n desc then s.woRefuse n d 14 0xFF off
  else if s.woOutside n desc && b.cgs != [] then s.hold n
  else if 64 ≤ b.woq.length then s.setBerth n { b with seq := .waiting, wait := .woEntry d a }
  else if b.cgFull desc then s.setBerth n { b with seq := .waiting, wait := .cgSlot d a }
  else s.woQueue n d desc

/-- WO: the descriptor at Aa, aligned to 64 bytes in the own Hold (R154). One that lies outside the own Hold has no Hold offset: WO_ERR
takes the low bits of its address (log entry 124, DESIGN CHOICE). -/
def State.wo (s : State) (n : Fin 32) (d : Fin 16) (a : Fin 8) : State :=
  let x := (s.berth n).ar a
  match s.ownOff n x with
  | none => s.woRefuse n d 11 1 x.toNat
  | some off =>
    if off % 64 ≠ 0 then s.woRefuse n d 11 1 off
    else
      let r := s.readAt (.berth n) (.hold n off) 64
      if r.st = Status.ok then r.s.woIssue n d a off (BitVec.ofNat 512 (leNat r.data))
      else r.s.setBerth n ((r.s.berth n).answer d r.st)

def execWo (n : Fin 32) (d : Fin 16) (a : Fin 8) (s : State) : Out :=
  unlessDrain (.wo n d a) n d s <| s.issue (.wo n d a) n fun _ t => t.wo n d a

/-- A waiting WO goes on when an entry, or a place in the CG table, is free (R158). It issues then, and reads its descriptor then (log
entry 123, DEDUCED). -/
def execWoEntryFree (n : Fin 32) (s : State) : Out :=
  let b := s.berth n
  match b.wait with
  | .woEntry d a => when (s.serves n && decide (b.woq.length < 64)) s (s.wo n d a)
  | .cgSlot d a => when (s.serves n && b.cgEntry.isSome) s (s.wo n d a)
  | _ => nothing s

/-! ## The scoreboard (R160) -/

/-- The work order occupies the array, the vector unit, or one of the two places for Crane work orders (Table 4-8). -/
def onArray (d : BitVec 512) : Bool := [1, 2, 3, 11].contains (woOp d)
def onVector (d : BitVec 512) : Bool := [4, 5, 6, 7, 8, 9, 10, 11, 13].contains (woOp d)
def onCrane (d : BitVec 512) : Bool := [12, 14].contains (woOp d)

/-- Some tensor of one work order meets some tensor of another, each of the given use. -/
def State.meet (s : State) (x y : BitVec 512) (p q : Use → Bool) : Bool :=
  ((woUses x).filter p).any fun u => ((woUses y).filter q).any fun v => overlaps (s.region u) (s.region v)

/-- An earlier incomplete work order keeps a later one from starting. -/
def State.blocks (s : State) (e w : BitVec 512) : Bool :=
  wBits w 27 27 == 1 || s.meet e w (·.wr) (fun _ => true) || s.meet e w (·.rd) (·.wr)
    || ([11, 12].contains (woOp e) && [11, 12].contains (woOp w) && woParam2 e 11 0 == woParam2 w 11 0)

/-- Its units are free. -/
def Berth.unitFree (b : Berth) (d : BitVec 512) : Bool :=
  let run := b.woq.filter (·.running)
  (!onArray d || run.all fun w => !onArray w.desc) && (!onVector d || run.all fun w => !onVector w.desc)
    && (!onCrane d || decide ((run.filter fun w => onCrane w.desc).length < 2))

/-- A work order of the Wharfinger waits: every one during a restore (R400), one that names a pool during its restore or unstow
(R401), a KVAPPEND during the stow of its pool (R402). -/
def State.kvWaits (s : State) (d : BitVec 512) : Bool :=
  s.restoring || s.seqWaits (woParam2 d 11 0)
    || (woOp d == 12 && (match s.wharf.stow with
      | some x => s.poolOf (woParam2 d 11 0) == some x.pool
      | none => false))

/-- The first of the work orders, taken with those before it, that may start. -/
def State.firstStart (s : State) (b : Berth) : List Wo → List Wo → Option Wo
  | _, [] => none
  | before, w :: rest =>
    if !w.running && b.unitFree w.desc && before.all (fun e => !s.blocks e.desc w.desc)
        && !([11, 12].contains (woOp w.desc) && s.kvWaits w.desc) then some w
    else State.firstStart s b (before ++ [w]) rest

/-- Changes the queued work order with a sequence number. -/
def State.woMap (s : State) (n : Nat) (q : U32) (f : Wo → Wo) : State :=
  s.setBerth n { s.berth n with woq := (s.berth n).woq.map fun w => if w.seq = q then f w else w }

/-- The oldest work order that may start does so when it has one of the opcodes; `k` does its work. -/
def woStart (n : Fin 32) (op : Nat) (k : Wo → State → State) (s : State) : Out :=
  if !s.serves n then nothing s
  else match s.firstStart (s.berth n) [] (s.berth n).woq with
    | some w =>
      if woOp w.desc = op then .next (k w (s.woMap n w.seq fun x => { x with running := true }))
      else nothing s
    | none => nothing s

/-! ## Tensors -/

/-- The address of row `i` of a tensor, counted plane by plane. -/
def Use.rowAt (u : Use) (i : Nat) : Nat := u.t.addr + i / u.rows * u.t.s2 + i % u.rows * u.t.s1

/-- Reads a tensor row by row. -/
def State.readUse (s : State) (n : Fin 32) (u : Use) : Status × Rows × State :=
  (List.range (u.rows * u.planes)).foldl (fun (a : Status × Rows × State) i =>
    let r := State.readSpan (.berth n) (spanFuel u.bytes) a.2.2 (u.rowAt i) u.bytes
    (mergeStatus a.1 r.st, a.2.1 ++ [r.data], r.s)) (Status.ok, [], s)

/-- Reads a tensor that the work order may not have. -/
def State.readOpt (s : State) (n : Fin 32) (u : Option Use) : Status × Rows × State :=
  match u with
  | some x => if x.rd then s.readUse n x else (Status.ok, [], s)
  | none => (Status.ok, [], s)

/-- Tags the shadow lines of a row that a speculative work order writes; its group then depends on their groups (R330 to R332). -/
def State.tagRow (s : State) (n : Fin 32) (cg : Option Nat) (a len : Nat) : State :=
  match cg, s.ownOff n (BitVec.ofNat 48 a) with
  | some id, some off =>
    s.tagLines n off len id
  | _, _ => s

/-- Writes bytes in blocks of `k`, each as one write (R366). -/
def State.writeCut (who : Requester) (k : Nat) : Nat → State → Nat → List Byte → Ans
  | 0, s, _, _ => ⟨.ok, [], s⟩
  | fuel + 1, s, a, d =>
    if d = [] then ⟨.ok, [], s⟩
    else
      let r := s.writeAny who (s.placeBy who (BitVec.ofNat 48 a)) (d.take k)
      let t := State.writeCut who k fuel r.s (a + k) (d.drop k)
      ⟨mergeStatus r.st t.st, [], t.s⟩

/-- Bytes of a compressed block that a work order writes whole (R366); 0 for one that writes no compressed blocks. -/
def woBlock (d : BitVec 512) : Nat := if woOp d = 9 then (if woLc d = 2 then 32 else 16) else 0

/-- Writes a tensor row by row, in compressed blocks of `blk` bytes or, with none, as it lies. -/
def State.writeUse (s : State) (n : Fin 32) (cg : Option Nat) (blk : Nat) (u : Use) (rows : Rows) : Status × State :=
  (List.range (u.rows * u.planes)).foldl (fun (a : Status × State) i =>
    let x := u.rowAt i
    let d := rows.getD i []
    let t := a.2.tagRow n cg x d.length
    let r := if blk = 0 then State.writeSpan (.berth n) (spanFuel d.length) t x d
      else State.writeCut (.berth n) blk (d.length / blk + 1) t x d
    (mergeStatus a.1 r.st, r.s)) (Status.ok, s)

/-- A speculative work order reads lines of other groups: its group depends on them (R331). -/
def State.readDeps (s : State) (n : Fin 32) (w : Wo) : State :=
  match woCg w.desc with
  | none => s
  | some id => s.setBerth n ((s.berth n).addDeps id (s.woLineCgs n w.desc ((woUses w.desc).filter (·.rd))))

/-- The events of a result in the order of `countEvents`. -/
def Res.events (r : Res) : List Nat := [r.flush, r.sat, r.bad, r.clamp, r.nan, r.fbad]

/-- A work order has done its work but for outstanding tags: its status, and its events, which count at once unless it is
speculative (R198). -/
def State.woDone (s : State) (n : Fin 32) (w : Wo) (st : Status) (ev : List Nat) : State :=
  let spec := (woCg w.desc).isSome
  let s1 := s.woMap n w.seq fun x => { x with done := true, status := mergeStatus x.status st, events := if spec then ev else [] }
  if spec then s1 else s1.countEvents n ev

/-- A work order of the array or the vector unit: it reads its tensors, computes and writes C. A Berth that a read has made
FAULTED stops (R97). -/
def computeOp (n : Fin 32) (f : BitVec 512 → Rows → Rows → Rows → Res) (w : Wo) (s : State) : State :=
  let d := w.desc
  let s0 := s.readDeps n w
  let a := s0.readUse n (woA d)
  let b := a.2.2.readOpt n (woB d)
  let c := b.2.2.readOpt n (woC d)
  let t := c.2.2
  if (t.dom n).faulted then t
  else
    let r := f d a.2.1 b.2.1 c.2.1
    let x := match woC d with
      | some u => t.writeUse n (woCg d) (woBlock d) u r.rows
      | none => (Status.ok, t)
    if (x.2.dom n).faulted then x.2
    else x.2.woDone n w (mergeStatus (mergeStatus (mergeStatus a.1 b.1) c.1) x.1) r.events

/-! ## The array and the vector unit -/

def execMatmul (n : Fin 32) (s : State) : Out :=
  woStart n 1 (computeOp n fun d a b c =>
    Machine.matmul (woFa d) (woFb d) (woFc d) (woDim d 0) (woDim d 1) (woDim d 2) (woDim d 3) (woAcc d) (woParam d 1 1 == 1)
      (woParam d 47 32) a b c) s

/-- CONV and DWCONV. -/
def convWork (d : BitVec 512) (a b c : Rows) : Res :=
  Machine.conv (woFa d) (woFb d) (woFc d) (woLa d) (woLc d) (woDim d 0) (woDim d 1) (woDim d 2) (woDim d 3) (woGroups d) (convGeo d)
    (woAcc d) (woOp d == 3) (woParam d 47 32) a b c

def execConv (n : Fin 32) (s : State) : Out := woStart n 2 (computeOp n convWork) s
def execDwconv (n : Fin 32) (s : State) : Out := woStart n 3 (computeOp n convWork) s

def execPool (n : Fin 32) (s : State) : Out :=
  woStart n 4 (computeOp n fun d a _ _ =>
    Machine.pool (woFa d) (woLa d) (woLc d) (woDim d 0) (woDim d 1) (woDim d 2) (poolGeo d) (woParam d 16 16 == 1) a) s

def execElem (n : Fin 32) (s : State) : Out :=
  woStart n 5 (computeOp n fun d a b _ =>
    elemWise (woFa d) (woFb d) (woFc d) (woDim d 0) (woParam d 7 0) a (if elemBinary d then some b else none)
      (fFP32.decode (woParam d 63 32))) s

def execReduce (n : Fin 32) (s : State) : Out :=
  woStart n 6 (computeOp n fun d a _ _ => Machine.reduce (woFa d) (woFc d) (woDim d 0) (woDim d 1) (woParam d 1 0) a) s

def execS2d (n : Fin 32) (s : State) : Out :=
  woStart n 7 (computeOp n fun d a _ _ => Machine.s2d (woFa d) (s2dFactor d) (woDim d 0) (woDim d 1) (woDim d 2) a) s
def execD2s (n : Fin 32) (s : State) : Out :=
  woStart n 8 (computeOp n fun d a _ _ => Machine.d2s (woFa d) (s2dFactor d) (woDim d 0) (woDim d 1) (woDim d 2) a) s
def execFmcomp (n : Fin 32) (s : State) : Out :=
  woStart n 9 (computeOp n fun d a _ _ => Machine.fmcomp (woFa d) (woLa d) (woLc d) (woDim d 0) (woDim d 1) (woDim d 2) a) s
def execFmdecomp (n : Fin 32) (s : State) : Out :=
  woStart n 10 (computeOp n fun d a _ _ => Machine.fmdecomp (woFa d) (woLa d) (woLc d) (woDim d 0) (woDim d 1) (woDim d 2) a) s
def execCvt (n : Fin 32) (s : State) : Out :=
  woStart n 13 (computeOp n fun d a _ _ => cvtRows (woFa d) (woFc d) (woDim d 0) a) s

/-! ## COPY -/

/-- One row of a COPY: its shadow lines are tagged and its pieces move. -/
def State.copyLine (s : State) (n : Fin 32) (w : Wo) (a c : Use) (i : Nat) : State :=
  let t := s.tagRow n (woCg w.desc) (c.rowAt i) c.bytes
  State.copyRow n w.seq (a.bytes / 128 + 3) t (a.rowAt i) (c.rowAt i) a.bytes

/-- COPY moves its rows in order; pieces that another chip holds follow through the Crane (R161). -/
def copyWork (n : Fin 32) (w : Wo) (s : State) : State :=
  match woC w.desc with
  | none => s
  | some c =>
    let a := woA w.desc
    ((List.range (a.rows * a.planes)).foldl (fun t i => t.copyLine n w a c i) (s.readDeps n w)).woDone n w .ok []

def execCopy (n : Fin 32) (s : State) : Out := woStart n 14 (copyWork n) s

/-! ## KVAPPEND and ATTNBLK -/

/-- KVAPPEND: the rows reach the Wharfinger whole, or the work order ends with the status of what failed (R381). -/
def kvWork (n : Fin 32) (w : Wo) (s : State) : State :=
  let d := w.desc
  let a := s.readUse n (woA d)
  let b := a.2.2.readOpt n (woB d)
  let t := b.2.2
  let st := mergeStatus a.1 b.1
  if (t.dom n).faulted then t
  else if st ≠ .ok then t.woDone n w st []
  else if !t.serves 32 then t.woDone n w .down []
  else match t.poolOf (woParam2 d 11 0) with
    | none => t.woDone n w .poison []
    | some i =>
      let rows (x : Rows) := x.map fun r => decodeRow 6 r (woDim d 0)
      let r := t.kvAppend i (woParam2 d 11 0) (woParam d 31 0) (woDim d 1) (woDim d 2) (woDim d 3) (woParam d 47 32)
        (rows a.2.1) (rows b.2.1)
      r.2.woDone n w r.1 []

def execKvappend (n : Fin 32) (s : State) : Out := woStart n 12 (kvWork n) s

/-- The rows of an ATTNBLK before and after its blocks and its merge (R392). -/
def attnStart (d : BitVec 512) (c : Rows) : List AttnRow :=
  if attnInit d then List.replicate (woDim d 0) (AttnRow.init (woDim d 1)) else c.map (AttnRow.read (woDim d 1))
def attnMerged (d : BitVec 512) (a : Rows) (rows : List AttnRow) : List AttnRow :=
  if attnMerge d then List.zipWith (fun x y => x.merge (AttnRow.read (woDim d 1) y)) rows a else rows

/-- The blocks of an ATTNBLK whose checks have passed: T_C, and T_B when it is final. -/
def State.attnWork (s : State) (n : Fin 32) (w : Wo) (p : Pool) : State :=
  let d := w.desc
  let a := s.readUse n (woA d)
  let c := a.2.2.readOpt n (woC d)
  let qs := if attnMerge d then [] else a.2.1.map fun r => decodeRow (woFa d) r (woDim d 1)
  let kstart := woParam d 31 0
  let kend := woParam d 63 32
  let r := State.attnBlocks p (woParam2 d 11 0) (woParam2 d 31 16) kend (attnCausal d) (woDim d 3) qs
    (cdiv (kend - kstart) 64 + 1) c.2.2 (mergeStatus a.1 c.1) kstart 0 (attnStart d c.2.1)
  let t := r.2.1
  if (t.dom n).faulted then t
  else
    let rows := attnMerged d a.2.1 r.2.2.2
    let x := match woC d with
      | some u => t.writeUse n (woCg d) 0 u (rows.map AttnRow.bytes)
      | none => (Status.ok, t)
    let y := match woB d with
      | some u => x.2.writeUse n (woCg d) 0 u (rows.map fun (z : AttnRow) => (encodeRow (woFb d) z.out).1)
      | none => (Status.ok, x.2)
    y.2.woDone n w (mergeStatus (mergeStatus r.1 x.1) y.1) [0, 0, r.2.2.1]

/-- ATTNBLK takes a read hold and checks KEND (R391). -/
def attnWork (n : Fin 32) (w : Wo) (s : State) : State :=
  let d := w.desc
  let q := woParam2 d 11 0
  let u := woParam2 d 31 16
  if !s.serves 32 then s.woDone n w .down []
  else match s.poolOf q with
    | none => s.woDone n w .poison []
    | some i =>
      let p := s.poolCfg i
      match s.tableCheck (s.seqWords p q) with
      | (some st, s1) => s1.woDone n w st []
      | (none, s1) =>
        let s2 := ((s1.setHolds q (s1.seqHolds q + 1)).woMap n w.seq fun x => { x with hold := some q }).readDeps n w
        if s2.unitLen p q u < woParam d 63 32 then (s2.kvFault 3 q 0 u).woDone n w .poison []
        else s2.attnWork n w p

def execAttnblk (n : Fin 32) (s : State) : Out := woStart n 11 (attnWork n) s

/-! ## Completion (R161 to R164) -/

/-- Every write of a work order has been performed and none of its Crane requests is outstanding. -/
def Berth.woReady (b : Berth) (w : Wo) : Bool :=
  let mine (u : TagUse) : Bool := match u with
    | .woRead q _ => q == w.seq
    | .woWrite q => q == w.seq
    | _ => false
  w.running && w.done && (b.tags.all fun t => !mine t.2.use) && b.held.all fun h => !mine h.2.2

/-- A work order that is done completes; in a draining Berth it may still do so within step 2 (R169). -/
def execWorkOrderComplete (n : Fin 32) (seq : U32) (s : State) : Out :=
  let b := s.berth n
  match b.woq.find? fun w => w.seq == seq with
  | none => nothing s
  | some w =>
    when (s.runs n && b.woReady w) s
      (s.woEnd n w w.status)

end Sys2Proof.Machine
end

