-- ==== Sys2Proof/Machine/Tide.lean ====
section
/-! DEFINITION. The tide clock's exchanges (07_sleep_wake_clocks_straps.md R266 to R274, R726; 14_zenier_mesh.md Table 14-1, R484;
20_balls_supplies_timing.md R710), and the passing of time.
Log entries: 1 DESIGN CHOICE, 61 DESIGN CHOICE, 62 DEDUCED, 63 DESIGN CHOICE, 64 DEDUCED. -/

namespace Sys2Proof.Machine

/-- This chip is the tide master. -/
def State.tideMaster (s : State) : Bool := s.fld 2 F.TIDE_STAT_IS_MASTER 0 == 1

/-- The parent's Quay, if there is one. -/
def State.tideParent (s : State) : Option Nat :=
  match s.fld 2 F.TIDE_STAT_PARENT 0 with
  | 0 => none
  | k + 1 => some k

/-- The low 40 bits of tide time, as a SYNC carries them. -/
def State.tide40 (s : State) : Nat := s.tide.toNat % 2 ^ 40

/-- A SYNC block leaves on a link. -/
def State.sendSync (s : State) (q kind t : Nat) : State := s.linkSend q (.sync (BitVec.ofNat 2 kind) (BitVec.ofNat 40 t))

/-! ## Time -/

/-- Nanoseconds between two single corrections of the slew: 200 ppm (R267). -/
def slewEvery : Nat := 5000

/-- One nanosecond passes. The tide counter advances while it runs, with a correction of one nanosecond while an offset is slewed. -/
def State.tick (s : State) : State :=
  let c := { s.clk with now := s.clk.now + 1 }
  if !s.clk.running then { s with clk := c }
  else if s.clk.now % slewEvery = 0 ∧ 0 < s.clk.slew then { s with clk := { c with slew := s.clk.slew - 1 } }
  else if s.clk.now % slewEvery = 0 ∧ s.clk.slew < 0 then { s with clk := { c with tide := s.clk.tide + 2, slew := s.clk.slew + 1 } }
  else { s with clk := { c with tide := s.clk.tide + 1 } }

/-! ## The exchange with the parent (R268, R269, R273) -/

/-- The Quay of the neighbour from which a chip takes its time (R268): West when X > 0, otherwise North. -/
def State.homeParent (s : State) : Nat := if 0 < s.posX then 3 else 0

/-- The Quay on which requests leave: the parent's, or, before the first sync, that of the neighbour that R268 names. -/
def State.syncTarget (s : State) : Nat := s.tideParent.getD s.homeParent

/-- A request leaves for the parent. -/
def State.syncRequest (s : State) : State :=
  { s with clk := { s.clk with syncAt := s.clk.now, syncReq := some (s.syncTarget, s.clk.now), syncResp := none } }.sendSync s.syncTarget 0
    s.tide40

/-- TIDE_SYNC_TIMER: every 10 µs a request leaves for the parent. -/
def execTideSyncTimer (s : State) : Out :=
  when (s.awake && s.clk.running && !s.tideMaster && s.qstate s.syncTarget == 7 && decide (s.clk.syncAt + 10000 ≤ s.clk.now)) s
    s.syncRequest

/-- A value saturated to signed 16 bits. -/
def sat16 (i : Int) : Nat := intCode 16 (satInt 16 i).1

/-- The offset of the own time to the parent's, for times modulo 2 ^ 40. -/
def offset40 (own parent : Nat) : Int := toSigned 40 ((own + 2 ^ 40 - parent % 2 ^ 40) % 2 ^ 40)

/-- The chip has not yet entered Run with a chart (R269). -/
def State.beforeRun (s : State) : Bool := s.dev == .startCheck || s.dev == .idle || (s.dev == .safe && !s.chartOn)

/-- A measured offset is corrected by slewing. One above 1 µs is TIDE_LOSS in Run (R273); before Run it is corrected by one step, unless
the own time is ahead, because tide time never decreases (R266). -/
def State.tideCorrect (s : State) (off : Int) : State :=
  let t : State := { s with clk := { s.clk with slew := off } }
  if 1000 < off.natAbs then
    if s.dev = .run then t.record 2 0
    else if s.beforeRun && decide (off < 0) then
      ({ s with clk := { s.clk with tide := s.tide + BitVec.ofNat 64 off.natAbs, slew := 0 } }).record 2 2
    else t
  else t

/-- The turnaround completes the exchange: the delay is half the round trip less the turnaround; TIDE_STAT takes both. -/
def State.tideMeasure (s : State) (req : Nat) (resp : Nat × Nat × Nat) (turn : Nat) : State :=
  let delay := (resp.2.2 - req - turn) / 2
  let off := offset40 resp.2.1 (resp.1 + delay)
  let s1 := (s.setFld 2 F.TIDE_STAT_OFFSET 0 (sat16 off)).setFld 2 F.TIDE_STAT_DELAY 0 (min delay 0xFFFF)
  let s2 := s1.setFld 2 F.TIDE_STAT_SYNCED 0 (b2n (decide (off.natAbs ≤ 20)))
  ({ s2 with clk := { s2.clk with syncReq := none, syncResp := none } }).tideCorrect off

/-- What a neighbour's SYNC block says: a request is answered with the own time and a turnaround of zero; a response and a
turnaround of the parent belong to the request under way. -/
def State.syncBlock (s : State) (q kind : Nat) (t : Nat) : State :=
  if kind = 0 then (s.sendSync q 1 s.tide40).sendSync q 2 0
  else match s.clk.syncReq with
    | none => s
    | some (p, req) =>
      if p ≠ q then s
      else if kind = 1 then { s with clk := { s.clk with syncResp := some (t, s.tide40, s.clk.now) } }
      else match s.clk.syncResp with
        | some r => s.tideMeasure req r t
        | none => s

/-- The chip joins a master through a neighbour, as an ordinary chip (R272, R726). -/
def State.tideJoin (s : State) (q master : Nat) : State :=
  let s1 := ((s.setFld 2 F.TIDE_STAT_IS_MASTER 0 0).setFld 2 F.TIDE_STAT_PARENT 0 (q + 1)).setFld 2 F.TIDE_STAT_MASTER 0 master
  { s1.setFld 2 F.TIDE_STAT_SYNCED 0 0 with clk := { s1.clk with lastSync := some s.clk.now, lostAt := none } }

/-- A chip that has received no sync takes the neighbour as its parent: the one that R268 names, or another while that one's link is not
up (R726). -/
def State.adopts (s : State) (q : Nat) : Bool := q == s.homeParent || s.qstate s.homeParent != 7

/-- A SYNC of a neighbour that carries a master's sync: the first of the own board domain makes it the parent (R726); the chip at (0,0)
that has not been elected gives way to another master (R272); one from the parent keeps the watch. -/
def State.syncHeard (s : State) (q master : Nat) : State :=
  if s.fld (4 + q) F.QUAY_STAT_EXTERNAL 0 = 1 then s else
  let s1 : State := { s with clk := { s.clk with heard := Tab.put s.clk.heard q (s.clk.now, master) } }
  if s.tideMaster then (if s.clk.claimK.isNone && master != s.chip then s1.tideJoin q master else s1)
  else if s.clk.lastSync.isNone then (if s.adopts q then s1.tideJoin q master else s1)
  else if s.tideParent = some q then
    { s1.setFld 2 F.TIDE_STAT_MASTER 0 master with clk := { s1.clk with lastSync := some s.clk.now, lostAt := none } }
  else s1

/-- SYNC: a block whose CRC-8 fails is discarded and counted. -/
def execSync (q : Fin 4) (kind : BitVec 2) (time : BitVec 40) (master : BitVec 6) (crcOk : Bool) (s : State) : Out :=
  if !s.awake || s.qstate q != 7 then nothing s
  else if !crcOk || kind == 3 then .next (s.ctlErr q)
  else if !s.clk.running then nothing s
  else .next ((s.syncHeard q master.toNat).syncBlock q kind.toNat time.toNat)

/-! ## Loss of the parent and of the master (R272, R726) -/

/-- Another neighbour with a trained link that has carried the present master's sync within the last 30 µs. -/
def State.otherParent (s : State) : Option Nat :=
  (List.range 4).find? fun q => some q != s.tideParent && s.qstate q == 7 && s.fld (4 + q) F.QUAY_STAT_EXTERNAL 0 == 0 &&
    (match Tab.find s.clk.heard q with
     | some (t, m) => decide (s.clk.now < t + 30000) && m == s.fld 2 F.TIDE_STAT_MASTER 0
     | none => false)

/-- TIDE_PARENT_TIMEOUT: 30 µs without a sync from the parent. -/
def execTideParentTimeout (s : State) : Out :=
  match s.clk.lastSync with
  | some t =>
    let due := s.awake && s.clk.running && !s.tideMaster && s.clk.lostAt.isNone && decide (t + 30000 ≤ s.clk.now)
    when due s (match s.otherParent with
      | some q => s.tideJoin q (s.fld 2 F.TIDE_STAT_MASTER 0)
      | none => { s with clk := { s.clk with lostAt := some s.clk.now, lost := s.fld 2 F.TIDE_STAT_MASTER 0, claimK := none } })
  | none => nothing s

/-- A position inside the board domain by chip index. -/
def State.inside64 (s : State) (c : Nat) : Bool := decide (c % 8 < s.side) && decide (c / 8 < s.side)

/-- Positions from the lost master to a chip in ascending chip-index order, wrapping at 64, inside the domain. -/
def State.claimDist (s : State) (lost c : Nat) : Nat :=
  ((List.range ((c + 64 - lost - 1) % 64 + 1)).filter fun i => s.inside64 ((lost + 1 + i) % 64)).length

/-- MASTER_ELECTION_TIMEOUT: k intervals after the loss the chip becomes master and sends its claim. -/
def execMasterElectionTimeout (s : State) : Out :=
  match s.clk.lostAt with
  | some t =>
    let k := s.claimDist s.clk.lost s.chip
    let s1 := s.setReg 2 .TIDE_STAT 0 (BitVec.ofNat 64 (3 + s.chip * 2 ^ 16))
    let others := (List.range 64).filter fun c => s.inside64 c && c != s.chip
    when (s.awake && s.clk.running && !s.tideMaster && decide (t + 10000 * k ≤ s.clk.now)) s
      ({ s1 with clk := { s1.clk with claims := others, claimK := some k, lostAt := none } }.record 2 1)
  | none => nothing s

/-- The chip accepts a claimant as master. -/
def State.acceptClaim (s : State) (c k : Nat) : State :=
  let s1 := if s.tideMaster then s.setReg 2 .TIDE_STAT 0 (BitVec.ofNat 64 ((s.homeParent + 1) * 256)) else s
  { s1.setFld 2 F.TIDE_STAT_MASTER 0 c with
    clk := { s1.clk with lastSync := some s.clk.now, lostAt := none, claimK := some k } }

/-- MASTER_CLAIM: a claim is accepted before the own wait has ended; of two claims the smaller k wins (R272). -/
def execMasterClaim (chip : BitVec 6) (s : State) : Out :=
  let c := chip.toNat
  let lost := if s.clk.lostAt.isSome || s.clk.claimK.isSome then s.clk.lost else s.fld 2 F.TIDE_STAT_MASTER 0
  let k := s.claimDist lost c
  let wins : Bool := match s.clk.claimK with
    | some own => decide (k < own)
    | none => !s.tideMaster
  when (s.awake && s.clk.running && s.inside64 c && c != s.chip && wins) s
    ({ s with clk := { s.clk with lost := lost } }.acceptClaim c k)

/-! ## TIME_PPS and TIDE_SET (R271, R274, R710) -/

/-- The offset of tide time to the nearest whole second. -/
def ppsOffset (t : Nat) : Int :=
  let r := t % 1000000000
  if r < 500000000 then r else (r : Int) - 1000000000

/-- TIME_PPS: the master's rate is disciplined at an edge that lies 1 s ± 1 ms after the last accepted one; the first is accepted. -/
def execTimePps (s : State) : Out :=
  let ok : Bool := match s.clk.ppsAt with
    | none => true
    | some t => decide (t + 999000000 ≤ s.clk.now) && decide (s.clk.now ≤ t + 1001000000)
  when (s.awake && s.clk.running && s.tideMaster && s.fld 2 F.TIDE_CFG_PPS_EN 0 == 1 && ok) s
    { s with clk := { s.clk with ppsAt := some s.clk.now, slew := ppsOffset s.tide.toNat } }

def execTideSet (who : Requester) (v : U64) (s : State) : Out := when s.awake s (s.tideSet who v)

end Sys2Proof.Machine
end

