-- ==== Sys2Proof/Machine/PowerCmd.lean ====
section
/-! DEFINITION. The Harbourmaster's commands: domains and drains, warm reset, Service, sleep entry and wake, store segments,
injections and the faults of its own copies (07_sleep_wake_clocks_straps.md, 08_start_check.md R303 to R305,
15_fault_detection.md R531 to R534, 13_manifests_buoys.md R464).
Log entries: 2 DESIGN CHOICE, 20 DEDUCED, 52 DEDUCED, 53 DEDUCED, 54 DEDUCED, 55 DEDUCED, 58 DEDUCED, 129 DESIGN CHOICE. -/

namespace Sys2Proof.Machine

/-! ## Domains (R251, R252, R256 to R260, R671, R672) -/

/-- DOMAIN_SWITCH_GROUP: the next group of at most 8 domains. The Pilot's 1 ms of a Berth among them starts (R215). -/
def execDomainSwitchGroup (s : State) : Out :=
  when (s.awake && s.hm.switchQ != [] && decide (s.hm.switchAt ≤ s.clk.now)) s s.switchGroup.pilotRun

/-- DOMAIN_ON: a ramp completes. The Pilot goes on with a load that waited for the block. -/
def execDomainOn (d : Fin 44) (fails : List ScFail) (s : State) : Out :=
  when (s.awake && (s.dom d).power == .ramping && !(s.dom d).draining) s (s.domainOn d fails).pilotRun

/-- The slot through which a domain's power is commanded. -/
def pwrSlot (d : Nat) : Nat := (slotsOf d).headD 0

/-- DOMAIN_POWER_ON and DOMAIN_POWER_OFF: a write of BLK_PWR.ON that changes it. -/
def State.powerCommand (s : State) (who : Requester) (d : Nat) (on : Bool) : Out :=
  when (s.pwrTakes (pwrSlot d)) s (s.pwrSet who (pwrSlot d) on)

def execDomainPowerOn (who : Requester) (d : Fin 44) (s : State) : Out := s.powerCommand who d true
def execDomainPowerOff (who : Requester) (d : Fin 44) (s : State) : Out := s.powerCommand who d false

/-- DOMAIN_RESET: a write of BLK_PWR.RESET. -/
def execDomainReset (_who : Requester) (d : Fin 44) (s : State) : Out := when (s.pwrTakes (pwrSlot d)) s (s.pwrReset (pwrSlot d))

/-- Steps 3 and 4 of a drain, after which the Pilot goes on. -/
def State.drainFinish (s : State) (d : Nat) : State :=
  (((s.setDom d { s.dom d with drain := 3 }).drainEnd d)).pilotRun

/-- DRAIN_OUTBOUND_DONE: every outbound request of a draining block has completed. -/
def execDrainOutboundDone (d : Fin 44) (s : State) : Out :=
  when (s.awake && (s.dom d).draining && !s.outstanding d) s (s.drainFinish d)

/-- The device has finished the operations of a granted segment of the Pilot or the Wharfinger, or stays busy for twice its maximum:
XSPI_ERR and POISON (R652). What a program or erase that did not end leaves in its range is open, and so is the range of a segment
whose stow the Wharfinger lost with its FAULTED state or its domain. -/
def State.segDone (s : State) (g : Segment) (stuck : Bool) : State :=
  let s1 : State := { s with hm := { s.hm with granted := none } }
  if g.user = .wharfinger ∧ s.wharf.stow = none then s1.flashCut (g.lo / 2 ^ 32) (g.lo % 2 ^ 32) g.len
  else if stuck then
    let s2 := (s1.flashCut (g.lo / 2 ^ 32) (g.lo % 2 ^ 32) g.len).record 0x11 5
    if g.user = .pilot then (s2.storeEnd .poison).sleepResume else s2.stowEnd .poison
  else if g.user = .pilot then s1.storeSegment.sleepResume else s1.stowSegment

/-- XSPI_OP_DONE: a granted segment of the Pilot or the Wharfinger ends, or the operation of XSPI_CMD. -/
def execXspiOpDone (stuck : Bool) (s : State) : Out :=
  match s.hm.granted with
  | some g =>
    if g.user = .pilot ∨ g.user = .wharfinger then .next (s.segDone g stuck)
    else match s.field.xspi with
      | o :: _ => when (s.xspiReady o) s (s.xspiDone o stuck)
      | [] => nothing s
  | none => match s.field.xspi with
    | o :: _ => when (s.xspiReady o) s (s.xspiDone o stuck)
    | [] => nothing s

/-- A granted segment runs to its end before the xSPI controller's domain goes off (R279). The Logbook's ends with its own command. -/
def State.finishSegment (s : State) (d : Nat) : State :=
  if d ≠ 42 then s
  else match s.hm.granted with
    | some g =>
      if g.user = .pilot ∨ g.user = .wharfinger then s.segDone g false
      else if g.user = .xspiCmd then (match s.field.xspi with
        | o :: _ => s.xspiDone o false
        | [] => s)
      else s
    | none => s

/-- DRAIN_TIMEOUT: step 2 has lasted 50 µs (R258). -/
def execDrainTimeout (d : Fin 44) (s : State) : Out :=
  when (s.awake && (s.dom d).draining && s.outstanding d && decide ((s.dom d).drainT + 50000 ≤ s.clk.now)) s
    (((s.finishSegment d).record 0 6).drainFinish d)

/-- DOMAIN_RESET_HOLD_END: the domain is switched on again. -/
def execDomainResetHoldEnd (d : Fin 44) (s : State) : Out :=
  match (s.dom d).holdEnd with
  | some t => when (s.awake && decide (t ≤ s.clk.now)) s ((s.setDom d { s.dom d with holdEnd := none }).switchOn [d.val]).pilotRun
  | none => nothing s

/-! ## Warm reset and Service (R241, R255, R300) -/

def execWarmReset (_who : Requester) (s : State) : Out := when s.awake s (s.warmReset 3)
def execServiceEnter (who : Requester) (s : State) : Out := when s.awake s (s.svcWrite who 1)
def execSvcLeaveWrite (who : Requester) (s : State) : Out := when s.awake s (s.svcWrite who 2)

/-! ## Sleep (R242, R261, R262, R282) -/

def execSleepRequest (_who : Requester) (s : State) : Out := when s.awake s s.sleepReq

/-- Drains and segments have ended: only the memory controllers and the Basin are still on. -/
def State.sleepReady (s : State) : Bool := s.retaining && s.hm.granted.isNone

/-- LPDDR5X without self-refresh loses its contents (R73). -/
def State.lpddrLose (s : State) : State :=
  let keep (o : Nat) : Bool := s.fld (0x0A + s.mcOf o) F.MC_CFG_SR_SLEEP 0 == 1
  let gone (o : Nat) : Bool := decide (o < s.usableTop) && !keep o
  { s with mem := Tab.drop s.mem gone, ecc := Tab.drop s.ecc fun k => gone (k / 2) }

/-- The sources that are active as the entry completes: WAKE inputs and SERVICE_N by level, beside those that asserted during the
entry (R262, Table 7-8). -/
def State.levelSources (s : State) : Nat :=
  let wakes := maskOf ((List.range 4).map (9 + ·)) fun b =>
    let x := s.input (b - 9)
    x.filt && !x.stuck && !x.chatter
  wakes + (if (s.input 4).filt && !s.svcIgnored then 2 ^ 14 else 0)

/-- The spine is switched off: its registers, the headers and what the blocks had on their way are lost. -/
def State.spineOff (s : State) : State :=
  let s1 := s.clearRegs 0 (fun sl => !alwaysOn sl) (· == basinRetKey)
  let s2 : State := { s1 with
    hdrs := Tab.drop s1.hdrs fun sl => !alwaysOn sl
    mesh := s.meshReset [], stale := [], resps := [], credits := [], net := [], blockQ := [], unitSeq := [], cgOut := [], stamps := [], lhs := []
    chartOn := false, reactDone := false, pilot := {} }
  s2.strapReact (allSlots.filter fun sl => !alwaysOn sl)

/-- Steps 3 to 5 of sleep entry: memory goes into retention or self-refresh, the tide moves to the AO tick, the PLLs stop. -/
def State.enterSleep (s : State) : State :=
  let s1 := s.lpddrLose
  let s2 := [43, 40, 39].foldl (fun (t : State) d => t.domOff d) s1
  let s3 := s2.spineOff
  let s4 := { s3.setReg 0 .HM_CLK 0 (BitVec.ofNat 64 (s3.fld 0 F.HM_CLK_XO_WAIT 0 * 65536)) with clk := { s3.clk with running := false } }
  (s4.refOff s.srSleep).setDev .sleep 14

/-- SLEEP_ENTRY_COMPLETE. Sources that have asserted, or a latched fault, start the wake at once. -/
def execSleepEntryComplete (s : State) : Out :=
  let src := s.hm.wakeSeen ||| s.wakeEnabled s.levelSources
  let t := s.enterSleep
  when s.sleepReady s (if src ≠ 0 ∨ s.hm.safeDue then t.wakeStart src else t)

/-- WAKE: sources assert in Sleep, during sleep entry (R262) or in Start-check (R301). The tide alarm asserts when the keeping counter has
reached it; in Sleep a latched fault needs no source. -/
def execWake (src : BitVec 21) (s : State) : Out :=
  let alarm := decide ((s.reg 2 .TIDE_ALARM 0).toNat ≤ s.tide.toNat)
  let m := if alarm then src.toNat else src.toNat / 2 * 2
  when (s.dev == .sleep || s.dev == .entering || s.dev == .startCheck) s
    (if s.dev = .sleep ∧ s.hm.safeDue then s.wakeIfDue else s.wakeSource m)

/-! ## Store segments (R275 to R279, R533) -/

/-- A block waits for the grant of a segment: its flash range, and the bytes that it programs; none when it only erases. -/
def State.wantsSegment (s : State) (u : NvUser) : Option (Nat × Nat × Option Nat) :=
  match u with
  | .pilot => s.storeNext.map fun x => (x.1, if x.2.1 = 0 then 64 else 0x10000, some x.2.2)
  | .logbook => s.log.mirror.map fun m =>
      if m.seg = 3 then ((s.mirrorRange m).1, 64, some 64)
      else ((s.mirrorRange m).1, (s.mirrorRange m).2, some (if m.seg = 1 then 4 + m.block.length else 0x10000))
  | .wharfinger => s.stowNext.map fun x => (x.1, if x.2.2 then 64 else 0x10000, if x.2.1 = 0 then none else some x.2.1)
  | .xspiCmd => match s.field.xspi with
    | o :: _ => if o.held then some (o.cs * 2 ^ 32 + o.off, o.len, if o.op = 2 then some o.len else none) else none
    | [] => none

/-- The bytes of a request are those of its segment. How a segment that only erases is counted is open: its request says it. -/
def segBytes (own : Option Nat) (len bytes : Nat) : Bool :=
  match own with
  | some n => bytes == n
  | none => decide (bytes ≤ len)

/-- A granted segment runs; it ends with the device's operations (XSPI_OP_DONE, MIRROR_SEGMENT_DONE). -/
def State.segGranted (s : State) (g : Segment) : State :=
  let t : State := { s with hm := { s.hm with granted := some g } }
  if g.user = .xspiCmd then t.xspiGranted else t

/-- One check of a segment (R276 to R278): granted, deferred with HOLDUP_SHORT, or abandoned after HU_TRIES checks. A segment that
is not granted during sleep entry is abandoned (R279). -/
def State.segCheck (s : State) (g : Segment) (code : Nat) : State :=
  let ok := s.huGrants code g.bytes
  let s1 := s.huMeasure code g.bytes ok
  if ok then s1.segGranted g
  else
    let s2 := s1.record 0 5
    if s.huTries ≤ g.tries + 1 ∨ s.dev = .entering then (s2.abandonSeg g.user).sleepResume
    else
      let g1 := { g with tries := g.tries + 1, nextAt := s.after (s.huRetry * 1000000) }
      { s2 with hm := { s2.hm with deferred := s2.hm.deferred ++ [g1] } }

/-- SEGMENT_REQUEST: after HM_MISMATCH or HM_DIVERGE it is refused at once (R533). -/
def execSegmentRequest (u : NvUser) (bytes : Nat) (code : BitVec 12) (s : State) : Out :=
  match s.wantsSegment u with
  | none => nothing s
  | some r =>
    let free := s.awake && s.hm.granted.isNone && !(s.hm.deferred.any fun g => g.user == u) && segBytes r.2.2 r.2.1 bytes
    when free s (if s.hm.broken then (s.abandonSeg u).sleepResume
      else s.segCheck { user := u, bytes := bytes, lo := r.1, len := r.2.1 } code.toNat)

/-- HOLDUP_RETRY: the oldest deferred segment whose HU_RETRY has expired is checked again. -/
def execHoldupRetry (code : BitVec 12) (s : State) : Out :=
  match s.hm.deferred.find? fun g => decide (g.nextAt ≤ s.clk.now) with
  | none => nothing s
  | some g =>
    let t : State := { s with hm := { s.hm with deferred := s.hm.deferred.erase g } }
    when (s.awake && s.hm.granted.isNone) s (if s.hm.broken then (t.abandonSeg g.user).sleepResume else t.segCheck g code.toNat)

/-! ## Injections and the Harbourmaster's own faults (R303 to R305, R531 to R534) -/

/-- BLK_INJ of an assigned slot. -/
def execManualInjection (who : Requester) (slot : BitVec 6) (v : U64) (s : State) : Out :=
  when (s.awake && assigned slot.toNat) s (s.injWrite who slot.toNat v)

/-- Both comparators see a difference, or one of them does: the copies run in every state but Off. -/
def execHmMismatch (groups : BitVec 6) (comp : BitVec 2) (s : State) : Out :=
  when (s.dev != .off && comp != 0) s (s.hmUpset groups.toNat comp.toNat)

/-- The comparators disagree. -/
def execHmDiverge (groups : BitVec 6) (comp : BitVec 2) (s : State) : Out :=
  when (s.dev != .off && (comp == 1 || comp == 2)) s (s.hmUpset groups.toNat comp.toNat)

/-! ## NACKs to block units (R464) -/

/-- BLOCK_NACK: the router hands the NACK to the block's message port and counts it. -/
def execBlockNack (m : Manifest) (s : State) : Out :=
  let u := mTarget m
  let s1 := (s.unsent m).count 9 F.ROUTE_STAT_BLOCK_NACK 0 1
  when (s.awake && s.mHere m && mNack m && decide (32 ≤ u) && decide (u ≤ 36) && mCrcOk m) s
    (if u = 36 then s1.evtLost (mTag m % 16) else if u = 34 then s1.pilotNack else s1)

end Sys2Proof.Machine
end

