-- ==== Sys2Proof/Machine/HostPaths.lean ====
section
/-! DEFINITION. The host paths: PCIe endpoint, SPI target, I3C target, JTAG and debug (18_host_field_interfaces.md R620 to R639,
R656 to R659).
Log entries: 6 PRESUMED, 99 DESIGN CHOICE, 100 DEDUCED, 101 DEDUCED, 102 DEDUCED, 103 DEDUCED, 106 DEDUCED. -/

namespace Sys2Proof.Machine

/-! ## Common rules -/

/-- Domain 42 is on and past its items; it may be draining. -/
def State.hostOn (s : State) : Bool :=
  s.ioRuns

/-- A request of a host path, captured and counted when its status is not OK (R622). While the domain drains it is answered DOWN
(R659). -/
def State.hostAsk (s : State) (p : HostPath) (a : Addr) (op : MemOp) : Ans :=
  let r := if (s.dom ioDomain).draining then ⟨.down, List.replicate (opLen op) 0, s⟩ else s.access (.host p) a op
  if r.st = .ok then r else ⟨r.st, r.data, r.s.hostErr p r.st a.toNat⟩

/-! ## PCIe endpoint (R623 to R631) -/

/-- The link is up and the endpoint answers. -/
def State.pcieUp (s : State) : Bool := s.hostOn && s.fld 0x10 F.HOST_STAT_LINK_UP 0 == 1

/-- Every block whose interrupt is pending sends its vector, in ascending vector order, when `p` holds of the vector (R628). -/
def State.sendPending (s : State) (p : Nat → Bool) : State :=
  (List.range 128).foldl (fun t v =>
    if p v then (allSlots.filter fun sl => t.irqPend sl && t.fld sl F.BLK_IRQ_VECTOR 0 == v).foldl (fun u sl => u.sendVector sl) t
    else t) s

/-- The MSI-X table (16 bytes a vector) and the pending-bit array in BAR0. -/
def msixTable : Nat := 0x1000000
def pendingBits : Nat := 0x1001000

/-- A byte of the MSI-X table: vectors are masked after a reset. -/
def State.tableByte (s : State) (i : Nat) : Byte := Tab.get (if i % 16 = 12 then 1 else 0) s.host.table i

/-- Writes the MSI-X table; a vector that becomes unmasked is sent for the blocks that are pending. -/
def State.tableWrite (s : State) (i : Nat) (d : List Byte) : State :=
  let s1 := (List.range d.length).foldl (fun (t : State) k =>
    let j := i + k
    t.withHost fun h => { h with table := Tab.set (if j % 16 = 12 then 1 else 0) h.table j (d.getD k 0) }) s
  s1.sendPending fun v => s.vecMasked v && !s1.vecMasked v

/-- A byte of the pending-bit array: vectors that wait for their mask. -/
def State.pbaByte (s : State) (i : Nat) : Byte :=
  BitVec.ofNat 8 (maskOf (List.range 8) fun b =>
    let v := 8 * i + b
    s.host.msixOn && s.vecMasked v && allSlots.any fun sl => s.irqPend sl && s.fld sl F.BLK_IRQ_VECTOR 0 == v)

/-- What a BAR offset reaches: an address, the MSI-X table, the pending-bit array, or a hole (R624, R625). -/
inductive BarPlace where
  | addr (a : Addr)
  | table (i : Nat)
  | pba (i : Nat)
  | hole

/-- Decodes a BAR offset. -/
def State.barPlace (s : State) (bar off : Nat) : BarPlace :=
  if bar = 0 then
    if off < 0x400000 then .addr (BitVec.ofNat 48 (regBase + off))
    else if msixTable ≤ off ∧ off < msixTable + 2048 then .table (off - msixTable)
    else if pendingBits ≤ off ∧ off < pendingBits + 16 then .pba (off - pendingBits)
    else .hole
  else .addr (BitVec.ofNat 48 (s.fld 0x10 F.HOST_WIN_BASE 0 * 2 ^ 32 + off))

/-- The offset lies inside the BAR: BAR0 has 64 MiB, BAR2 4 GiB. -/
def inBar (bar off n : Nat) : Bool :=
  (bar == 0 && decide (off + n ≤ 64 * 2 ^ 20)) || (bar == 2 && decide (off + n ≤ 2 ^ 32))

/-- One request of a split write or read. -/
def State.barAsk (s : State) (bar off : Nat) (op : MemOp) : Ans :=
  match s.barPlace bar off, op with
  | .addr a, op => s.hostAsk .pcie a op
  | .table i, .write d => ⟨.ok, [], s.tableWrite i d⟩
  | .table i, .read n => ⟨.ok, (List.range n).map fun k => s.tableByte (i + k), s⟩
  | .pba i, .read n => ⟨.ok, (List.range n).map fun k => s.pbaByte (i + k), s⟩
  | .pba _, _ => ⟨.ok, [], s⟩
  | _, op => ⟨.poison, List.replicate (opLen op) 0, (s.recordHole (.host .pcie)).hostErr .pcie .poison (regBase + off)⟩

/-- A write in pieces that keep to 256-byte blocks, in ascending order (R626). -/
def State.barWrite (bar : Nat) : Nat → State → Nat → List Byte → State
  | 0, s, _, _ => s
  | fuel + 1, s, off, d =>
    if d = [] then s
    else
      let k := min d.length (256 - off % 256)
      State.barWrite bar fuel (s.barAsk bar off (.write (d.take k))).s (off + k) (d.drop k)

/-- A read in pieces. -/
def State.barRead (bar : Nat) : Nat → State → Nat → Nat → Ans
  | 0, s, _, _ => ⟨.ok, [], s⟩
  | fuel + 1, s, off, n =>
    if n = 0 then ⟨.ok, [], s⟩
    else
      let k := min n (256 - off % 256)
      let r := s.barAsk bar off (.read k)
      let t := State.barRead bar fuel r.s (off + k) (n - k)
      ⟨mergeStatus r.st t.st, r.data ++ t.data, t.s⟩

/-- A completion leaves the endpoint. -/
def State.complete (s : State) (c : CplStatus) (d : List Byte) : State := s.withHost fun h => { h with cpl := h.cpl ++ [(c, d)] }

/-- The completion of a read: zeros in a successful one, or Completer Abort with PCIE_UE, for a status other than OK (R627). -/
def State.readComplete (r : Ans) : State :=
  if r.st ≠ .ok ∧ r.s.fld 0x10 F.HOST_CFG_CA_ON_POISON 0 = 1 then (r.s.record 0x10 2).complete .ca []
  else r.s.complete .sc r.data

def execPcieMemWrite (bar : Fin 3) (off : Nat) (data : List Byte) (s : State) : Out :=
  when (s.pcieUp && inBar bar off data.length) s (State.barWrite bar (spanFuel data.length) s off data)

def execPcieMemRead (bar : Fin 3) (off : Nat) (len : Nat) (s : State) : Out :=
  when (s.pcieUp && inBar bar off len && decide (len ≤ 4096)) s (State.readComplete (State.barRead bar (spanFuel len) s off len))

/-- The operation is an AtomicOp that the endpoint completes (Table 18-1). -/
def atomicKind : MemOp → Bool
  | .fetchAdd _ => true
  | .cas _ _ => true
  | _ => false

def execPcieAtomicOp (bar : Fin 3) (off : Nat) (op : MemOp) (s : State) : Out :=
  when (s.pcieUp && inBar bar off 8) s
    (if bar.val = 2 && off % 8 == 0 && atomicKind op then State.readComplete (s.barAsk 2 off op) else s.complete .ur [])

/-- The endpoint's reset: its link, its configuration space and its MSI-X table (R629). -/
def State.endpointReset (s : State) : State :=
  let s1 := ((s.setFld 0x10 F.HOST_STAT_LINK_UP 0 0).setFld 0x10 F.HOST_STAT_GEN 0 0).setFld 0x10 F.HOST_STAT_WIDTH 0 0
  s1.withHost fun h => { h with msixOn := false, table := [] }

def execPerstNLow (s : State) : Out := when s.hostOn s s.endpointReset
def execFlr (s : State) : Out := when s.pcieUp s s.endpointReset
def execHotReset (s : State) : Out := when s.pcieUp s s.endpointReset

/-- A configuration request: Retry Status in Start-check; enabling MSI-X sends the vectors of the pending blocks (R628, R630). -/
def execPcieConfigRequest (enableMsix : Option Bool) (s : State) : Out :=
  if !(s.awake && (s.dom ioDomain).power == .on && s.fld 0x10 F.HOST_STAT_LINK_UP 0 == 1) then nothing s
  else if s.dev = .startCheck then .next (s.complete .crs [])
  else
    let s1 := match enableMsix with
      | some b =>
        let t := s.withHost fun h => { h with msixOn := b }
        if b && !s.host.msixOn then t.sendPending fun _ => true else t
      | none => s
    .next (s1.complete .sc [])

/-- The link goes down by itself: PCIE_LINK. -/
def execPcieLinkDown (s : State) : Out :=
  when s.pcieUp s
    ((((s.setFld 0x10 F.HOST_STAT_LINK_UP 0 0).setFld 0x10 F.HOST_STAT_GEN 0 0).setFld 0x10 F.HOST_STAT_WIDTH 0 0).record 0x10 4)

/-- The link comes up with a generation and a width, and the pending blocks send their vectors. -/
def execPcieLinkUp (gen width : BitVec 3) (s : State) : Out :=
  let s1 := ((s.setFld 0x10 F.HOST_STAT_LINK_UP 0 1).setFld 0x10 F.HOST_STAT_GEN 0 gen.toNat).setFld 0x10 F.HOST_STAT_WIDTH 0 width.toNat
  when (s.awake && (s.dom ioDomain).power == .on && !(s.dom ioDomain).draining && s.fld 0x10 F.HOST_STAT_LINK_UP 0 == 0) s
    (s1.sendPending fun _ => true)

/-! ## Commands of a frame (Table 18-3) -/

/-- A frame's parameters are not allowed for its command (FRAME_ERR 4). -/
def State.frameBad (s : State) (cmd : Nat) (a : Addr) (len : Nat) (w : List Byte) : Bool :=
  match cmd with
  | 1 => !((len == 3 || len == 7) && placeKind (s.place a) == 6)
  | 2 => !(len == 7 && placeKind (s.place a) == 6)
  | 3 => !(len == 7 && a.toNat % 8 == 0 && decide (leNat (w.drop 4) ≤ 10000))
  | 6 => !(a == 0 && len == 7)
  | _ => false

/-- Bytes of the write part and of the response. -/
def frameWrites (cmd len : Nat) : Nat := if cmd = 2 then 8 else if cmd = 3 then 6 else if cmd = 5 then len + 1 else 0
def frameReads (cmd len : Nat) : Nat := if cmd = 1 ∨ cmd = 4 then len + 1 else if cmd = 3 ∨ cmd = 6 then 8 else 0

/-- The STATUS response (Table 18-4). -/
def State.statusBytes (s : State) : List Byte :=
  leBytes 8 (s.fld 0 F.HM_STATE_STATE 0 + s.fld 0 F.HM_SAFE_STAT_IN_SAFE 0 * 8 + s.irqLines * 16 + b2n s.hostReady * 256
    + s.host.done.toNat * 2 ^ 16 + s.tide.toNat / 1000 % 2 ^ 32 * 2 ^ 32)

/-- A command has been performed. -/
def State.hostDone (s : State) : State := s.withHost fun h => { h with done := h.done + 1 }

/-- COUNT minus the target is zero or positive as a signed 32-bit value. -/
def buoyHolds (d : List Byte) (target : U32) : Bool := pollHolds (BitVec.ofNat 64 (leNat d)) target

/-- BUOY_RD: the word is read at once; while it is short of the target and time is left, the command waits (R635). -/
def State.buoyRead (s : State) (p : HostPath) (a : Addr) (target : U32) (us : Nat) : Option (Status × List Byte) × State :=
  let r := s.hostAsk p a (.read 8)
  if r.st ≠ .ok then (some (r.st, r.data), r.s)
  else if buoyHolds r.data target then (some (.ok, r.data), r.s)
  else if us = 0 then (some (.busy, r.data), r.s)
  else
    let x : BuoyWait := ⟨p, a, target, s.after (us * 1000), s.after 1000, r.data⟩
    (none, r.s.withHost fun h => { h with buoy := h.buoy ++ [x] })

/-- A request of a frame. One of memory that crosses a 256-byte boundary breaks R45. -/
def State.frameAsk (s : State) (p : HostPath) (a : Addr) (op : MemOp) : Option (Status × List Byte) × State :=
  if wellSized a.toNat (opLen op) then
    let r := s.hostAsk p a op
    (some (r.st, r.data), r.s)
  else (some (.poison, match op with
    | .read n => List.replicate n 0
    | _ => []), (s.recordHole (.host p)).hostErr p .poison a.toNat)

/-- Performs a command whose frame has been checked: its status and response bytes, or none while it waits. -/
def State.frameDo (s : State) (p : HostPath) (cmd : Nat) (a : Addr) (len : Nat) (w : List Byte) : Option (Status × List Byte) × State :=
  match cmd with
  | 1 => (s.hostDone).frameAsk p a (.read (len + 1))
  | 2 => let r := (s.hostDone).frameAsk p a (.write w); (r.1.map fun x => (x.1, []), r.2)
  | 3 => (s.hostDone).buoyRead p a (BitVec.ofNat 32 (leNat (w.take 4))) (leNat (w.drop 4))
  | 4 => (s.hostDone).frameAsk p a (.read (len + 1))
  | 5 => let r := (s.hostDone).frameAsk p a (.write w); (r.1.map fun x => (x.1, []), r.2)
  | _ => (some (.ok, s.statusBytes), s)

/-! ## SPI target (R632 to R636) -/

/-- The SPI target takes a frame. -/
def State.spiOn (s : State) : Bool := s.hostOn && s.fld 0x10 F.HOST_CFG_SPI_EN 0 == 1

/-- A frame begins: what the previous one left is over. SPI_ERR takes the frame's FRAME_ERR. -/
def State.spiFrame (s : State) (err : Nat) : State :=
  let s1 := ((s.withHost fun h => { h with spi := none, buoy := h.buoy.filter fun x => x.path != .spi }).count 0x10
    F.HOST_CNT_SPI_FRAMES 0 1).setFld 0x10 F.HOST_STAT_SPI_ERR 0 err
  if 1 ≤ err ∧ err ≤ 4 then (s1.count 0x10 F.HOST_CNT_SPI_ERR 0 1).record 0x10 5 else s1

/-- A frame of a command whose CRCs hold. -/
def spiCommand (cmd : Nat) (a : Addr) (len : Nat) (w : List Byte) (s : State) : Out :=
  if !s.spiOn then nothing s
  else if w.length ≠ frameWrites cmd len then .next ((s.spiFrame 2).spiAnswer .poison 2 [])
  else if s.frameBad cmd a len w then .next ((s.spiFrame 4).spiAnswer .poison 4 [])
  else if !s.hostReady && cmd != 6 then .next ((s.spiFrame 5).spiAnswer .busy 5 [])
  else
    let r := (s.spiFrame 0).frameDo .spi cmd a len w
    match r.1 with
    | some x => .next (r.2.spiAnswer x.1 0 x.2)
    | none => .next r.2

def execRegRd (addr : Addr) (len : Byte) (s : State) : Out := spiCommand 1 addr len.toNat [] s
def execRegWr (addr : Addr) (len : Byte) (data : List Byte) (s : State) : Out := spiCommand 2 addr len.toNat data s
def execBuoyRd (addr : Addr) (len : Byte) (target : U32) (timeout : BitVec 16) (s : State) : Out :=
  spiCommand 3 addr len.toNat (leBytes 4 target.toNat ++ leBytes 2 timeout.toNat) s
def execMemRd (addr : Addr) (len : Byte) (s : State) : Out := spiCommand 4 addr len.toNat [] s
def execMemWr (addr : Addr) (len : Byte) (data : List Byte) (s : State) : Out := spiCommand 5 addr len.toNat data s
def execSpiStatus (s : State) : Out := spiCommand 6 0 7 [] s

/-- A frame with FRAME_ERR 1 to 4 (R633). -/
def execSpiBadFrame (err : Nat) (s : State) : Out :=
  when (s.spiOn && decide (1 ≤ err) && decide (err ≤ 4)) s ((s.spiFrame err).spiAnswer .poison err [])

/-- SPI_CS_N rises before the response has been clocked out: the frame is abandoned (R634). Before a command has been performed
there is nothing to undo. -/
def execSpiCsNRise (s : State) : Out :=
  let s1 := s.withHost fun h => { h with spi := none, buoy := h.buoy.filter fun x => x.path != .spi }
  when (s.spiOn && (s.host.spi.isSome || s.host.buoy.any fun x => x.path == .spi)) s
    (((s1.setFld 0x10 F.HOST_STAT_SPI_ERR 0 6).count 0x10 F.HOST_CNT_SPI_ERR 0 1).record 0x10 5)

/-- BUOY_RD_POLL: the oldest waiting BUOY_RD whose microsecond has passed reads its word again. -/
def execBuoyRdPoll (s : State) : Out :=
  match s.host.buoy.find? fun x => decide (x.next ≤ s.clk.now) with
  | none => nothing s
  | some x =>
    let r := s.hostAsk x.path x.addr (.read 8)
    let t : State :=
      if r.st ≠ .ok then r.s.buoyAnswer x r.st r.data
      else if buoyHolds r.data x.target then r.s.buoyAnswer x .ok r.data
      else if x.deadline ≤ s.clk.now then r.s.buoyAnswer x .busy r.data
      else r.s.withHost fun h => { h with buoy := h.buoy.map fun y => if y = x then { x with next := s.after 1000, last := r.data } else y }
    when s.hostOn s t

/-! ## I3C target (R637 to R639) -/

/-- The target is enabled; its dynamic address. -/
def State.i3cOn (s : State) : Bool := s.hostOn && s.fld 0x10 F.HOST_CFG_I3C_EN 0 == 1
def State.i3cAddr (s : State) : Nat := s.fld 0x10 F.HOST_STAT_I3C_DA 0

/-- The target answers with a NACK, or sends bytes. -/
def State.i3cNack (s : State) : State := s.withHost fun h => { h with i3cNak := true }
def State.i3cSend (s : State) (d : List Byte) : State := s.withHost fun h => { h with i3cNak := false, i3cOut := d }

/-- A response waits for its private read. -/
def State.i3cAnswer (s : State) (st : Status) (err : Nat) (d : List Byte) : State :=
  s.withHost fun h => { h with i3cNak := false, i3c := some (frameAnswer st err d) }

/-- A parity, CRC or framing error: I3C_ERR. -/
def State.i3cErr (s : State) : State := (s.count 0x10 F.HOST_CNT_I3C_ERR 0 1).record 0x10 6

/-- A frame of at least a header (Table 18-2): checked, and performed. -/
def State.i3cFrame (s : State) (f : List Byte) : State :=
  let cmd := (f.headD 0).toNat
  let a : Addr := BitVec.ofNat 48 (leNat ((f.drop 1).take 6))
  let len := (f.getD 7 0).toNat
  let n := frameWrites cmd len
  let w := (f.drop 10).take n
  if leNat ((f.drop 8).take 2) ≠ crc16 (f.take 8) then s.i3cErr.i3cAnswer .poison 1 []
  else if cmd = 0 ∨ 6 < cmd then s.i3cAnswer .poison 3 []
  else if f.length ≠ (if n = 0 then 10 else 12 + n) ∨ (n ≠ 0 ∧ leNat ((f.drop (10 + n)).take 2) ≠ crc16 w) then
    s.i3cErr.i3cAnswer .poison 2 []
  else if s.frameBad cmd a len w then s.i3cAnswer .poison 4 []
  else if !s.hostReady && cmd != 6 then s.i3cAnswer .busy 5 []
  else
    let r := s.frameDo .i3c cmd a len w
    match r.1 with
    | some x => r.2.i3cAnswer x.1 0 x.2
    | none => r.2.withHost fun h => { h with i3cNak := false }

/-- A private write: refused while a response is to be read, and when it is no frame (R638). -/
def execI3cPrivateWrite (frame : List Byte) (s : State) : Out :=
  if !s.i3cOn || s.i3cAddr == 0 then nothing s
  else if s.host.i3c.isSome || s.host.buoy.any (fun x => x.path == .i3c) then .next s.i3cNack
  else if frame.length < 10 ∨ 268 < frame.length then .next s.i3cErr
  else .next (s.i3cFrame frame)

/-- A private read: the response, or a NACK until it is ready. -/
def execI3cPrivateRead (s : State) : Out :=
  if !s.i3cOn || s.i3cAddr == 0 then nothing s
  else match s.host.i3c with
    | some d => .next (({ s with host := { s.host with i3c := none } }).i3cSend d)
    | none => .next s.i3cNack

/-- The provisional ID, most significant byte first. -/
def State.i3cPid (s : State) : List Byte := (leBytes 6 (0x0A6BA0320000 + s.chip)).reverse

/-- ENTDAA: a target without a dynamic address sends its PID, BCR and DCR and takes the address. -/
def execEntdaa (da : BitVec 7) (s : State) : Out :=
  when (s.i3cOn && s.i3cAddr == 0 && da != 0) s ((s.setFld 0x10 F.HOST_STAT_I3C_DA 0 da.toNat).i3cSend (s.i3cPid ++ [0x06, 0x00]))

/-- SETDASA: from the static address, when it is not zero. -/
def execSetdasa (sa da : BitVec 7) (s : State) : Out :=
  let own := s.fld 0x10 F.HOST_CFG_I3C_SADDR 0
  when (s.i3cOn && s.i3cAddr == 0 && own != 0 && own == sa.toNat && da != 0) s
    ((s.setFld 0x10 F.HOST_STAT_I3C_DA 0 da.toNat).i3cSend [])

def execSetnewda (da : BitVec 7) (s : State) : Out :=
  when (s.i3cOn && s.i3cAddr != 0 && da != 0) s ((s.setFld 0x10 F.HOST_STAT_I3C_DA 0 da.toNat).i3cSend [])

def execRstdaa (s : State) : Out := when s.i3cOn s ((s.setFld 0x10 F.HOST_STAT_I3C_DA 0 0).i3cSend [])

/-- ENEC and DISEC: in-band interrupts. -/
def execEnec (s : State) : Out := when s.i3cOn s ((s.withHost fun h => { h with events := true }).i3cSend [])
def execDisec (s : State) : Out := when s.i3cOn s ((s.withHost fun h => { h with events := false }).i3cSend [])

/-- A directed CCC that reads: the addressed target sends bytes. -/
def ccRead (d : List Byte) (s : State) : Out := when (s.i3cOn && s.i3cAddr != 0) s (s.i3cSend d)

def execGetpid (s : State) : Out := ccRead s.i3cPid s
def execGetbcr (s : State) : Out := ccRead [0x06] s
def execGetdcr (s : State) : Out := ccRead [0x00] s
/-- GETSTATUS: the manual does not state the two bytes. -/
def execGetstatus (s : State) : Out :=
  let f := s.freeVal
  if s.i3cOn && s.i3cAddr != 0 then .next (f.2.i3cSend (leBytes 2 f.1.toNat)) else nothing s
/-- GETMWL: 268 bytes, most significant byte first (R638). -/
def execGetmwl (s : State) : Out := ccRead [0x01, 0x0C] s
/-- GETMRL: STATUS, 256 response bytes and RCRC, and one payload byte of an in-band interrupt. -/
def execGetmrl (s : State) : Out := ccRead [0x01, 0x03, 0x01] s

/-- The CCCs that the target supports, by code: broadcast and direct ENEC, DISEC and RSTDAA, ENTDAA, SETDASA, SETNEWDA, GETMWL,
GETMRL, GETPID, GETBCR, GETDCR, GETSTATUS. -/
def cccs : List Nat := [0x00, 0x01, 0x06, 0x07, 0x80, 0x81, 0x86, 0x87, 0x88, 0x8B, 0x8C, 0x8D, 0x8E, 0x8F, 0x90]

/-- Every other CCC is answered with a NACK. -/
def execI3cOtherCcc (code : Byte) (s : State) : Out := when (s.i3cOn && !cccs.contains code.toNat) s s.i3cNack

/-! ## JTAG and debug (R656 to R658) -/

/-- The TAP holds an instruction and has captured what it shifts out. -/
def State.tap (s : State) (ir out : Nat) : State :=
  (s.withHost fun h => { h with tapIr := ir, tapOut := out }).markOut s

def execBypass (s : State) : Out := when s.hostOn s (s.tap 0 0)
def execIdcode (s : State) : Out := when s.hostOn s (s.tap 1 (Config.dieRev.val * 2 ^ 28 + 0xA03296F))

/-- SAMPLE/PRELOAD captures the balls, which the model does not hold, and preloads the boundary cells. -/
def execSamplePreload (cells : Nat) (s : State) : Out :=
  let f := s.freeVal
  if s.hostOn then .next ((f.2.tap 2 f.1.toNat).withHost fun h => { h with cells := cells }) else nothing s

/-- EXTEST and CLAMP drive the cells; in Run they load BYPASS and set REFUSED. -/
def State.tapDrive (s : State) (ir : Nat) (cells : Nat) : State :=
  if s.dev = .run then (s.tap 0 0).setFld 0x10 F.HOST_DBG_REFUSED 0 1
  else ((s.tap ir s.host.tapOut).withHost fun h => { h with cells := cells })

def execExtest (cells : Nat) (s : State) : Out := when s.hostOn s (s.tapDrive 3 cells)
def execClamp (s : State) : Out := when s.hostOn s (s.tapDrive 4 s.host.cells)

/-- The presence window closes in this tick (R660). -/
def State.windowEnds (s : State) : Bool := s.person.winEnd.any (fun t => decide (t ≤ s.clk.ticks)) && !s.pins.factory

/-- DEBUG: an access by the fourth host path while HOST_DBG.EN is 1; the TAP shifts its data out. -/
def execDebug (addr : Addr) (op : MemOp) (s : State) : Out :=
  let r := s.hostAsk .jtag addr op
  when (s.hostOn && s.fld 0x10 F.HOST_DBG_EN 0 == 1 && !s.windowEnds) s (r.s.tap 5 (leNat r.data))

end Sys2Proof.Machine
end

