-- ==== Sys2Proof/Machine/Dispatch.lean ====
section
/-! DEFINITION. One arm per command: its meaning. -/

namespace Sys2Proof.Machine

/-- What a command does to everything but the queue. -/
def exec (i : Instr) (s : State) : Host.Outcome State Fault Refusal :=
  match i with
  | .registerWrite who addr size v parityOk => Sys2Proof.Machine.execRegisterWrite who addr size v parityOk s
  | .memoryRequest who tag epoch addr op => Sys2Proof.Machine.execMemoryRequest who tag epoch addr op s
  | .basinScrub busy => Sys2Proof.Machine.execBasinScrub busy s
  | .memoryTrainingDone cap0 cap1 => Sys2Proof.Machine.execMemoryTrainingDone cap0 cap1 s
  | .lockMismatch u buses comp => Sys2Proof.Machine.execLockMismatch u buses comp s
  | .compDiverge u buses comp => Sys2Proof.Machine.execCompDiverge u buses comp s
  | .craneCompletion n tag epoch => Sys2Proof.Machine.execCraneCompletion n tag epoch s
  | .craneTimeout n tag => Sys2Proof.Machine.execCraneTimeout n tag s
  | .add n d a b => Sys2Proof.Machine.execAdd n d a b s
  | .sub n d a b => Sys2Proof.Machine.execSub n d a b s
  | .and n d a b => Sys2Proof.Machine.execAnd n d a b s
  | .or n d a b => Sys2Proof.Machine.execOr n d a b s
  | .xor n d a b => Sys2Proof.Machine.execXor n d a b s
  | .shl n d a b => Sys2Proof.Machine.execShl n d a b s
  | .shr n d a b => Sys2Proof.Machine.execShr n d a b s
  | .sar n d a b => Sys2Proof.Machine.execSar n d a b s
  | .mul n d a b => Sys2Proof.Machine.execMul n d a b s
  | .min n d a b => Sys2Proof.Machine.execMin n d a b s
  | .max n d a b => Sys2Proof.Machine.execMax n d a b s
  | .cmp n a b => Sys2Proof.Machine.execCmp n a b s
  | .addi n d a imm => Sys2Proof.Machine.execAddi n d a imm s
  | .andi n d a imm => Sys2Proof.Machine.execAndi n d a imm s
  | .ori n d a imm => Sys2Proof.Machine.execOri n d a imm s
  | .xori n d a imm => Sys2Proof.Machine.execXori n d a imm s
  | .shli n d a imm => Sys2Proof.Machine.execShli n d a imm s
  | .shri n d a imm => Sys2Proof.Machine.execShri n d a imm s
  | .sari n d a imm => Sys2Proof.Machine.execSari n d a imm s
  | .cmpi n a imm => Sys2Proof.Machine.execCmpi n a imm s
  | .movi n d imm => Sys2Proof.Machine.execMovi n d imm s
  | .movhi n d hw imm => Sys2Proof.Machine.execMovhi n d hw imm s
  | .amov n d a => Sys2Proof.Machine.execAmov n d a s
  | .gmov n d a => Sys2Proof.Machine.execGmov n d a s
  | .aaddi n d a imm => Sys2Proof.Machine.execAaddi n d a imm s
  | .ld n d a imm => Sys2Proof.Machine.execLd n d a imm s
  | .ldw n d a imm => Sys2Proof.Machine.execLdw n d a imm s
  | .st n d a imm => Sys2Proof.Machine.execSt n d a imm s
  | .stw n d a imm => Sys2Proof.Machine.execStw n d a imm s
  | .fadd n d a b => Sys2Proof.Machine.execFadd n d a b s
  | .cas n d a b => Sys2Proof.Machine.execCas n d a b s
  | .loadComplete n => Sys2Proof.Machine.execLoadComplete n s
  | .b n cond off => Sys2Proof.Machine.execB n cond off s
  | .call n off => Sys2Proof.Machine.execCall n off s
  | .ret n => Sys2Proof.Machine.execRet n s
  | .loop n l c len => Sys2Proof.Machine.execLoop n l c len s
  | .loopi n l count len => Sys2Proof.Machine.execLoopi n l count len s
  | .illegalInstruction n word => Sys2Proof.Machine.execIllegalInstruction n word s
  | .wo n d a => Sys2Proof.Machine.execWo n d a s
  | .woEntryFree n => Sys2Proof.Machine.execWoEntryFree n s
  | .send n d a => Sys2Proof.Machine.execSend n d a s
  | .sendnb n d a => Sys2Proof.Machine.execSendnb n d a s
  | .sendAccept n => Sys2Proof.Machine.execSendAccept n s
  | .mooringTimeout n => Sys2Proof.Machine.execMooringTimeout n s
  | .poll n d a b unit count => Sys2Proof.Machine.execPoll n d a b unit count s
  | .pollSatisfied n => Sys2Proof.Machine.execPollSatisfied n s
  | .pollTimeout n => Sys2Proof.Machine.execPollTimeout n s
  | .relq n q => Sys2Proof.Machine.execRelq n q s
  | .waitt n a => Sys2Proof.Machine.execWaitt n a s
  | .waittResume n => Sys2Proof.Machine.execWaittResume n s
  | .rdtide n d => Sys2Proof.Machine.execRdtide n d s
  | .fence n w => Sys2Proof.Machine.execFence n w s
  | .fenceRetire n => Sys2Proof.Machine.execFenceRetire n s
  | .commit n d a => Sys2Proof.Machine.execCommit n d a s
  | .commitPublish n => Sys2Proof.Machine.execCommitPublish n s
  | .squash n a => Sys2Proof.Machine.execSquash n a s
  | .stamp n a idx => Sys2Proof.Machine.execStamp n a idx s
  | .yield n => Sys2Proof.Machine.execYield n s
  | .yieldResume n => Sys2Proof.Machine.execYieldResume n s
  | .halt n => Sys2Proof.Machine.execHalt n s
  | .seqCtlStop who n => Sys2Proof.Machine.execSeqCtlStop who n s
  | .seqCtlResume who n => Sys2Proof.Machine.execSeqCtlResume who n s
  | .matmul n => Sys2Proof.Machine.execMatmul n s
  | .conv n => Sys2Proof.Machine.execConv n s
  | .dwconv n => Sys2Proof.Machine.execDwconv n s
  | .pool n => Sys2Proof.Machine.execPool n s
  | .elem n => Sys2Proof.Machine.execElem n s
  | .reduce n => Sys2Proof.Machine.execReduce n s
  | .s2d n => Sys2Proof.Machine.execS2d n s
  | .d2s n => Sys2Proof.Machine.execD2s n s
  | .fmcomp n => Sys2Proof.Machine.execFmcomp n s
  | .fmdecomp n => Sys2Proof.Machine.execFmdecomp n s
  | .attnblk n => Sys2Proof.Machine.execAttnblk n s
  | .kvappend n => Sys2Proof.Machine.execKvappend n s
  | .cvt n => Sys2Proof.Machine.execCvt n s
  | .copy n => Sys2Proof.Machine.execCopy n s
  | .workOrderComplete n seq => Sys2Proof.Machine.execWorkOrderComplete n seq s
  | .fmtCntClr n => Sys2Proof.Machine.execFmtCntClr n s
  | .fmcCntClr n => Sys2Proof.Machine.execFmcCntClr n s
  | .craneCntClr n => Sys2Proof.Machine.execCraneCntClr n s
  | .holdEccClr n => Sys2Proof.Machine.execHoldEccClr n s
  | .basinEccClr => Sys2Proof.Machine.execBasinEccClr s
  | .mcEccClr c => Sys2Proof.Machine.execMcEccClr c s
  | .kvCntClr => Sys2Proof.Machine.execKvCntClr s
  | .drgCntClr => Sys2Proof.Machine.execDrgCntClr s
  | .inCntClr => Sys2Proof.Machine.execInCntClr s
  | .quayCntClr q => Sys2Proof.Machine.execQuayCntClr q s
  | .bootLoad => Sys2Proof.Machine.execBootLoad s
  | .residentChartLoad => Sys2Proof.Machine.execResidentChartLoad s
  | .reportTimeout => Sys2Proof.Machine.execReportTimeout s
  | .chartBatch secType addr len x y => Sys2Proof.Machine.execChartBatch secType addr len x y s
  | .batchAnswer chip st => Sys2Proof.Machine.execBatchAnswer chip st s
  | .batchTimeout chip => Sys2Proof.Machine.execBatchTimeout chip s
  | .chartStart => Sys2Proof.Machine.execChartStart s
  | .berthAvailableTimeout n => Sys2Proof.Machine.execBerthAvailableTimeout n s
  | .pilotBoot => Sys2Proof.Machine.execPilotBoot s
  | .load => Sys2Proof.Machine.execLoad s
  | .rechart part => Sys2Proof.Machine.execRechart part s
  | .store => Sys2Proof.Machine.execStore s
  | .porNFall lowNs => Sys2Proof.Machine.execPorNFall lowNs s
  | .porNRise gpio factoryN estopA estopB => Sys2Proof.Machine.execPorNRise gpio factoryN estopA estopB s
  | .wake src => Sys2Proof.Machine.execWake src s
  | .tideAlarm => Sys2Proof.Machine.execTideAlarm s
  | .referenceCheck count => Sys2Proof.Machine.execReferenceCheck count s
  | .pllLock p => Sys2Proof.Machine.execPllLock p s
  | .pllLockTimeout p => Sys2Proof.Machine.execPllLockTimeout p s
  | .domainOn d fails => Sys2Proof.Machine.execDomainOn d fails s
  | .domainPowerOn who d => Sys2Proof.Machine.execDomainPowerOn who d s
  | .domainPowerOff who d => Sys2Proof.Machine.execDomainPowerOff who d s
  | .domainReset who d => Sys2Proof.Machine.execDomainReset who d s
  | .drainOutboundDone d => Sys2Proof.Machine.execDrainOutboundDone d s
  | .drainTimeout d => Sys2Proof.Machine.execDrainTimeout d s
  | .domainResetHoldEnd d => Sys2Proof.Machine.execDomainResetHoldEnd d s
  | .warmReset who => Sys2Proof.Machine.execWarmReset who s
  | .serviceEnter who => Sys2Proof.Machine.execServiceEnter who s
  | .sleepRequest who => Sys2Proof.Machine.execSleepRequest who s
  | .sleepEntryComplete => Sys2Proof.Machine.execSleepEntryComplete s
  | .aoTick raw => Sys2Proof.Machine.execAoTick raw s
  | .xtalSwitch => Sys2Proof.Machine.execXtalSwitch s
  | .tideSyncTimer => Sys2Proof.Machine.execTideSyncTimer s
  | .sync q kind time master crcOk => Sys2Proof.Machine.execSync q kind time master crcOk s
  | .tideParentTimeout => Sys2Proof.Machine.execTideParentTimeout s
  | .masterElectionTimeout => Sys2Proof.Machine.execMasterElectionTimeout s
  | .masterClaim chip => Sys2Proof.Machine.execMasterClaim chip s
  | .timePps => Sys2Proof.Machine.execTimePps s
  | .tideSet who v => Sys2Proof.Machine.execTideSet who v s
  | .segmentRequest u bytes code => Sys2Proof.Machine.execSegmentRequest u bytes code s
  | .holdupRetry code => Sys2Proof.Machine.execHoldupRetry code s
  | .startCheck => Sys2Proof.Machine.execStartCheck s
  | .scInjectionWindow f => Sys2Proof.Machine.execScInjectionWindow f s
  | .startCheckDone => Sys2Proof.Machine.execStartCheckDone s
  | .manualInjection who slot v => Sys2Proof.Machine.execManualInjection who slot v s
  | .frameStart r vc frameNo ecc => Sys2Proof.Machine.execFrameStart r vc frameNo ecc s
  | .linePacket r vc dt data ecc crcOk => Sys2Proof.Machine.execLinePacket r vc dt data ecc crcOk s
  | .frameEnd r vc frameNo ecc => Sys2Proof.Machine.execFrameEnd r vc frameNo ecc s
  | .frameTimeout i_ => Sys2Proof.Machine.execFrameTimeout i_ s
  | .ringWriteComplete i_ st => Sys2Proof.Machine.execRingWriteComplete i_ st s
  | .intakeLink r => Sys2Proof.Machine.execIntakeLink r s
  | .streamClaim who i_ => Sys2Proof.Machine.execStreamClaim who i_ s
  | .streamRel who i_ slot => Sys2Proof.Machine.execStreamRel who i_ slot s
  | .streamCntClr who i_ => Sys2Proof.Machine.execStreamCntClr who i_ s
  | .streamEnable who i_ => Sys2Proof.Machine.execStreamEnable who i_ s
  | .streamDisable who i_ => Sys2Proof.Machine.execStreamDisable who i_ s
  | .cgOutcome n cg confirm => Sys2Proof.Machine.execCgOutcome n cg confirm s
  | .fsyncPulse k => Sys2Proof.Machine.execFsyncPulse k s
  | .fsyncPulseEnd k => Sys2Proof.Machine.execFsyncPulseEnd k s
  | .kvOpen src reply seq => Sys2Proof.Machine.execKvOpen src reply seq s
  | .kvClose src reply seq => Sys2Proof.Machine.execKvClose src reply seq s
  | .kvFork src reply dst srcSeq t => Sys2Proof.Machine.execKvFork src reply dst srcSeq t s
  | .kvTrunc src reply seq t => Sys2Proof.Machine.execKvTrunc src reply seq t s
  | .kvDispatch src reply layer count list => Sys2Proof.Machine.execKvDispatch src reply layer count list s
  | .kvStow src reply pool => Sys2Proof.Machine.execKvStow src reply pool s
  | .kvQuery src reply seq => Sys2Proof.Machine.execKvQuery src reply seq s
  | .kvRestore p => Sys2Proof.Machine.execKvRestore p s
  | .kvUnstow p => Sys2Proof.Machine.execKvUnstow p s
  | .submit src reply k desc => Sys2Proof.Machine.execSubmit src reply k desc s
  | .pause src reply k => Sys2Proof.Machine.execPause src reply k s
  | .resume src reply k => Sys2Proof.Machine.execResume src reply k s
  | .stop src reply k => Sys2Proof.Machine.execStop src reply k s
  | .collect src reply k => Sys2Proof.Machine.execCollect src reply k s
  | .drgStatus src reply k => Sys2Proof.Machine.execDrgStatus src reply k s
  | .drgProblemStart => Sys2Proof.Machine.execDrgProblemStart s
  | .drgLoadDone => Sys2Proof.Machine.execDrgLoadDone s
  | .drgStep => Sys2Proof.Machine.execDrgStep s
  | .manifestDelivery m flow => Sys2Proof.Machine.execManifestDelivery m flow s
  | .creditReturn n flow cause => Sys2Proof.Machine.execCreditReturn n flow cause s
  | .blockNack m => Sys2Proof.Machine.execBlockNack m s
  | .headFlitRoute from_ p => Sys2Proof.Machine.execHeadFlitRoute from_ p s
  | .flitGroup q gseq crcOk flits => Sys2Proof.Machine.execFlitGroup q gseq crcOk flits s
  | .cred q counts crcOk => Sys2Proof.Machine.execCred q counts crcOk s
  | .credTimer q => Sys2Proof.Machine.execCredTimer q s
  | .ack q ackseq crcOk => Sys2Proof.Machine.execAck q ackseq crcOk s
  | .nak q ackseq crcOk => Sys2Proof.Machine.execNak q ackseq crcOk s
  | .ackTimer q => Sys2Proof.Machine.execAckTimer q s
  | .replayTimeout q => Sys2Proof.Machine.execReplayTimeout q s
  | .sleepNotice q => Sys2Proof.Machine.execSleepNotice q s
  | .quiesce q => Sys2Proof.Machine.execQuiesce q s
  | .linkLoss q cause => Sys2Proof.Machine.execLinkLoss q cause s
  | .linkTraining q => Sys2Proof.Machine.execLinkTraining q s
  | .laneTestEnd q pass => Sys2Proof.Machine.execLaneTestEnd q pass s
  | .linkActive q nb => Sys2Proof.Machine.execLinkActive q nb s
  | .trainRetry q => Sys2Proof.Machine.execTrainRetry q s
  | .quayWake q => Sys2Proof.Machine.execQuayWake q s
  | .routeStall vc => Sys2Proof.Machine.execRouteStall vc s
  | .boardWindowRequest p => Sys2Proof.Machine.execBoardWindowRequest p s
  | .resp p => Sys2Proof.Machine.execResp p s
  | .lighterEnqueue m => Sys2Proof.Machine.execLighterEnqueue m s
  | .bopen x y xfer m => Sys2Proof.Machine.execBopen x y xfer m s
  | .bgrant xfer st => Sys2Proof.Machine.execBgrant xfer st s
  | .bgrantBusyRepeat => Sys2Proof.Machine.execBgrantBusyRepeat s
  | .bgrantTimeout xfer => Sys2Proof.Machine.execBgrantTimeout xfer s
  | .bseg x y xfer segOff final poison data => Sys2Proof.Machine.execBseg x y xfer segOff final poison data s
  | .bsegTimeout x y xfer => Sys2Proof.Machine.execBsegTimeout x y xfer s
  | .ltRelease who addr => Sys2Proof.Machine.execLtRelease who addr s
  | .hmMismatch groups comp => Sys2Proof.Machine.execHmMismatch groups comp s
  | .hmDiverge groups comp => Sys2Proof.Machine.execHmDiverge groups comp s
  | .clkMonWindow clock count expected => Sys2Proof.Machine.execClkMonWindow clock count expected s
  | .rcCheck window count => Sys2Proof.Machine.execRcCheck window count s
  | .stampArrival n i_ t => Sys2Proof.Machine.execStampArrival n i_ t s
  | .lhAgeExpiry i_ => Sys2Proof.Machine.execLhAgeExpiry i_ s
  | .lhPeriodExpiry i_ => Sys2Proof.Machine.execLhPeriodExpiry i_ s
  | .lhFirstExpiry i_ => Sys2Proof.Machine.execLhFirstExpiry i_ s
  | .blkFaultWrite who slot v => Sys2Proof.Machine.execBlkFaultWrite who slot v s
  | .blkFmaskWrite who slot v => Sys2Proof.Machine.execBlkFmaskWrite who slot v s
  | .blkIrqWrite who slot v => Sys2Proof.Machine.execBlkIrqWrite who slot v s
  | .blkAck who slot => Sys2Proof.Machine.execBlkAck who slot s
  | .graceExpiry slot => Sys2Proof.Machine.execGraceExpiry slot s
  | .soCmdWrite who v => Sys2Proof.Machine.execSoCmdWrite who v s
  | .safeNLow lowNs => Sys2Proof.Machine.execSafeNLow lowNs s
  | .soRbMism k => Sys2Proof.Machine.execSoRbMism k s
  | .safeExit who => Sys2Proof.Machine.execSafeExit who s
  | .logEntryWrite uncorrectable => Sys2Proof.Machine.execLogEntryWrite uncorrectable s
  | .mirrorNow who => Sys2Proof.Machine.execMirrorNow who s
  | .mirrorPeriod => Sys2Proof.Machine.execMirrorPeriod s
  | .mirrorThresh => Sys2Proof.Machine.execMirrorThresh s
  | .mirrorSegmentDone st differs => Sys2Proof.Machine.execMirrorSegmentDone st differs s
  | .logClear who => Sys2Proof.Machine.execLogClear who s
  | .spareVote => Sys2Proof.Machine.execSpareVote s
  | .logRdRead who w => Sys2Proof.Machine.execLogRdRead who w s
  | .inputFilterChange i_ => Sys2Proof.Machine.execInputFilterChange i_ s
  | .chatter i_ => Sys2Proof.Machine.execChatter i_ s
  | .chatterRunEnd i_ => Sys2Proof.Machine.execChatterRunEnd i_ s
  | .wakeStuck w => Sys2Proof.Machine.execWakeStuck w s
  | .serviceStuck => Sys2Proof.Machine.execServiceStuck s
  | .serviceStuckRelease => Sys2Proof.Machine.execServiceStuckRelease s
  | .presenceWindowExpiry => Sys2Proof.Machine.execPresenceWindowExpiry s
  | .sealSample level => Sys2Proof.Machine.execSealSample level s
  | .estopLow ch lowNs => Sys2Proof.Machine.execEstopLow ch lowNs s
  | .estopRise ch => Sys2Proof.Machine.execEstopRise ch s
  | .estopDisc => Sys2Proof.Machine.execEstopDisc s
  | .estopStable => Sys2Proof.Machine.execEstopStable s
  | .touchScan raw => Sys2Proof.Machine.execTouchScan raw s
  | .touchStuck p => Sys2Proof.Machine.execTouchStuck p s
  | .pcieMemWrite bar off data => Sys2Proof.Machine.execPcieMemWrite bar off data s
  | .pcieMemRead bar off len => Sys2Proof.Machine.execPcieMemRead bar off len s
  | .pcieAtomicOp bar off op => Sys2Proof.Machine.execPcieAtomicOp bar off op s
  | .perstNLow => Sys2Proof.Machine.execPerstNLow s
  | .flr => Sys2Proof.Machine.execFlr s
  | .hotReset => Sys2Proof.Machine.execHotReset s
  | .regRd addr len => Sys2Proof.Machine.execRegRd addr len s
  | .regWr addr len data => Sys2Proof.Machine.execRegWr addr len data s
  | .buoyRd addr len target timeout => Sys2Proof.Machine.execBuoyRd addr len target timeout s
  | .buoyRdPoll => Sys2Proof.Machine.execBuoyRdPoll s
  | .memRd addr len => Sys2Proof.Machine.execMemRd addr len s
  | .memWr addr len data => Sys2Proof.Machine.execMemWr addr len data s
  | .spiStatus => Sys2Proof.Machine.execSpiStatus s
  | .spiCsNRise => Sys2Proof.Machine.execSpiCsNRise s
  | .i3cPrivateWrite frame => Sys2Proof.Machine.execI3cPrivateWrite frame s
  | .i3cPrivateRead => Sys2Proof.Machine.execI3cPrivateRead s
  | .entdaa da => Sys2Proof.Machine.execEntdaa da s
  | .setdasa sa da => Sys2Proof.Machine.execSetdasa sa da s
  | .setnewda da => Sys2Proof.Machine.execSetnewda da s
  | .rstdaa => Sys2Proof.Machine.execRstdaa s
  | .enec => Sys2Proof.Machine.execEnec s
  | .disec => Sys2Proof.Machine.execDisec s
  | .getpid => Sys2Proof.Machine.execGetpid s
  | .getbcr => Sys2Proof.Machine.execGetbcr s
  | .getdcr => Sys2Proof.Machine.execGetdcr s
  | .getstatus => Sys2Proof.Machine.execGetstatus s
  | .getmwl => Sys2Proof.Machine.execGetmwl s
  | .getmrl => Sys2Proof.Machine.execGetmrl s
  | .canReceive c f crcOk sof => Sys2Proof.Machine.execCanReceive c f crcOk sof s
  | .canTransmit c res => Sys2Proof.Machine.execCanTransmit c res s
  | .canBusoffRecovery c => Sys2Proof.Machine.execCanBusoffRecovery c s
  | .ethReceive m frame fcsOk sfd => Sys2Proof.Machine.execEthReceive m frame fcsOk sfd s
  | .ethKick who m => Sys2Proof.Machine.execEthKick who m s
  | .ethTransmitDone f => Sys2Proof.Machine.execEthTransmitDone f s
  | .ethMdio who m v rd => Sys2Proof.Machine.execEthMdio who m v rd s
  | .xspiRead who local_ => Sys2Proof.Machine.execXspiRead who local_ s
  | .xspiProgram who local_ => Sys2Proof.Machine.execXspiProgram who local_ s
  | .xspiErase4k who => Sys2Proof.Machine.execXspiErase4k who s
  | .xspiErase64k who => Sys2Proof.Machine.execXspiErase64k who s
  | .xspiOpDone stuck => Sys2Proof.Machine.execXspiOpDone stuck s
  | .spicStart k => Sys2Proof.Machine.execSpicStart k s
  | .spicDone k rx => Sys2Proof.Machine.execSpicDone k rx s
  | .uartReceive v parityOk framingOk => Sys2Proof.Machine.execUartReceive v parityOk framingOk s
  | .uartTransmit who v => Sys2Proof.Machine.execUartTransmit who v s
  | .bypass => Sys2Proof.Machine.execBypass s
  | .idcode => Sys2Proof.Machine.execIdcode s
  | .samplePreload cells => Sys2Proof.Machine.execSamplePreload cells s
  | .extest cells => Sys2Proof.Machine.execExtest cells s
  | .clamp => Sys2Proof.Machine.execClamp s
  | .debug addr op => Sys2Proof.Machine.execDebug addr op s
  | .svcLeaveWrite who => Sys2Proof.Machine.execSvcLeaveWrite who s
  | .pcieConfigRequest enableMsix => Sys2Proof.Machine.execPcieConfigRequest enableMsix s
  | .pcieLinkDown => Sys2Proof.Machine.execPcieLinkDown s
  | .pcieLinkUp gen width => Sys2Proof.Machine.execPcieLinkUp gen width s
  | .ethLinkDown m => Sys2Proof.Machine.execEthLinkDown m s
  | .safeNHigh => Sys2Proof.Machine.execSafeNHigh s
  | .safeFbChange k level => Sys2Proof.Machine.execSafeFbChange k level s
  | .aoIoRailsInRange => Sys2Proof.Machine.execAoIoRailsInRange s
  | .safepolPinChange level => Sys2Proof.Machine.execSafepolPinChange level s
  | .xtalStartTimeout => Sys2Proof.Machine.execXtalStartTimeout s
  | .linkDetect q lanes => Sys2Proof.Machine.execLinkDetect q lanes s
  | .domainSwitchGroup => Sys2Proof.Machine.execDomainSwitchGroup s
  | .spiBadFrame err => Sys2Proof.Machine.execSpiBadFrame err s
  | .i3cOtherCcc code => Sys2Proof.Machine.execI3cOtherCcc code s
  | .canEnWrite who c v => Sys2Proof.Machine.execCanEnWrite who c v s

end Sys2Proof.Machine
end

