-- ==== Sys2Proof/Safety.lean ====
section
/-! DEFINITION. What counts as a safe state and a safe step, in the terms that claims use. -/

namespace Sys2Proof.Machine

/-- The step goes on. -/
def goesOn (o : Out) : Bool :=
  match o with
  | .next _ => true
  | .fault _ => false
  | .refused _ => false

/-- Every safe output is at its safe level (R572, R573). -/
def State.outputsSafe (s : State) : Bool := (List.range 4).all fun k => !s.outActive k

/-- An output is active only in Run, with no input line of the safe output stage asserted (R572). -/
def State.outputsGuarded (s : State) : Bool := s.outputsSafe || (s.dev == .run && !s.anyLine)

/-- The stored tables are in canonical form: keys rise strictly and no default is listed. -/
def State.memoryWf (s : State) : Bool := Tab.wf 0 s.mem

end Sys2Proof.Machine
end

