-- ==== Sys2Proof/Certificates/Slice0/Obligations.lean ====
section
/-! DEFINITION. The statements for the provers. Each names the rules of spec/ it formalises; a clause that rests on a choice of
the model names the log entry. -/

open Sys2Proof Sys2Proof.Machine

namespace Sys2Proof.Claims

/-! ## Words that the statements share -/

/-- Berth `n` issues its next instruction: its sequencer runs and waits for nothing, the counter lies in the program region and
the fetch is OK. -/
def Ready (n : Fin 32) (s : State) : Prop := s.issues n = true ∧ (s.berth n).pc < s.progWords n ∧ (s.fetch n).st = .ok

/-- The word at the counter of Berth `n` is the instruction `i` (R123). -/
def Fetches (n : Fin 32) (i : Instr) (s : State) : Prop := seqWord i = some (s.wordAt n)

/-- The state after the fetch of the instruction: the fetch may correct and record an ECC error of the word. -/
def fetched (n : Fin 32) (s : State) : State := (s.fetch n).s

/-- Gr of Berth `n`. -/
def G (n : Fin 32) (x : State) (r : Fin 16) : U64 := (x.berth n).gr r

/-- Ar of Berth `n`. -/
def A (n : Fin 32) (x : State) (r : Fin 8) : Addr := (x.berth n).ar r

/-- Nothing but Berth `n` differs. -/
def OnlyBerth (n : Fin 32) (x t : State) : Prop := t = x.setBerth n (t.berth n)

/-- The flags Z, N, C and E of Berth `n` are the same. -/
def SameFlags (n : Fin 32) (x t : State) : Prop :=
  (t.berth n).z = (x.berth n).z ∧ (t.berth n).nf = (x.berth n).nf ∧ (t.berth n).c = (x.berth n).c ∧ (t.berth n).e = (x.berth n).e

/-- The general registers of Berth `n` other than those of a list are the same. -/
def SameG (n : Fin 32) (except_ : List (Fin 16)) (x t : State) : Prop := ∀ r : Fin 16, r ∉ except_ → G n t r = G n x r

/-- The address registers of Berth `n` other than those of a list are the same. -/
def SameA (n : Fin 32) (except_ : List (Fin 8)) (x t : State) : Prop := ∀ r : Fin 8, r ∉ except_ → A n t r = A n x r

/-- The sequencer still runs, and outside a loop the counter has moved by one instruction. -/
def Advanced (n : Fin 32) (x t : State) : Prop :=
  (t.berth n).seq = .running ∧ (t.berth n).wait = .none ∧ ((x.berth n).loops = [] → (t.berth n).pc = (x.berth n).pc + 1)

/-- The instruction has retired: the sequencer runs, or stops where a STOP has waited for its completion (R168). -/
def Retired (n : Fin 32) (x t : State) : Prop :=
  (t.berth n).seq = (if (x.berth n).stopReq then .stopped else .running) ∧ (t.berth n).wait = .none

/-- Berth `n` waits in an instruction. -/
def WaitsIn (n : Fin 32) (w : Wait) (x t : State) : Prop :=
  OnlyBerth n x t ∧ (t.berth n).seq = .waiting ∧ (t.berth n).wait = w ∧ SameG n [] x t ∧ SameA n [] x t

/-- After `v` has been written to Gd (nothing to G0, which reads as zero): the instruction has moved on and nothing else differs. -/
def WroteG (n : Fin 32) (s t : State) (d : Fin 16) (v : U64) : Prop :=
  OnlyBerth n (fetched n s) t ∧ G n t d = (if d = 0 then 0 else v) ∧ SameG n [d] (fetched n s) t ∧
    SameA n [] (fetched n s) t ∧ SameFlags n (fetched n s) t ∧ Advanced n (fetched n s) t

/-- After `v` has been written to Ad: the instruction has moved on and nothing else differs. -/
def WroteA (n : Fin 32) (s t : State) (d : Fin 8) (v : Addr) : Prop :=
  OnlyBerth n (fetched n s) t ∧ A n t d = v ∧ SameA n [d] (fetched n s) t ∧
    SameG n [] (fetched n s) t ∧ SameFlags n (fetched n s) t ∧ Advanced n (fetched n s) t

/-- After Z, N and C have been set: E is kept, the instruction has moved on and nothing else differs. -/
def SetZNC (n : Fin 32) (s t : State) (z nf c : Bool) : Prop :=
  OnlyBerth n (fetched n s) t ∧ (t.berth n).z = z ∧ (t.berth n).nf = nf ∧ (t.berth n).c = c ∧
    (t.berth n).e = ((fetched n s).berth n).e ∧ SameG n [] (fetched n s) t ∧ SameA n [] (fetched n s) t ∧
    Advanced n (fetched n s) t

/-- After a jump to instruction `p`: the loops whose body `p` leaves have ended, and the registers except those of a list are kept. -/
def Jumped (n : Fin 32) (s t : State) (p : Nat) (except_ : List (Fin 16)) : Prop :=
  OnlyBerth n (fetched n s) t ∧ (t.berth n).pc = p ∧
    (t.berth n).loops = ((fetched n s).berth n).loops.filter (fun l => decide (l.first ≤ p ∧ p ≤ l.last)) ∧
    SameG n except_ (fetched n s) t ∧ SameA n [] (fetched n s) t ∧ SameFlags n (fetched n s) t ∧ (t.berth n).seq = .running

/-- After an instruction that does not run: the sequencer has stopped as faulted at it; registers, flags and memory stay. -/
def StoppedFaulted (n : Fin 32) (s t : State) : Prop :=
  (t.berth n).seq = .faulted ∧ (t.berth n).pc = ((fetched n s).berth n).pc ∧
    SameG n [] (fetched n s) t ∧ SameA n [] (fetched n s) t ∧ SameFlags n (fetched n s) t ∧ t.mem = (fetched n s).mem

/-- Register `r` of a slot reads its reset value, the slot's other registers and everything but the registers stay. -/
def Cleared (s t : State) (slot : Nat) (r : Reg) : Prop :=
  t.reg slot r 0 = resetVal slot r ∧ t = { s with regs := t.regs } ∧
    ∀ k, k ≠ regKey slot r 0 → Tab.find t.regs k = Tab.find s.regs k

end Sys2Proof.Claims

open Sys2Proof.Claims

/-! ## Steps and reset -/

/-- O1. A step takes the command at the front of the queue and performs it on the state with the queue's rest. -/
def Obligations.StepRunsFrontCommand : Prop :=
  ∀ (c : Instr) (rest : List Instr) (s : State), step { s with pending := c :: rest } = exec c { s with pending := rest }

/-- O2. On an empty queue a step lets one nanosecond of the device's own time pass and changes nothing but the clock; tide time
does not run backwards, and stands still while its clock does not run (the model's choice, log entry 1). -/
def Obligations.IdleStepIsOneNanosecond : Prop :=
  ∀ s : State, s.pending = [] → ∃ t, step s = .next t ∧ t = { s with clk := t.clk } ∧ t.clk.now = s.clk.now + 1 ∧
    (s.clk.running = false → t.clk.tide = s.clk.tide) ∧
    (s.clk.running = true → t.clk.tide = s.clk.tide ∨ t.clk.tide = s.clk.tide + 1 ∨ t.clk.tide = s.clk.tide + 2)

/-- O3. No command stops the device: from every state, a step answers a next state. -/
def Obligations.EveryStepGoesOn : Prop := ∀ s : State, ∃ t, step s = .next t

/-- O4. After reset the device is off with POR_N low, the queue and memory are empty, every register reads its reset value, no
safe output is active, and no fault bit is set (07_sleep_wake_clocks_straps.md Tables 7-1 and 7-6). -/
def Obligations.ResetLeavesEverythingCleared : Prop :=
  State.reset.dev = .off ∧ State.reset.pins.porLow = true ∧ State.reset.pending = [] ∧ State.reset.memoryWf = true ∧
    (∀ a, State.reset.byte a = 0) ∧ (∀ slot r i, State.reset.reg slot r i = resetVal slot r) ∧
    (∀ k, State.reset.outActive k = false) ∧ (∀ slot, State.reset.faults slot = 0) ∧ ∀ slot, State.reset.irqPend slot = false

/-! ## Memory -/

/-- O5. Every operation that reads or writes memory keeps its canonical form: rising addresses, no zero listed. -/
def Obligations.MemoryKeepsCanonicalForm : Prop :=
  ∀ s : State, s.memoryWf = true →
    (∀ who p op, (s.perform who p op).s.memoryWf = true) ∧
    (∀ who fuel a n, (State.readSpan who fuel s a n).s.memoryWf = true) ∧
    (∀ who fuel a d, (State.writeSpan who fuel s a d).s.memoryWf = true) ∧
    (∀ lo hi, (s.wipe lo hi).memoryWf = true)

/-- O6. A write that is performed puts its bytes at its place and leaves every other byte of memory; a write that is not
performed leaves every byte. The read holds of the page tables, which a Berth that becomes FAULTED ends, are left out. -/
def Obligations.WriteChangesOnlyItsBytes : Prop :=
  ∀ (s : State) (who : Requester) (p : Place) (d : List Byte),
    let r := s.writeAt who p d
    ((r.st = .ok → r.s.bytes (offsetOf p) d.length = d) ∧
      ∀ b, (r.st ≠ .ok ∨ b < offsetOf p ∨ offsetOf p + d.length ≤ b) → (∀ k, b ≠ holdsAt k) → r.s.byte b = s.byte b)

/-- O7. A request that addresses a hole is not performed: POISON, zero data, memory unchanged (R47). -/
def Obligations.HoleRequestsArePoison : Prop :=
  ∀ (s : State) (who : Requester) (op : MemOp),
    (s.perform who .hole op).st = .poison ∧ (s.perform who .hole op).s = s.recordHole who ∧
      (s.recordHole who).mem = s.mem ∧ ∀ b ∈ (s.perform who .hole op).data, b = 0

/-- O8. A register access of any size other than 4 or 8 bytes for a read and 8 bytes for a write, or not naturally aligned, is
not performed: POISON, zero data for a read, and the requester's block records ADDR_HOLE (R44). -/
def Obligations.RegisterAccessShape : Prop :=
  ∀ (s : State) (who : Requester) (slot off : Nat),
    (∀ k, ¬ ((k = 4 ∨ k = 8) ∧ off % k = 0) →
      s.regOp who slot off (.read k) = ⟨.poison, List.replicate k 0, s.recordHole who⟩) ∧
    (∀ d : List Byte, ¬ (d.length = 8 ∧ off % 8 = 0) →
      s.regOp who slot off (.write d) = ⟨.poison, [], s.recordHole who⟩) ∧
    ∀ sl g, holeGroup who = some (sl, g) → nbit ((s.recordHole who).faults sl) g = true

/-- O9. A write to the Boot ROM, and a write to the page tables or the coupling store from a requester that Table 2-2 does not
list, is not performed: POISON, and the target block records ADDR_GUARD (R50). The tables and the store answer while their
block serves. -/
def Obligations.RomAndTablesRefuseWrites : Prop :=
  ∀ (s : State) (who : Requester) (off : Nat) (d : List Byte),
    (s.serves 0xFF = true → (s.writeAt who (.rom off) d).st = .poison ∧ (s.writeAt who (.rom off) d).s = s.record 1 0) ∧
    (s.serves 32 = true → who ≠ .wharfinger → who ≠ .pilot →
      (s.writeAt who (.tables off) d).st = .poison ∧ (s.writeAt who (.tables off) d).s = s.record 0x0E 9) ∧
    (s.serves 33 = true → who ≠ .dredger → who ≠ .pilot →
      (s.writeAt who (.store off) d).st = .poison ∧ (s.writeAt who (.store off) d).s = s.record 0x0F 6)

/-- O10. An atomic on 8 aligned bytes of the Basin whose word has no error returns the value before its update and stores the
update: fetch-add adds modulo 2^64, compare-swap stores only on equality (R46, R60). -/
def Obligations.AtomicsReturnTheOldValue : Prop :=
  ∀ (s : State) (who : Requester) (off : Nat), off % 8 = 0 → s.serves 43 = true →
    s.refusesWrite who (.basin off) 8 = false → s.eccOf (basinBase + off) 0 = 0 →
    let a := basinBase + off
    (∀ v, let r := s.perform who (.basin off) (.fetchAdd v)
      r.st = .ok ∧ r.data = s.bytes a 8 ∧ r.s = s.putNum a 8 ((s.num a 8 + v.toNat) % 2 ^ 64)) ∧
    ∀ c w, let r := s.perform who (.basin off) (.cas c w)
      r.st = .ok ∧ r.data = s.bytes a 8 ∧ r.s = s.putNum a 8 (if s.num a 8 = c.toNat then w.toNat else s.num a 8)

/-! ## The sequencer's words -/

/-- O11. Every word of a command of a sequencer that is legal decodes to that command, with every operand. -/
def Obligations.SequencerWordsRoundTrip : Prop :=
  ∀ (i : Instr) (w : U32), seqWord i = some w → illegalCause w = 0 → ∃ n, seqDecode n w = some i

/-- O12. A word is legal exactly when it decodes to a command, and that command's word is the word itself (R123 to R126). -/
def Obligations.LegalWordsAreTheDecodedOnes : Prop :=
  ∀ (n : Fin 32) (w : U32), (illegalCause w = 0 ↔ (seqDecode n w).isSome = true) ∧ ∀ i, seqDecode n w = some i → seqWord i = some w

/-- O13. Words written out from Tables 4-1 and 4-2 decode to their instructions; a word of zeros is illegal (R126). -/
def Obligations.TableWordsDecode : Prop :=
  seqDecode 3 0x048D0000 = some (.add 3 2 3 4) ∧ seqDecode 3 0x408FFFFB = some (.addi 3 2 3 (-5)) ∧
  seqDecode 3 0x64E01234 = some (.movhi 3 3 2 0x1234) ∧ seqDecode 3 0x808FFFF8 = some (.ld 3 2 3 (-8)) ∧
  seqDecode 3 0xA1FFFFF4 = some (.b 3 7 (-12)) ∧ seqDecode 3 0xCD08D032 = some (.poll 3 4 2 3 1 50) ∧
  seqDecode 3 0xFC000000 = some (.halt 3) ∧ seqDecode 3 0 = none ∧ illegalCause 0 = 3

/-! ## Register instructions -/

/-- O14. The three-register instructions (Table 4-2): each writes its result to Gd and changes nothing else; G0 reads as zero and
takes no write (R119). -/
def Obligations.ThreeRegisterInstructions : Prop :=
  ∀ (n : Fin 32) (d a b : Fin 16) (s : State), Ready n s →
    let x := G n (fetched n s) a
    let y := G n (fetched n s) b
    (Fetches n (.add n d a b) s → ∃ t, exec (.add n d a b) s = .next t ∧ WroteG n s t d (BitVec.ofNat 64 (x.toNat + y.toNat))) ∧
    (Fetches n (.sub n d a b) s → ∃ t, exec (.sub n d a b) s = .next t ∧
      WroteG n s t d (BitVec.ofNat 64 (x.toNat + (2 ^ 64 - y.toNat)))) ∧
    (Fetches n (.mul n d a b) s → ∃ t, exec (.mul n d a b) s = .next t ∧ WroteG n s t d (BitVec.ofNat 64 (x.toNat * y.toNat))) ∧
    (Fetches n (.and n d a b) s → ∃ t, exec (.and n d a b) s = .next t ∧ WroteG n s t d (BitVec.ofNat 64 (x.toNat &&& y.toNat))) ∧
    (Fetches n (.or n d a b) s → ∃ t, exec (.or n d a b) s = .next t ∧ WroteG n s t d (BitVec.ofNat 64 (x.toNat ||| y.toNat))) ∧
    (Fetches n (.xor n d a b) s → ∃ t, exec (.xor n d a b) s = .next t ∧ WroteG n s t d (BitVec.ofNat 64 (x.toNat ^^^ y.toNat))) ∧
    (Fetches n (.shl n d a b) s → ∃ t, exec (.shl n d a b) s = .next t ∧
      WroteG n s t d (BitVec.ofNat 64 (x.toNat * 2 ^ (y.toNat % 64)))) ∧
    (Fetches n (.shr n d a b) s → ∃ t, exec (.shr n d a b) s = .next t ∧
      WroteG n s t d (BitVec.ofNat 64 (x.toNat / 2 ^ (y.toNat % 64)))) ∧
    (Fetches n (.sar n d a b) s → ∃ t, exec (.sar n d a b) s = .next t ∧
      WroteG n s t d (BitVec.ofInt 64 (x.toInt / 2 ^ (y.toNat % 64)))) ∧
    (Fetches n (.min n d a b) s → ∃ t, exec (.min n d a b) s = .next t ∧ WroteG n s t d (BitVec.ofInt 64 (min x.toInt y.toInt))) ∧
    (Fetches n (.max n d a b) s → ∃ t, exec (.max n d a b) s = .next t ∧ WroteG n s t d (BitVec.ofInt 64 (max x.toInt y.toInt)))

/-- O15. The immediate instructions, the moves and RDTIDE (Table 4-2). -/
def Obligations.ImmediateInstructions : Prop :=
  ∀ (n : Fin 32) (d a : Fin 16) (k : Fin 8) (i : BitVec 18) (j : BitVec 22) (hw : Fin 4) (h : BitVec 16) (s : State), Ready n s →
    let x := G n (fetched n s) a
    let old := G n (fetched n s) d
    (Fetches n (.addi n d a i) s → ∃ t, exec (.addi n d a i) s = .next t ∧ WroteG n s t d (BitVec.ofInt 64 (x.toNat + i.toInt))) ∧
    (Fetches n (.andi n d a i) s → ∃ t, exec (.andi n d a i) s = .next t ∧ WroteG n s t d (BitVec.ofNat 64 (x.toNat &&& i.toNat))) ∧
    (Fetches n (.ori n d a i) s → ∃ t, exec (.ori n d a i) s = .next t ∧ WroteG n s t d (BitVec.ofNat 64 (x.toNat ||| i.toNat))) ∧
    (Fetches n (.xori n d a i) s → ∃ t, exec (.xori n d a i) s = .next t ∧ WroteG n s t d (BitVec.ofNat 64 (x.toNat ^^^ i.toNat))) ∧
    (Fetches n (.movi n d j) s → ∃ t, exec (.movi n d j) s = .next t ∧ WroteG n s t d (BitVec.ofInt 64 j.toInt)) ∧
    (Fetches n (.movhi n d hw h) s → ∃ t v, exec (.movhi n d hw h) s = .next t ∧ WroteG n s t d v ∧
      bitsOf v (16 * hw.val + 15) (16 * hw.val) = h.toNat ∧
      ∀ m : Fin 4, m ≠ hw → bitsOf v (16 * m.val + 15) (16 * m.val) = bitsOf old (16 * m.val + 15) (16 * m.val)) ∧
    (Fetches n (.gmov n d k) s → ∃ t, exec (.gmov n d k) s = .next t ∧
      WroteG n s t d (BitVec.ofNat 64 (A n (fetched n s) k).toNat)) ∧
    (Fetches n (.rdtide n d) s → ∃ t, exec (.rdtide n d) s = .next t ∧ WroteG n s t d (fetched n s).clk.tide)

/-- O16. The shifts by an immediate: imm18 below 64 shifts; a higher one is an illegal word and stops the sequencer (R124). -/
def Obligations.ImmediateShifts : Prop :=
  ∀ (n : Fin 32) (d a : Fin 16) (i : BitVec 18) (s : State), Ready n s →
    let x := G n (fetched n s) a
    (i.toNat < 64 →
      (Fetches n (.shli n d a i) s → ∃ t, exec (.shli n d a i) s = .next t ∧
        WroteG n s t d (BitVec.ofNat 64 (x.toNat * 2 ^ i.toNat))) ∧
      (Fetches n (.shri n d a i) s → ∃ t, exec (.shri n d a i) s = .next t ∧
        WroteG n s t d (BitVec.ofNat 64 (x.toNat / 2 ^ i.toNat))) ∧
      (Fetches n (.sari n d a i) s → ∃ t, exec (.sari n d a i) s = .next t ∧
        WroteG n s t d (BitVec.ofInt 64 (x.toInt / 2 ^ i.toNat)))) ∧
    (64 ≤ i.toNat → ∀ c ∈ [Instr.shli n d a i, .shri n d a i, .sari n d a i], Fetches n c s →
      ∃ t, exec c s = .next t ∧ StoppedFaulted n s t)

/-- O17. CMP and CMPI: Z when equal, N when less as signed integers, C when less as unsigned integers (R128). -/
def Obligations.ComparisonsSetTheFlags : Prop :=
  ∀ (n : Fin 32) (a b : Fin 16) (i : BitVec 18) (s : State), Ready n s →
    let x := G n (fetched n s) a
    let y := G n (fetched n s) b
    let k : U64 := BitVec.ofInt 64 i.toInt
    (Fetches n (.cmp n a b) s → ∃ t, exec (.cmp n a b) s = .next t ∧
      SetZNC n s t (decide (x = y)) (decide (x.toInt < y.toInt)) (decide (x.toNat < y.toNat))) ∧
    (Fetches n (.cmpi n a i) s → ∃ t, exec (.cmpi n a i) s = .next t ∧
      SetZNC n s t (decide (x = k)) (decide (x.toInt < i.toInt)) (decide (x.toNat < k.toNat)))

/-- O18. AMOV and AADDI write an address register; AADDI adds modulo 2^48. -/
def Obligations.AddressRegisterInstructions : Prop :=
  ∀ (n : Fin 32) (d b : Fin 8) (a : Fin 16) (i : BitVec 18) (s : State), Ready n s →
    (Fetches n (.amov n d a) s → ∃ t, exec (.amov n d a) s = .next t ∧
      WroteA n s t d (BitVec.ofNat 48 (G n (fetched n s) a).toNat)) ∧
    (Fetches n (.aaddi n d b i) s → ∃ t, exec (.aaddi n d b i) s = .next t ∧
      WroteA n s t d (BitVec.ofInt 48 ((A n (fetched n s) b).toNat + i.toInt)))

/-- O19. Branches: B to a relative target when its condition holds and to the next instruction otherwise, with a reserved condition
illegal; CALL saves the next index in G15; RET returns to it. A taken branch ends the loops it leaves (R138). -/
def Obligations.BranchesAndCalls : Prop :=
  ∀ (n : Fin 32) (c : BitVec 4) (off : BitVec 22) (s : State), Ready n s →
    let x := (fetched n s).berth n
    let target := (((x.pc : Int) + off.toInt) % 65536).toNat
    (Fetches n (.b n c off) s →
      (x.cond c.toNat = some true → ∃ t, exec (.b n c off) s = .next t ∧ Jumped n s t target []) ∧
      (x.cond c.toNat = some false → ∃ t, exec (.b n c off) s = .next t ∧ OnlyBerth n (fetched n s) t ∧
        SameG n [] (fetched n s) t ∧ SameA n [] (fetched n s) t ∧ SameFlags n (fetched n s) t ∧ Advanced n (fetched n s) t) ∧
      (11 ≤ c.toNat → ∃ t, exec (.b n c off) s = .next t ∧ StoppedFaulted n s t)) ∧
    (Fetches n (.call n off) s → ∃ t, exec (.call n off) s = .next t ∧ Jumped n s t target [15] ∧
      G n t 15 = BitVec.ofNat 64 (x.pc + 1)) ∧
    (Fetches n (.ret n) s → ∃ t, exec (.ret n) s = .next t ∧ Jumped n s t ((G n (fetched n s) 15).toNat % 65536) [])

/-- O20. LOOP and LOOPI: body length 0, an active counter, a body beyond the program region or beyond an active loop raise SEQ_LOOP
and do not start the loop (R137). Otherwise a count of 0 goes on after the body, and another count starts it (R136). -/
def Obligations.LoopsStartOrFault : Prop :=
  ∀ (n : Fin 32) (l : Fin 4) (c : Fin 16) (count len : BitVec 12) (s : State), Ready n s →
    let f := fetched n s
    let x := f.berth n
    let bad := len.toNat = 0 ∨ (∃ p ∈ x.loops, p.ctr = l) ∨ f.progWords n ≤ x.pc + len.toNat ∨ ∃ p ∈ x.loops, p.last < x.pc + len.toNat
    ∀ (i : Instr) (k : Nat), (i = .loop n l c len ∧ k = (G n f c).toNat % 2 ^ 32) ∨ (i = .loopi n l count len ∧ k = count.toNat) →
      Fetches n i s →
      (bad → ∃ t, exec i s = .next t ∧ StoppedFaulted n s t) ∧
      (¬ bad → ∃ t, exec i s = .next t ∧ OnlyBerth n f t ∧ SameG n [] f t ∧ SameA n [] f t ∧ SameFlags n f t ∧
        (k ≠ 0 → (t.berth n).pc = x.pc + 1 ∧ ((t.berth n).lr l).toNat = k ∧
          (t.berth n).loops = ⟨l, x.pc + 1, x.pc + len.toNat⟩ :: x.loops) ∧
        (k = 0 → x.loops = [] → (t.berth n).pc = x.pc + len.toNat + 1))

/-- O21. A word that is not a legal instruction does not run: the sequencer stops as faulted at it (R124, R126). A word that is not at
the counter changes nothing. -/
def Obligations.IllegalInstructionStopsSequencer : Prop :=
  ∀ (n : Fin 32) (w : U32) (s : State), Ready n s → illegalCause w ≠ 0 →
    (w = s.wordAt n → ∃ t, exec (.illegalInstruction n w) s = .next t ∧ StoppedFaulted n s t) ∧
    (w ≠ s.wordAt n → exec (.illegalInstruction n w) s = .next s)

/-- O22. A started sequencer: the counter is ENTRY, all G, A and L registers and all flags are zero (R121); nothing outside the Berth
changes. That a Berth whose PROG_SIZE says "no program" is not started is the model's reading (log entry 112). -/
def Obligations.StartedSequencerIsCleared : Prop :=
  ∀ (s : State) (n : Fin 32), let t := s.seqStart n
    (s.fld (bslot n) F.SEQ_CFG_PROG_SIZE 0 = 0 → t = s) ∧
    (s.fld (bslot n) F.SEQ_CFG_PROG_SIZE 0 ≠ 0 → OnlyBerth n s t ∧ (t.berth n).pc = s.fld (bslot n) F.SEQ_CFG_ENTRY 0 ∧ (t.berth n).seq = .running ∧
    (∀ r, G n t r = 0) ∧ (∀ r, A n t r = 0) ∧ (∀ l : Fin 4, (t.berth n).lr l = 0) ∧
    (t.berth n).z = false ∧ (t.berth n).nf = false ∧ (t.berth n).c = false ∧ (t.berth n).e = false)

/-! ## Memory access, messages and waits -/

/-- O23. Loads from the own Hold, outside lines tagged with an outstanding group (R132 to R134): Gd takes the data, or zero when the
status is not OK; E says that it is not. -/
def Obligations.OwnHoldLoads : Prop :=
  ∀ (n : Fin 32) (d : Fin 16) (a : Fin 8) (i : BitVec 18) (off : Nat) (s : State), Ready n s →
    let f := fetched n s
    let x : Addr := A n f a + i.signExtend 48
    f.berthPlace n x = .hold n off → ∀ (c : Instr) (size : Nat), (c = .ld n d a i ∧ size = 8) ∨ (c = .ldw n d a i ∧ size = 4) →
      Fetches n c s → x.toNat % size = 0 → f.lineCgs n off size = [] →
      let r := f.access (.berth n) x (.read size)
      ∃ t, exec c s = .next t ∧ OnlyBerth n r.s t ∧
        G n t d = (if d = 0 then 0 else if r.st = .ok then BitVec.ofNat 64 (leNat r.data) else 0) ∧ SameG n [d] r.s t ∧
        SameA n [] r.s t ∧ (t.berth n).e = decide (r.st ≠ .ok) ∧ Retired n r.s t

/-- O24. Stores to the own Hold outside the program region, of a Berth that serves, where no word is uncorrectable: the bytes of Gd,
least significant first, at the address; no other byte of memory changes. -/
def Obligations.OwnHoldStores : Prop :=
  ∀ (n : Fin 32) (d : Fin 16) (a : Fin 8) (i : BitVec 18) (off : Nat) (s : State), Ready n s →
    let f := fetched n s
    let x : Addr := A n f a + i.signExtend 48
    f.berthPlace n x = .hold n off → (∀ w c, f.eccOf w c = 0) →
    ∀ (c : Instr) (size : Nat), (c = .st n d a i ∧ size = 8) ∨ (c = .stw n d a i ∧ size = 4) →
      Fetches n c s → x.toNat % size = 0 → f.refusesWrite (.berth n) (.hold n off) size = false →
      ∃ t, exec c s = .next t ∧ t.bytes (holdBase n + off) size = leBytes size (G n f d).toNat ∧
        (∀ b, b < holdBase n + off ∨ holdBase n + off + size ≤ b → t.byte b = f.byte b) ∧
        SameG n [] f t ∧ SameA n [] f t ∧ SameFlags n f t ∧ Advanced n f t

/-- O25. A misaligned access is not performed: POISON, so that a load or atomic gives zero and E, and SEQ_ACCESS (R131). -/
def Obligations.MisalignedAccessIsNotPerformed : Prop :=
  ∀ (n : Fin 32) (d b : Fin 16) (a : Fin 8) (i : BitVec 18) (s : State), Ready n s →
    let f := fetched n s
    let x : Addr := A n f a + i.signExtend 48
    ∀ c : Instr, Fetches n c s →
      (c = .ld n d a i ∧ x.toNat % 8 ≠ 0 ∨ c = .ldw n d a i ∧ x.toNat % 4 ≠ 0 ∨ c = .fadd n d a b ∧ (A n f a).toNat % 8 ≠ 0 ∨
          c = .cas n d a b ∧ (A n f a).toNat % 8 ≠ 0 →
        ∃ t, exec c s = .next t ∧ G n t d = 0 ∧ (t.berth n).e = true ∧ SameG n [d] f t ∧ t.mem = f.mem ∧
          nbit (t.faults (bslot n)) 15 = true) ∧
      (c = .st n d a i ∧ x.toNat % 8 ≠ 0 ∨ c = .stw n d a i ∧ x.toNat % 4 ≠ 0 →
        ∃ t, exec c s = .next t ∧ SameG n [] f t ∧ SameFlags n f t ∧ t.mem = f.mem ∧ nbit (t.faults (bslot n)) 15 = true)

/-- O26. FADD and CAS on the Basin or LPDDR5X leave as one Crane request, and the sequencer waits for it (R133); the completion that
arrives retires them: Gd takes the old value, or zero when the status is not OK, and E says so (R134). -/
def Obligations.AtomicsWaitForTheirCompletion : Prop :=
  ∀ (n : Fin 32) (d b : Fin 16) (a : Fin 8) (s : State),
    (Ready n s → let f := fetched n s
      (A n f a).toNat % 8 = 0 → (f.berth n).cgs = [] →
      (∃ o, f.berthPlace n (A n f a) = .basin o ∨ f.berthPlace n (A n f a) = .lpddr o) →
      (Fetches n (.fadd n d a b) s →
        exec (.fadd n d a b) s = .next (f.loadWait n d false (A n f a) (.fetchAdd (G n f b)))) ∧
      (Fetches n (.cas n d a b) s → exec (.cas n d a b) s = .next (f.loadWait n d true (A n f a) (.cas (G n f d) (G n f b))))) ∧
    (∀ st v, s.runs n = true → (s.berth n).wait = .load d false → (s.berth n).loaded = some (st, v) →
      ∃ t, exec (.loadComplete n) s = .next t ∧ OnlyBerth n s t ∧ Retired n s t ∧
        G n t d = (if d = 0 then 0 else if st = .ok then v else 0) ∧ SameG n [d] s t ∧ (t.berth n).e = decide (st ≠ .ok))

/-- O27. Crane requests and their completions (03_berth_pairs.md): a request that no older one to its bytes holds back reaches its target;
a response whose tag and epoch are outstanding completes the request, a late one is counted; 20 µs after its first beat left the
Berth a request times out. -/
def Obligations.CraneRequestsComplete : Prop :=
  ∀ (n : Fin 32) (tag : BitVec 8) (epoch : BitVec 2) (addr : Addr) (op : MemOp) (s : State),
    (∀ t, s.awake = true → (s.craneNext n).craneAsks n tag.toNat epoch addr op = some t →
      exec (.memoryRequest (.berth n) tag.toNat epoch addr op) s = .next ((s.craneNext n).craneReaches n tag.toNat t)) ∧
    (∀ (who : Requester) (k : Nat), s.awake = true → (∀ m, who ≠ .berth m) → ∃ t, exec (.memoryRequest who k epoch addr op) s = .next t ∧
      t.resps = (s.access who addr op).s.resps ++ [⟨who, k, epoch, (s.access who addr op).st, (s.access who addr op).data⟩]) ∧
    (∀ r, s.respFor n tag.toNat epoch = some r →
      (∀ t, Tab.find (s.berth n).tags tag.toNat = some t → t.epoch = epoch → t.sent = true →
        exec (.craneCompletion n tag epoch) s = .next (({ s with resps := s.resps.erase r } : State).craneCompletes n tag.toNat t r)) ∧
      (Tab.find (s.berth n).tags tag.toNat = none → ∃ t, exec (.craneCompletion n tag epoch) s = .next t ∧
        t.fld (bslot n) F.CRANE_CNT_LATE 0 = satAdd F.CRANE_CNT_LATE.top (s.fld (bslot n) F.CRANE_CNT_LATE 0) 1 ∧
        t.mem = s.mem ∧ t.berths = s.berths)) ∧
    (∀ t, Tab.find (s.berth n).tags tag.toNat = some t → t.sent = true → t.t0 + 20000 ≤ s.clk.now →
      exec (.craneTimeout n tag) s = .next (s.craneTimeout n tag.toNat t))

/-- O28. SEND and SENDNB of a good Manifest of the own Hold that can be accepted put it into the Berth's egress and answer OK; SENDNB
answers BUSY where SEND waits; a waiting SEND is accepted, or STALLED when its time is up (R147, R148, R468). RELQ releases. -/
def Obligations.MessagesAreAcceptedOrWait : Prop :=
  ∀ (n : Fin 32) (d : Fin 16) (a : Fin 8) (q : Fin 4) (s : State),
    (Ready n s → let f := fetched n s
      ∀ off, f.manifestAt n (A n f a) = some off → f.lineCgs n off 32 = [] →
      let r := f.readAt (.berth n) (.hold n off) 32
      let m : Manifest := BitVec.ofNat 256 (leNat r.data)
      r.st = .ok → r.s.msgBad n m = 0 → r.s.pointsShadow n m = false →
      (∀ i ∈ [Instr.send n d a, .sendnb n d a], Fetches n i s → r.s.canAccept n m = true → ∃ t, exec i s = .next t ∧
        OnlyBerth n (r.s.accept n m) t ∧ G n t d = 0 ∧ (t.berth n).e = false ∧ Retired n (r.s.accept n m) t) ∧
      (r.s.canAccept n m = false →
        (Fetches n (.sendnb n d a) s → ∃ t, exec (.sendnb n d a) s = .next t ∧ OnlyBerth n r.s t ∧
          G n t d = (if d = 0 then 0 else 1) ∧ (t.berth n).e = true ∧ Retired n r.s t) ∧
        (Fetches n (.send n d a) s → ∃ t, exec (.send n d a) s = .next t ∧
          WaitsIn n (.send d m (r.s.after (r.s.moorNs n))) r.s t))) ∧
    (∀ m k, (s.berth n).wait = .send d m k → s.serves n = true →
      (s.canAccept n m = true → ∃ t, exec (.sendAccept n) s = .next t ∧ OnlyBerth n (s.accept n m) t ∧ G n t d = 0 ∧
        (t.berth n).e = false ∧ Retired n (s.accept n m) t) ∧
      (s.canAccept n m = false → k ≤ s.clk.now → ∃ t, exec (.mooringTimeout n) s = .next t ∧
        G n t d = (if d = 0 then 0 else 2) ∧ (t.berth n).e = true ∧ Retired n s t ∧ t.mem = s.mem ∧
        nbit (t.faults (bslot n)) 13 = true)) ∧
    (Ready n s → Fetches n (.relq n q) s → ∃ t, exec (.relq n q) s = .next t ∧ OnlyBerth n ((fetched n s).release n q) t ∧
      Advanced n ((fetched n s).release n q) t)

/-- O29. POLL of an aligned word of the own Hold: satisfied, it gives the word and clears E; not satisfied with a count of 0, it gives
the word and sets E; otherwise it waits until the word satisfies it or its time is up (04_sequencer_work_orders.md). Unit 3 is illegal. -/
def Obligations.PollTestsAndWaits : Prop :=
  ∀ (n : Fin 32) (d b : Fin 16) (a : Fin 8) (u : BitVec 2) (k : BitVec 12) (s : State),
    (Ready n s → Fetches n (.poll n d a b u k) s →
      (u = 3 → ∃ t, exec (.poll n d a b u k) s = .next t ∧ StoppedFaulted n s t) ∧
      (u ≠ 3 → ∀ off, (fetched n s).ownOff n (A n (fetched n s) a) = some off → off % 8 = 0 →
        let r := (fetched n s).pollWord n off
        let v : U64 := BitVec.ofNat 64 (leNat r.data)
        let holds := (v.toNat % 2 ^ 32 + 2 ^ 32 - (G n r.s b).toNat % 2 ^ 32) % 2 ^ 32 < 2 ^ 31
        r.st = .ok →
        (holds ∨ k = 0 → ∃ t, exec (.poll n d a b u k) s = .next t ∧ OnlyBerth n r.s t ∧ G n t d = (if d = 0 then 0 else v) ∧
          ((t.berth n).e = true ↔ ¬ holds) ∧ Retired n r.s t) ∧
        (¬ holds → k ≠ 0 → ∃ t, exec (.poll n d a b u k) s = .next t ∧
          WaitsIn n (.poll d off ((G n r.s b).setWidth 32)
            (r.s.tide.toNat + k.toNat * (if u = 0 then 10 else if u = 1 then 1000 else 1000000))) r.s t))) ∧
    (∀ off w k, s.serves n = true → (s.berth n).wait = .poll d off w k → (s.pollWord n off).st = .ok →
      let r := s.pollWord n off
      let v : U64 := BitVec.ofNat 64 (leNat r.data)
      (pollHolds v w = true → ∃ t, exec (.pollSatisfied n) s = .next t ∧ OnlyBerth n r.s t ∧ G n t d = (if d = 0 then 0 else v) ∧
        (t.berth n).e = false ∧ Retired n r.s t) ∧
      (pollHolds v w = false → k ≤ s.tide.toNat → ∃ t, exec (.pollTimeout n) s = .next t ∧ OnlyBerth n r.s t ∧
        G n t d = (if d = 0 then 0 else v) ∧ (t.berth n).e = true ∧ Retired n r.s t))

/-- O30. WAITT, FENCE, YIELD and HALT, and the events that end a wait (04_sequencer_work_orders.md). -/
def Obligations.WaitsBeginAndEnd : Prop :=
  ∀ (n : Fin 32) (a : Fin 16) (w : Bool) (s : State),
    (Ready n s → let f := fetched n s
      (Fetches n (.waitt n a) s →
        ((G n f a).toNat ≤ f.tide.toNat → ∃ t, exec (.waitt n a) s = .next t ∧ OnlyBerth n f t ∧ (t.berth n).e = true ∧
          SameG n [] f t ∧ Advanced n f t) ∧
        (f.tide.toNat < (G n f a).toNat → ∃ t, exec (.waitt n a) s = .next t ∧ WaitsIn n (.waitt (G n f a)) f t ∧ SameFlags n f t)) ∧
      (Fetches n (.fence n w) s → (f.berth n).tags = [] → (f.berth n).held = [] → (f.berth n).woq = [] →
        ∃ t, exec (.fence n w) s = .next t ∧ OnlyBerth n f t ∧ SameG n [] f t ∧ SameFlags n f t ∧ Advanced n f t) ∧
      (Fetches n (.yield n) s → ∃ t, exec (.yield n) s = .next t ∧ OnlyBerth n f t ∧ (t.berth n).seq = .yielded ∧
        (t.berth n).wait = .yield (f.clk.now + 1000) ∧ SameG n [] f t ∧ SameFlags n f t) ∧
      (Fetches n (.halt n) s → ∃ t, exec (.halt n) s = .next t ∧ OnlyBerth n f t ∧ (t.berth n).seq = .halted ∧
        (t.berth n).woq = (f.berth n).woq ∧ SameG n [] f t ∧ SameFlags n f t)) ∧
    (s.serves n = true →
      (∀ x, (s.berth n).wait = .waitt x → x.toNat ≤ s.tide.toNat →
        exec (.waittResume n) s = .next (s.setBerth n { s.berth n with e := false }.resume)) ∧
      (∀ k, (s.berth n).wait = .yield k → (s.berth n).poke = true ∨ k ≤ s.clk.now →
        exec (.yieldResume n) s = .next (s.setBerth n (s.berth n).resume)) ∧
      ((s.berth n).fenceDone (s.berth n).wait = true → exec (.fenceRetire n) s = .next (s.setBerth n (s.berth n).resume)) ∧
      ((s.berth n).resume.seq = (if (s.berth n).stopReq then .stopped else .running) ∧ (s.berth n).resume.wait = .none ∧
        (s.berth n).resume.g = (s.berth n).g ∧ (s.berth n).resume.a = (s.berth n).a ∧ (s.berth n).resume.woq = (s.berth n).woq))

/-- O31. SEQ_CTL is presence-gated: without a window a write appends PRESENCE_DENIED and does no more than end a YIELD; with one, STOP
stops the sequencer, unless it waits for a load or an atomic, whose completion it then stops at, and RESUME starts a halted or
stopped one anew (R145, R146, R168, R722). -/
def Obligations.SequencerControlNeedsPresence : Prop :=
  ∀ (n : Fin 32) (who : Requester) (s : State), s.serves n = true →
    (s.presence = false →
      exec (.seqCtlStop who n) s = .next ((s.pokeBerth n).logEntry 0 0xFF 0x0030 (bslot n + 0x108 * 256)) ∧
      exec (.seqCtlResume who n) s = .next ((s.pokeBerth n).logEntry 0 0xFF 0x0030 (bslot n + 0x108 * 256))) ∧
    (s.presence = true →
      ((s.berth n).seq = .running ∨ (s.berth n).seq = .yielded ∨
          ((s.berth n).seq = .waiting ∧ ∀ d cas, (s.berth n).wait ≠ .load d cas) →
        ∃ t, exec (.seqCtlStop who n) s = .next t ∧ OnlyBerth n s t ∧ (t.berth n).seq = .stopped ∧ (t.berth n).pc = (s.berth n).pc ∧
          SameG n [] s t ∧ SameFlags n s t) ∧
      (∀ d cas, (s.berth n).seq = .waiting → (s.berth n).wait = .load d cas → ∃ t, exec (.seqCtlStop who n) s = .next t ∧
        OnlyBerth n s t ∧ (t.berth n).stopReq = true ∧ (t.berth n).wait = .load d cas) ∧
      ((s.berth n).seq = .halted ∨ (s.berth n).seq = .stopped →
        exec (.seqCtlResume who n) s = .next ((s.pokeBerth n).seqStart n)))

/-- O32. COMMIT waits for an outstanding group and answers POISON for another; COMMIT_PUBLISH publishes a confirmed group without
dependencies and discards a failed one; SQUASH discards; STAMP and STAMP_ARRIVAL carry a stamp to its Lighthouse (04_sequencer_work_orders.md,
09_sensor_intake_commit.md). -/
def Obligations.ConfirmationGroupsAndStamps : Prop :=
  ∀ (n : Fin 32) (d a : Fin 16) (i : Fin 64) (cg : BitVec 12) (ok : Bool) (v : U64) (s : State),
    (Ready n s → let f := fetched n s
      let id := (G n f a).toNat
      (Fetches n (.commit n d a) s →
        (((f.berth n).cg id).isSome = true → ∃ t, exec (.commit n d a) s = .next t ∧ WaitsIn n (.commit d id) f t) ∧
        (((f.berth n).cg id) = none → ∃ t, exec (.commit n d a) s = .next t ∧ OnlyBerth n f t ∧
          G n t d = (if d = 0 then 0 else 7) ∧ (t.berth n).e = true ∧ Retired n f t)) ∧
      (Fetches n (.squash n a) s → ((f.berth n).cg id).isSome = true → exec (.squash n a) s = .next ((f.countStopped n id).setBerth n
        (((((f.countStopped n id).berth n).dropWork id).discard id).next))) ∧
      (Fetches n (.stamp n a i) s → (f.berth n).cgs = [] → f.lhOfPart (f.fld (bslot n) F.BERTH_CFG_PART 0) i = true →
        ∃ t, exec (.stamp n a i) s = .next t ∧ t.stamps = f.stamps ++ [(n.val, i.val, G n f a)] ∧ t.mem = f.mem ∧ SameG n [] f t ∧
          Advanced n f t)) ∧
    (∀ id k c, s.serves n = true → (s.berth n).wait = .commit d id → (s.berth n).cgBusy id = false → (s.berth n).cg id = some (k, c) →
      (c.st = .confirmed → c.deps = [] → exec (.commitPublish n) s = .next (s.setBerth n (((s.berth n).publish id).answer d .ok))) ∧
      (c.st = .failed → exec (.commitPublish n) s = .next (s.setBerth n (((s.berth n).discard id).answer d .poison)))) ∧
    ((n.val, cg.toNat, ok) ∈ s.cgOut → exec (.cgOutcome n cg ok) s =
      .next (({ s with cgOut := s.cgOut.erase (n.val, cg.toNat, ok) } : State).setBerth n ((s.berth n).outcome cg.toNat ok))) ∧
    (s.awake = true → (n.val, i.val, v) ∈ s.stamps → s.stampLate n i = false → s.lhEnabled i = true →
      exec (.stampArrival n i v) s = .next ((({ s with stamps := s.stamps.erase (n.val, i.val, v) } : State).setLh i
        { s.lh i with last := some (s.clk.now, n.val) }).lhStamp i v))

/-! ## Work orders -/

/-- O33. WO issues the descriptor at Aa, or waits; the oldest work order of a queue that may start does so when it has the opcode of
the command, and runs; a work order whose work is done completes with its status (04_sequencer_work_orders.md). -/
def Obligations.WorkOrdersIssueStartAndComplete : Prop :=
  ∀ (n : Fin 32) (d : Fin 16) (a : Fin 8) (s : State),
    (Ready n s → Fetches n (.wo n d a) s → exec (.wo n d a) s = .next ((fetched n s).wo n d a)) ∧
    ((s.berth n).wait = .woEntry d a → s.serves n = true → (s.berth n).woq.length < 64 →
      exec (.woEntryFree n) s = .next (s.wo n d a)) ∧
    (∀ w, s.serves n = true → s.firstStart (s.berth n) [] (s.berth n).woq = some w →
      let r := s.woMap n w.seq fun x => { x with running := true }
      (woOp w.desc = 1 → exec (.matmul n) s = .next (computeOp n (fun e p q c => matmul (woFa e) (woFb e) (woFc e) (woDim e 0)
        (woDim e 1) (woDim e 2) (woDim e 3) (woAcc e) (woParam e 1 1 == 1) (woParam e 47 32) p q c) w r)) ∧
      (woOp w.desc = 2 → exec (.conv n) s = .next (computeOp n convWork w r)) ∧
      (woOp w.desc = 3 → exec (.dwconv n) s = .next (computeOp n convWork w r)) ∧
      (woOp w.desc = 4 → exec (.pool n) s = .next (computeOp n (fun e p _ _ => pool (woFa e) (woLa e) (woLc e) (woDim e 0)
        (woDim e 1) (woDim e 2) (poolGeo e) (woParam e 16 16 == 1) p) w r)) ∧
      (woOp w.desc = 5 → exec (.elem n) s = .next (computeOp n (fun e p q _ => elemWise (woFa e) (woFb e) (woFc e) (woDim e 0)
        (woParam e 7 0) p (if elemBinary e then some q else none) (fFP32.decode (woParam e 63 32))) w r)) ∧
      (woOp w.desc = 6 → exec (.reduce n) s = .next (computeOp n (fun e p _ _ => reduce (woFa e) (woFc e) (woDim e 0) (woDim e 1)
        (woParam e 1 0) p) w r)) ∧
      (woOp w.desc = 7 → exec (.s2d n) s = .next (computeOp n (fun e p _ _ => s2d (woFa e) (s2dFactor e) (woDim e 0) (woDim e 1)
        (woDim e 2) p) w r)) ∧
      (woOp w.desc = 8 → exec (.d2s n) s = .next (computeOp n (fun e p _ _ => d2s (woFa e) (s2dFactor e) (woDim e 0) (woDim e 1)
        (woDim e 2) p) w r)) ∧
      (woOp w.desc = 9 → exec (.fmcomp n) s = .next (computeOp n (fun e p _ _ => fmcomp (woFa e) (woLa e) (woLc e) (woDim e 0)
        (woDim e 1) (woDim e 2) p) w r)) ∧
      (woOp w.desc = 10 → exec (.fmdecomp n) s = .next (computeOp n (fun e p _ _ => fmdecomp (woFa e) (woLa e) (woLc e) (woDim e 0)
        (woDim e 1) (woDim e 2) p) w r)) ∧
      (woOp w.desc = 11 → exec (.attnblk n) s = .next (attnWork n w r)) ∧
      (woOp w.desc = 12 → exec (.kvappend n) s = .next (kvWork n w r)) ∧
      (woOp w.desc = 13 → exec (.cvt n) s = .next (computeOp n (fun e p _ _ => cvtRows (woFa e) (woFc e) (woDim e 0) p) w r)) ∧
      (woOp w.desc = 14 → exec (.copy n) s = .next (copyWork n w r))) ∧
    (∀ (q : U32) (w : Wo), (s.berth n).woq.find? (fun o => o.seq == q) = some w → s.runs n = true → (s.berth n).woReady w = true →
      exec (.workOrderComplete n q) s = .next (s.woEnd n w w.status))

/-! ## Counters, registers and pairs -/

/-- O34. The counter clears: of a block that serves, the counter register takes its reset value and nothing else changes. -/
def Obligations.CounterClearsChangeOneRegister : Prop :=
  ∀ (n : Fin 32) (c : Fin 2) (q : Fin 4) (s : State),
    (s.serves n = true → (∃ t, exec (.fmtCntClr n) s = .next t ∧ Cleared s t (bslot n) .FMT_CNT) ∧ (∃ t, exec (.fmcCntClr n) s = .next t ∧ Cleared s t (bslot n) .FMC_CNT) ∧
      (∃ t, exec (.craneCntClr n) s = .next t ∧ Cleared s t (bslot n) .CRANE_CNT) ∧ (∃ t, exec (.holdEccClr n) s = .next t ∧ Cleared s t (bslot n) .HOLD_ECC)) ∧
    (s.serves (39 + c.val) = true → (∃ t, exec (.mcEccClr c) s = .next t ∧ Cleared s t (0x0A + c.val) .MC_ECC)) ∧
    (s.serves 32 = true → (∃ t, exec .kvCntClr s = .next t ∧ Cleared s t 0x0E .KV_CNT)) ∧
    (s.serves 33 = true → (∃ t, exec .drgCntClr s = .next t ∧ Cleared s t 0x0F .DRG_CNT)) ∧
    (s.serves (34 + q.val) = true → (∃ t, exec (.quayCntClr q) s = .next t ∧ Cleared s t (4 + q.val) .QUAY_CNT)) ∧
    (s.awake = true → (∃ t, exec .inCntClr s = .next t ∧ Cleared s t 0 .IN_CNT)) ∧
    (s.serves 43 = true → ∃ t, exec .basinEccClr s = .next t ∧ t.fld 0x0C F.BASIN_ECC_CE_CNT 0 = 0 ∧
      t.fld 0x0C F.BASIN_ECC_UE_CNT 0 = 0 ∧ t = { s with regs := t.regs } ∧
      ∀ k, k ≠ regKey 0x0C .BASIN_ECC 0 → Tab.find t.regs k = Tab.find s.regs k)

/-- O35. A register write of 8 aligned bytes whose parity is good is stored as its slot says; one that breaks R44 records ADDR_HOLE, and
one whose parity fails records REG_PARITY, and neither is performed (R44, R535). The background scrub reads its lines; the memory
training that has completed is taken. -/
def Obligations.RegisterWritesScrubAndTraining : Prop :=
  ∀ (who : Requester) (addr : Addr) (size slot off : Nat) (v : U64) (busy : BitVec 16) (c0 c1 : BitVec 3) (s : State),
    (s.awake = true → s.place addr = .regs slot off →
      (size = 8 ∧ off % 8 = 0 → exec (.registerWrite who addr size v true) s = .next
        ((s.regStore who slot off v).2.postedBad who (s.regStore who slot off v).1 addr.toNat (s.pcOf who) 0)) ∧
      (¬ (size = 8 ∧ off % 8 = 0) → exec (.registerWrite who addr size v true) s = .next
        ((s.recordHole who).postedBad who .poison addr.toNat (s.pcOf who) 0)) ∧
      ∃ t, exec (.registerWrite who addr size v false) s = .next t ∧
        t = (s.regParity slot 0).postedBad who .poison addr.toNat (s.pcOf who) 0 ∧ t.mem = s.mem ∧ nbit (t.faults 0) 8 = true) ∧
    (s.scrubDue = true → exec (.basinScrub busy) s = .next
      ((List.range 16).foldl (fun t b => t.scrubBank busy.toNat b) { s with scrubAt := s.clk.now })) ∧
    (s.dev = .startCheck → s.hm.wakeCheck = false → s.hm.trained = false → (s.dom 39).power = .on → c0.toNat ≤ 4 →
      (c1 = 0 ∨ c1 = c0) → exec (.memoryTrainingDone c0 c1) s = .next (s.trainDone c0.toNat c1.toNat))

/-- O36. A difference that the comparators of a pair that is on find: the pair becomes FAULTED, its sequencer makes no further
progress and its requests that have not left are withdrawn; LOCK_MISMATCH is recorded, and COMP_DIVERGE when the comparators
disagree (R84, R89, R97, R98). No byte of memory changes but the read holds that end. -/
def Obligations.PairDifferencesFaultThePair : Prop :=
  ∀ (n : Fin 32) (buses : BitVec 6) (comp : BitVec 2) (s : State), (s.dom n).power = .on →
    (comp ≠ 0 → ∃ t, exec (.lockMismatch (.berth n) buses comp) s = .next t ∧ (t.dom n).faulted = true ∧
      (t.berth n).held = [] ∧ (t.berth n).egS = [] ∧ (t.berth n).egA = [] ∧ (t.berth n).egD = [] ∧
      nbit (t.faults (bslot n)) 4 = true ∧ (∀ b, (∀ k, b ≠ holdsAt k) → t.byte b = s.byte b)) ∧
    (comp = 1 ∨ comp = 2 → ∃ t, exec (.compDiverge (.berth n) buses comp) s = .next t ∧ (t.dom n).faulted = true ∧
      nbit (t.faults (bslot n)) 4 = true ∧ nbit (t.faults (bslot n)) 5 = true)

/-- O37. A difference inside the Wharfinger or the Dredger makes the pair FAULTED too, and is recorded in its slot (R97, R406, R440). A
difference inside the Harbourmaster is recorded and remembered until POR, a difference of its comparators too (R532, R533); the
Harbourmaster takes it from every state but Off. -/
def Obligations.HarbourmasterDifferences : Prop :=
  ∀ (groups : BitVec 6) (comp : BitVec 2) (s : State),
    (∀ u sl, (u = .wharfinger ∧ sl = 0x0E ∨ u = .dredger ∧ sl = 0x0F) → s.compares u = true →
      (comp ≠ 0 → ∃ t, exec (.lockMismatch u groups comp) s = .next t ∧ (t.dom (domainOf sl)).faulted = true ∧
        nbit (t.faults sl) 4 = true ∧ t.mem = s.mem) ∧
      (comp = 1 ∨ comp = 2 → ∃ t, exec (.compDiverge u groups comp) s = .next t ∧ (t.dom (domainOf sl)).faulted = true ∧
        nbit (t.faults sl) 4 = true ∧ nbit (t.faults sl) 5 = true ∧ t.mem = s.mem)) ∧
    (s.dev ≠ .off →
    (comp ≠ 0 → exec (.hmMismatch groups comp) s = .next (s.hmUpset groups.toNat comp.toNat)) ∧
    (comp = 1 ∨ comp = 2 → exec (.hmDiverge groups comp) s = .next (s.hmUpset groups.toNat comp.toNat)))

/-! ## Faults, reactions and the safe outputs -/

/-- O38. Recording a fault of a group that has a source sets its bit; when the bit was clear it takes the reaction its group holds then
(R560, R561). Memory, Berths, domains, streams, clocks and the queue stay. -/
def Obligations.RecordingSetsTheBitAndItsReaction : Prop :=
  ∀ (s : State) (slot g : Nat), slot < 64 → nbit (sourceMask slot) g = true → let t := s.record slot g
    nbit (t.faults slot) g = true ∧ (nbit (s.faults slot) g = false → t.took slot g = s.reaction slot g) ∧
    t.mem = s.mem ∧ t.berths = s.berths ∧ t.doms = s.doms ∧ t.streams = s.streams ∧ t.clk = s.clk ∧ t.pending = s.pending

/-- O39. A further record of a group whose bit is set changes nothing, so appends no entry; a group without a source records
nothing (R560, R562). -/
def Obligations.FurtherRecordsChangeNothing : Prop :=
  ∀ (s : State) (slot g : Nat), nbit (s.faults slot) g = true ∨ nbit (sourceMask slot) g = false → s.record slot g = s

/-- O40. A clear fault bit that is recorded hands one FAULT entry to a Logbook queue that is not full; an entry that finds the queue
full is dropped and counted, the next one carries GAP, and LOG_DROP is recorded (R560, R583). -/
def Obligations.FaultEntriesAreQueued : Prop :=
  ∀ (s : State) (slot g : Nat), nbit (sourceMask slot) g = true → nbit (s.faults slot) g = false →
    (s.log.ingress.length < 64 → ∃ d rest, (s.record slot g).log.ingress = s.log.ingress ++ (⟨s.tide, slot, g, 1, d⟩ : Entry) :: rest) ∧
    ∀ (sl gr code d : Nat), 64 ≤ s.log.ingress.length →
      (s.push sl gr code d).log.ingress = s.log.ingress ∧ (s.push sl gr code d).log.dropped = satAdd 255 s.log.dropped 1 ∧
      (s.append sl gr code d).log.ingress = s.log.ingress ∧ (s.append sl gr code d).log.gap = true ∧
      nbit ((s.append sl gr code d).faults 3) 4 = true

/-- O41. Output k is at its active level only when its SO_CFG.EN and SO_CMD.ACT bits are 1, the device is in Run, no input line of the
stage is asserted and factory mode was not selected; in every other case it is at the safe level, and in that case it is at the active
level (R572) unless EXTEST or CLAMP holds it (R657). The safe level is SAFEPOL, followed while POR_N is low (R244, R694). The ball is
at high impedance until both rails are in range (R695). -/
def Obligations.OutputsAreActiveOnlyInRun : Prop :=
  ∀ (s : State) (k : Nat),
    let on := nbit (s.fld 0x13 F.SO_CFG_EN 0) k = true ∧ nbit (s.fld 0x13 F.SO_CMD_ACT 0) k = true ∧ s.dev = .run ∧ s.anyLine = false ∧
      s.pins.factory = false
    (s.outLevel k ≠ s.safeLevel → on) ∧
    (on → s.host.tapIr ≠ 3 → s.host.tapIr ≠ 4 → s.outLevel k = !s.safeLevel) ∧
    s.safeLevel = (if s.pins.porLow then s.pins.safepol else nbit s.strap 10) ∧
    s.outPin k = if s.pins.rails then some (s.outLevel k) else none

/-- O42. On entry to Safe, Service or Start-check the stage clears SO_CMD.ACT (R573). An entry to Safe is recorded in HM_SAFE_STAT and
HM_SAFE_T (R579). -/
def Obligations.EnteringSafeClearsTheOutputs : Prop :=
  ∀ (s : State) (cause : Nat),
    (∀ d ∈ [DevState.safe, .service, .startCheck], (s.setDev d cause).fld 0x13 F.SO_CMD_ACT 0 = 0 ∧ (s.setDev d cause).dev = d) ∧
    (s.dev ≠ .safe → (s.enterSafe cause).dev = .safe ∧ (s.enterSafe cause).fld 0x13 F.SO_CMD_ACT 0 = 0 ∧
      (s.enterSafe cause).fld 0 F.HM_SAFE_STAT_IN_SAFE 0 = 1 ∧ (s.enterSafe cause).reg 0 .HM_SAFE_T 0 = s.tide ∧
      ∀ k, (s.enterSafe cause).outActive k = false)

/-- O43. The writes of the common header: fault bits written as 1 clear with their reactions unless their source still sets them (R13,
R561); the mask takes the bits of groups that have a source (R665); BLK_ACK stops and clears grace when no grace-class bit is set
(R570), but not a timer that has ended, whose reaction follows (R33); a grace timer that ends sets GRACE_EXP (R569). -/
def Obligations.HeaderWritesAndGrace : Prop :=
  ∀ (who : Requester) (slot : BitVec 6) (v : U64) (s : State), slot.toNat ∈ allSlots →
    let sl := slot.toNat
    (s.awake = true →
      (∃ t, exec (.blkFaultWrite who slot v) s = .next t ∧ t.mem = s.mem ∧ t.berths = s.berths ∧
        ∀ g, g < 32 → nbit (t.faults sl) g = (nbit (s.faults sl) g && !(nbit v.toNat g && !nbit (s.standing sl) g))) ∧
      (∃ t, exec (.blkFmaskWrite who slot v) s = .next t ∧ t.fld sl F.BLK_FMASK_BITS 0 = v.toNat &&& sourceMask sl ∧ t.mem = s.mem) ∧
      (∃ t, exec (.blkIrqWrite who slot v) s = .next t ∧ t.fld sl F.BLK_IRQ_PINS 0 = F.BLK_IRQ_PINS.get v ∧
        t.fld sl F.BLK_IRQ_VECTOR 0 = F.BLK_IRQ_VECTOR.get v ∧ t.mem = s.mem) ∧
      (s.graceDue sl = false → s.hasReaction sl 2 = false → exec (.blkAck who slot) s = .next
        (s.setHdr sl { s.hdr sl with graceEnd := none, graceExp := false })) ∧
      (s.graceDue sl = false → s.hasReaction sl 2 = true → exec (.blkAck who slot) s = .next s) ∧
      (s.graceDue sl = true → exec (.blkAck who slot) s = .next (s.graceExpire sl))) ∧
    (∀ e, (s.hdr sl).graceEnd = some e → e ≤ s.clk.now →
      ∃ t, exec (.graceExpiry slot) s = .next t ∧ (t.hdr sl).graceEnd = none ∧ (t.hdr sl).graceExp = true ∧ t.safeLine sl = true)

/-- O44. The safe output stage's commands: SO_CMD takes the value of its owner or the host in Run with no line asserted; ACT reads 0
otherwise, and another requester's write is ignored (R574, R595); SAFE_N low for 50 ns is recognised until it rises (R576); a readback difference that has lasted is recorded
(R577); a safe exit by the host with no ground for a refusal leaves Safe (R581): the Logbook's queue has room for its two entries. -/
def Obligations.SafeOutputCommands : Prop :=
  ∀ (who : Requester) (v : U64) (lowNs : Nat) (k : Fin 4) (lvl : Bool) (s : State),
    (s.soCmdOk who = true → ∃ t, exec (.soCmdWrite who v) s = .next t ∧ 
      t.fld 0x13 F.SO_CMD_ACT 0 = (if s.dev = .run ∧ s.anyLine = false then F.SO_CMD_ACT.get v else 0) ∧
      t = { s with regs := t.regs, pins := t.pins }) ∧
    (s.soCmdOk who = false → exec (.soCmdWrite who v) s = .next s) ∧
    (50 ≤ lowNs → ∃ t, exec (.safeNLow lowNs) s = .next t ∧ t.pins.safeNLow = true ∧
      (s.fld 0x13 F.SO_CFG_FOLLOW_N 0 = 1 → s.dev ≠ .off → nbit (t.faults 0x13) 1 = true)) ∧
    exec .safeNHigh s = .next { s with pins := { s.pins with safeNLow := false } } ∧
    (nbit s.pins.safeFb.toNat k ≠ lvl → ∃ t, exec (.safeFbChange k lvl) s = .next t ∧ nbit t.pins.safeFb.toNat k = lvl ∧
      Tab.find t.pins.fbAt k = some s.clk.now ∧ t = { s with pins := t.pins }) ∧
    (s.awake = true → s.rbDue k = true → ∃ t, exec (.soRbMism k) s = .next t ∧ nbit (t.faults 0x13) 0 = true ∧ t.mem = s.mem) ∧
    (s.awake = true → ∀ p, s.exitRefusal = 0 → s.log.ingress.length < 63 →
      ∃ t, exec (.safeExit (.host p)) s = .next t ∧ t.fld 0 F.HM_SAFE_STAT_IN_SAFE 0 = 0 ∧ t.dev = (if s.chartOn then .run else .idle))

/-- O45. The Logbook's commands (16_fault_reaction_logbook.md): the oldest queued entry is written, the mirror starts when asked for or due, a granted
segment ends, a clear needs presence, the spare log is voted and an entry is read back. -/
def Obligations.LogbookCommands : Prop :=
  ∀ (who : Requester) (u : Bool) (st : Status) (w : Fin 4) (s : State),
    exec (.logEntryWrite u) s = .next (s.logWrite u) ∧
    (s.awake = true → exec (.mirrorNow who) s = .next s.mirrorStart ∧
      (s.presence = true → exec (.logClear who) s = .next s.logClear) ∧
      (s.presence = false → exec (.logClear who) s = .next (s.logEntry 0 0xFF 0x0030 (3 + 0x0C8 * 256))) ∧
      (s.fld 3 F.LOG_MIR_PERIOD_S 0 ≠ 0 → s.log.since ≠ 0 →
        s.log.lastEnd + s.fld 3 F.LOG_MIR_PERIOD_S 0 * 1000000000 ≤ s.clk.now → exec .mirrorPeriod s = .next s.mirrorStart) ∧
      (s.fld 3 F.LOG_MIR_THRESH 0 ≠ 0 → s.fld 3 F.LOG_MIR_THRESH 0 ≤ s.log.since → exec .mirrorThresh s = .next s.mirrorStart) ∧
      ∃ t, exec (.logRdRead who w) s = .next t ∧ t.resps = (s.logRead w).2.resps ++ [⟨who, 0, 0, .ok, leBytes 8 (s.logRead w).1.toNat⟩]) ∧
    (∀ m g, s.log.mirror = some m → s.hm.granted = some g → g.user = .logbook →
      exec (.mirrorSegmentDone st u) s = .next (({ s with hm := { s.hm with granted := none } } : State).mirrorSegment m st u)) ∧
    (s.dev ≠ .off → s.clk.ticks % 1024 = 0 → 0 < s.clk.ticks → exec .spareVote s = .next s.voteAll)

/-- O46. Lighthouses and clock monitors: a limit that has passed fires its Lighthouse, age before period (15_fault_detection.md), where no
injected expiry is due; a window out of range twice running, or a count of zero, is a clock fault (R536); a good window forgets the
bad one; an RC count out of range is a clock fault (R537). What HM_CLKMON captures of the RC's count is free (log entry 126). -/
def Obligations.LighthousesAndClockMonitors : Prop :=
  ∀ (i : Fin 64) (k : Fin 5) (c e : BitVec 16) (w rc : Nat) (s : State),
    (s.ageDue i = true → s.injDue 0x12 9 i = false →
      let x : Lh := { s.lh i with ageFired := some (s.reg 0x12 .LH_STAMP i), periodFired := (s.lh i).periodFired || s.periodDue i }
      exec (.lhAgeExpiry i) s = .next ((s.setLh i x).lhFire i 1 (s.periodDue i))) ∧
    (s.periodDue i = true → s.ageDue i = false → s.injDue 0x12 8 i = false →
      exec (.lhPeriodExpiry i) s = .next ((s.setLh i { s.lh i with periodFired := true }).lhFire i 2 false)) ∧
    (s.firstDue i = true → exec (.lhFirstExpiry i) s = .next ((s.setLh i { s.lh i with periodFired := true }).lhFire i 3 false)) ∧
    (s.awake = true → outOf5 c.toNat e.toNat = true → c = 0 ∨ Tab.get 0 s.clk.badWindows k ≠ 0 →
      ∃ x, exec (.clkMonWindow k c e) s = .next (({ s with clk := { s.clk with badWindows := x } } : State).clkMon k c.toNat)) ∧
    (s.awake = true → outOf5 c.toNat e.toNat = false → c ≠ 0 →
      exec (.clkMonWindow k c e) s = .next { s with clk := { s.clk with badWindows := Tab.set 0 s.clk.badWindows k 0 } }) ∧
    (s.dev ≠ .off → nbit s.strap 11 = false → s.clk.ticks = 1024 * w → 0 < w →
      (outOf5 rc rcExpected = true → exec (.rcCheck w rc) s = .next (s.freeVal.2.clkMon 5 (s.freeVal.1.toNat % 65536))) ∧
      (outOf5 rc rcExpected = false → exec (.rcCheck w rc) s = .next s))

/-! ## Power, clocks and the start check -/

/-- O47. POR_N and the rails: a low of 10 µs or more is a POR; a rise with the rails in range starts the device (R243, R244); the
level on SAFEPOL is followed while POR_N is low (R694). -/
def Obligations.PowerOnReset : Prop :=
  ∀ (lowNs : Nat) (gpio : BitVec 14) (f a b lvl : Bool) (s : State),
    (10000 ≤ lowNs → exec (.porNFall lowNs) s = .next s.porFall) ∧
    (lowNs < 1000 → exec (.porNFall lowNs) s = .next s) ∧
    (s.dev = .off → s.pins.porLow = true → s.pins.rails = true → exec (.porNRise gpio f a b) s = .next (s.porRise gpio f a b)) ∧
    exec .aoIoRailsInRange s = .next { s with pins := { s.pins with rails := true } } ∧
    (s.pins.porLow = true → exec (.safepolPinChange lvl) s = .next { s with pins := { s.pins with safepol := lvl } } ∧
      ({ s with pins := { s.pins with safepol := lvl } } : State).safeLevel = lvl)

/-- O48. Sleep, wake, Service and warm reset (07_sleep_wake_clocks_straps.md): a source that asserts in Sleep, in sleep entry or in the start
check is taken as a wake source; Sleep is entered when nothing is enabled and asserted. -/
def Obligations.SleepWakeServiceAndWarmReset : Prop :=
  ∀ (who : Requester) (src : BitVec 21) (s : State),
    (s.awake = true → exec (.warmReset who) s = .next (s.warmReset 3) ∧ exec (.serviceEnter who) s = .next (s.svcWrite who 1) ∧
      exec (.svcLeaveWrite who) s = .next (s.svcWrite who 2) ∧ exec (.sleepRequest who) s = .next s.sleepReq) ∧
    (s.sleepReady = true → s.hm.wakeSeen ||| s.wakeEnabled s.levelSources = 0 → s.hm.safeDue = false →
      exec .sleepEntryComplete s = .next s.enterSleep) ∧
    ((s.dev = .sleep ∧ s.hm.safeDue = false) ∨ s.dev = .entering ∨ s.dev = .startCheck → (s.reg 2 .TIDE_ALARM 0).toNat ≤ s.tide.toNat →
      exec (.wake src) s = .next (s.wakeSource src.toNat) ∧ exec .tideAlarm s = .next (s.wakeSource 1))

/-- O49. The switched domains (R252, R256, R258, R283): groups switch on in turn, a domain that has come up serves, a drain ends with
its last request or after 50 µs with DRAIN_TIMEOUT recorded, and a reset's hold-off ends with the domain switched on again. -/
def Obligations.DomainsSwitchDrainAndReset : Prop :=
  ∀ (d : Fin 44) (who : Requester) (l : List ScFail) (s : State),
    (s.awake = true → s.hm.switchQ ≠ [] → s.hm.switchAt ≤ s.clk.now → exec .domainSwitchGroup s = .next s.switchGroup.pilotRun) ∧
    (s.awake = true → (s.dom d).power = .ramping → (s.dom d).draining = false → exec (.domainOn d l) s = .next (s.domainOn d l).pilotRun) ∧
    (s.awake = true → (s.dom d).draining = true →
      (s.outstanding d = false → exec (.drainOutboundDone d) s = .next (s.drainFinish d)) ∧
      (s.outstanding d = true → (s.dom d).drainT + 50000 ≤ s.clk.now →
        exec (.drainTimeout d) s = .next (((s.finishSegment d).record 0 6).drainFinish d))) ∧
    (∀ t, (s.dom d).holdEnd = some t → s.awake = true → t ≤ s.clk.now → exec (.domainResetHoldEnd d) s = .next
      ((s.setDom d { s.dom d with holdEnd := none }).switchOn [d.val]).pilotRun) ∧
    (s.awake = true → s.dev ≠ .startCheck →
      (s.mayRwl who (pwrSlot d) = true → s.wanted d = false → exec (.domainPowerOn who d) s = .next (s.pwrOn d)) ∧
      (s.mayRwl who (pwrSlot d) = true → s.wanted d = true → exec (.domainPowerOff who d) s = .next (s.drainReq d false)) ∧
      (s.mayRwl who (pwrSlot d) = false → s.wanted d = false → exec (.domainPowerOn who d) s = .next (s.lockedWrite (pwrSlot d) 0x40)) ∧
      exec (.domainReset who d) s = .next (s.pwrReset (pwrSlot d)))

/-- O50. The start check and the PLLs (07_sleep_wake_clocks_straps.md, 08_start_check.md), and the store segments that wait for the hold-up supply
(07_sleep_wake_clocks_straps.md). -/
def Obligations.StartCheckAndHoldUp : Prop :=
  ∀ (p : Fin 4) (n : Nat) (f : ScFail) (who : Requester) (slot : BitVec 6) (v : U64) (u : NvUser) (bytes : Nat) (code : BitVec 12)
      (s : State),
    (s.dev = .startCheck → s.hm.check = none →
      (s.hm.wakeCheck = true → s.hm.xoAt = none ∧ s.hm.pllStart = [] ∧ s.domsUp = true) → exec .startCheck s = .next s.checkBegin) ∧
    (∀ t, s.hm.xoAt = some t → s.dev = .startCheck → t + 2000 ≤ s.clk.now →
      exec (.referenceCheck n) s = .next (s.referenceCheck (decide (49 ≤ n ∧ n ≤ 51)))) ∧
    (∀ t, Tab.find s.hm.pllStart p = some t → (s.clk.now ≤ t + 20000 → exec (.pllLock p) s = .next (s.pllLock p)) ∧
      (t + 20000 ≤ s.clk.now → s.hm.pllTried.contains p.val = true → exec (.pllLockTimeout p) s = .next (s.pllFail p).pllSettled) ∧
      (t + 20000 ≤ s.clk.now → s.hm.pllTried.contains p.val = false → ∃ t', exec (.pllLockTimeout p) s = .next t' ∧
        t'.hm.pllTried = p.val :: s.hm.pllTried ∧ Tab.find t'.hm.pllStart p = some s.clk.now ∧ t' = { s with hm := t'.hm })) ∧
    (∀ c, s.hm.check = some c → s.dev = .startCheck →
      (s.scRuns c f = true → s.phaseWaits c (scPhase f.item) = false → exec (.scInjectionWindow f) s = .next (s.scWindow f)) ∧
      (s.scRuns c f = true → s.phaseWaits c (scPhase f.item) = true →
        exec (.scInjectionWindow f) s = .next (s.setFld 0 F.HM_SC_STAT_PHASE 0 11)) ∧
      (s.domsUp = true → s.trainingOver c = true → exec .startCheckDone s = .next s.scReport)) ∧
    (s.awake = true → assigned slot.toNat = true → exec (.manualInjection who slot v) s = .next (s.injWrite who slot.toNat v)) ∧
    (∀ lo len own, s.wantsSegment u = some (lo, len, own) → s.awake = true → s.hm.granted = none → (∀ g ∈ s.hm.deferred, g.user ≠ u) →
      segBytes own len bytes = true → s.hm.broken = false →
      exec (.segmentRequest u bytes code) s = .next (s.segCheck { user := u, bytes := bytes, lo := lo, len := len } code.toNat)) ∧
    (∀ g, s.hm.deferred.find? (fun g => decide (g.nextAt ≤ s.clk.now)) = some g → s.awake = true → s.hm.granted = none →
      s.hm.broken = false →
      exec (.holdupRetry code) s = .next (({ s with hm := { s.hm with deferred := s.hm.deferred.erase g } } : State).segCheck g code.toNat))

/-- O51. Tide time and its master, the AO tick and the crystal (07_sleep_wake_clocks_straps.md, 20_balls_supplies_timing.md). -/
def Obligations.TideAndTicks : Prop :=
  ∀ (q : Fin 4) (kind : BitVec 2) (t : BitVec 40) (m : BitVec 6) (who : Requester) (v : U64) (raw : BitVec 5) (s : State),
    (s.awake = true → s.clk.running = true → s.tideMaster = false → s.qstate s.syncTarget = 7 → s.clk.syncAt + 10000 ≤ s.clk.now →
      exec .tideSyncTimer s = .next s.syncRequest) ∧
    (s.awake = true → s.qstate q = 7 →
      (kind ≠ 3 → s.clk.running = true → exec (.sync q kind t m true) s = .next ((s.syncHeard q m.toNat).syncBlock q kind.toNat t.toNat)) ∧
      exec (.sync q kind t m false) s = .next (s.ctlErr q)) ∧
    (∀ l, s.clk.lastSync = some l → s.awake = true → s.clk.running = true → s.tideMaster = false → s.clk.lostAt = none →
      l + 30000 ≤ s.clk.now → s.otherParent = none → ∃ u, exec .tideParentTimeout s = .next u ∧ u.clk.lostAt = some s.clk.now ∧
        u.clk.lost = s.fld 2 F.TIDE_STAT_MASTER 0 ∧ u = { s with clk := u.clk }) ∧
    (∀ l, s.clk.lostAt = some l → s.awake = true → s.clk.running = true → s.tideMaster = false →
      l + 10000 * s.claimDist s.clk.lost s.chip ≤ s.clk.now → ∃ u, exec .masterElectionTimeout s = .next u ∧
        nbit (u.faults 2) 1 = true ∧ u.clk.lostAt = none ∧ u.clk.claimK = some (s.claimDist s.clk.lost s.chip)) ∧
    (s.awake = true → s.clk.running = true → s.inside64 m.toNat = true → m.toNat ≠ s.chip → s.clk.lostAt.isSome = true → s.clk.claimK = none →
      s.tideMaster = false → exec (.masterClaim m) s = .next (s.acceptClaim m.toNat (s.claimDist s.clk.lost m.toNat))) ∧
    (s.awake = true → s.clk.running = true → s.tideMaster = true → s.fld 2 F.TIDE_CFG_PPS_EN 0 = 1 → s.clk.ppsAt = none →
      exec .timePps s = .next { s with clk := { s.clk with ppsAt := some s.clk.now, slew := ppsOffset s.tide.toNat } }) ∧
    (s.awake = true → exec (.tideSet who v) s = .next (s.tideSet who v)) ∧
    (s.alive = true → exec (.aoTick raw) s = .next (s.aoTick raw.toNat) ∧
      (nbit s.strap 11 = false → s.clk.xtal = false →
        (s.clk.now < 2000000000 → exec .xtalSwitch s = .next { s with clk := { s.clk with xtal := true } }) ∧
        (2000000000 ≤ s.clk.now → exec .xtalStartTimeout s = .next (s.clkMon 5 0))))

/-! ## The person at the device -/

/-- O52. Filtered inputs, the presence window, the seal, the e-stop and the touch pads (17_person_presence.md). -/
def Obligations.PersonAtTheDevice : Prop :=
  ∀ (i : Fin 5) (w : Fin 4) (ch : Fin 2) (p : Fin 8) (lvl : Bool) (lowNs : Nat) (raw : List (BitVec 16)) (s : State), s.alive = true →
    (66 ≤ (s.input i).diff → (s.input i).chatter = false → exec (.inputFilterChange i) s = .next (s.filterChange i)) ∧
    (∀ t, (s.input i).run = some t → (s.input i).chatter = false → (s.input i).still < 66 → t + 32768 ≤ s.clk.ticks →
      ∃ u, exec (.chatter i) s = .next u ∧ (u.input i).chatter = true ∧ nbit (u.faults 0) 13 = true) ∧
    (∀ t, (s.input i).run = some t → 66 ≤ (s.input i).still → exec (.chatterRunEnd i) s = .next (s.runEnd i)) ∧
    ((s.input w).filt = true → (s.input w).stuck = false → s.stuckLimit w ≠ 0 → (s.input w).since + s.stuckLimit w < s.clk.ticks →
      ∃ u, exec (.wakeStuck w) s = .next u ∧ (u.input w).stuck = true ∧ nbit (u.faults 0) 12 = true) ∧
    ((s.input 4).filt = true → s.svcIgnored = false → s.person.pressVoid = false → (s.input 4).since + 983041 ≤ s.clk.ticks →
      ∃ u, exec .serviceStuck s = .next u ∧ (u.input 4).stuck = true ∧ u.person.pressVoid = true ∧ nbit (u.faults 0) 12 = true) ∧
    (s.svcIgnored = true → 32768 ≤ s.person.svcHigh → exec .serviceStuckRelease s = .next s.svcRelease) ∧
    (∀ t, s.person.winEnd = some t → t ≤ s.clk.ticks → ∃ u, exec .presenceWindowExpiry s = .next u ∧
      u.person.winEnd = none ∧ (s.pins.factory = false → u.fld 0x10 F.HOST_DBG_EN 0 = 0)) ∧
    (s.clk.ticks % 8 = 0 → s.person.sealAt < s.clk.ticks → exec (.sealSample lvl) s = .next (s.sealSample lvl)) ∧
    ((if ch = 0 then s.person.aLow else s.person.bLow) = false → 50 ≤ lowNs → exec (.estopLow ch lowNs) s = .next (s.estopFall ch)) ∧
    ((if ch = 0 then s.person.aLow else s.person.bLow) = true → exec (.estopRise ch) s = .next (s.estopRise ch)) ∧
    (1639 ≤ s.person.discTicks → s.fld 0 F.ESTOP_STAT_DISC 0 = 0 → ∃ u, exec .estopDisc s = .next u ∧ nbit (u.faults 0) 11 = true ∧
      u.mem = s.mem) ∧
    (∀ t, s.person.stableAt = some t → t + 1639 ≤ s.clk.ticks → s.estopLine = false → ∃ u, exec .estopStable s = .next u ∧
      u.fld 0 F.ESTOP_STAT_STABLE 0 = 1 ∧ u.person.stableAt = none) ∧
    exec (.touchScan raw) s = .next ((List.range 8).foldl (fun (t : State) j =>
      if nbit (s.fld 0 F.TOUCH_CFG_EN 0) j then t.scanPad j (raw.getD j 0) else t) s) ∧
    ((s.pad p).touched = true → 3000 ≤ (s.pad p).held → exec (.touchStuck p) s = .next (s.touchStuck p))

/-! ## Charts -/

/-- O53. The Pilot's commands (06_charts.md): a load that is due runs, batches, answers and START are taken from the Pilot's queue,
missing reports, answers and Berths fail the load, and PILOT_CMD and PILOT_BOOT are taken while the device is awake. -/
def Obligations.ChartCommands : Prop :=
  ∀ (ty x y : BitVec 8) (addr : Addr) (len : Nat) (c : Fin 64) (st : Status) (n : Fin 32) (part : BitVec 4) (s : State),
    (s.loadsDue 1 = true ∨ s.loadsDue 3 = true → exec .bootLoad s = .next s.bootLoad) ∧
    (s.loadsDue 2 = true → exec .residentChartLoad s = .next s.residentLoad) ∧
    (∀ l, s.pilot.load = some l → l.fitted = false → s.domainPilot = true → s.dev ≠ .startCheck → l.start + 20000000 ≤ s.clk.now →
      exec .reportTimeout s = .next (s.discover true)) ∧
    (s.takesBatches = true → ∀ m t, s.blockTake 34 = some (m, t) → pilotMsg m = true →
      (mTag m = ty.toNat → mTag m ≤ 8 → mPointer m = addr.toNat → mLength m = len → mNum m 6 1 = x.toNat → mNum m 7 1 = y.toNat →
        exec (.chartBatch ty addr len x y) s = .next (t.applyBatch ty.toNat addr len)) ∧
      (mTag m = 0xFF → t.reactDone = true → exec .chartStart s = .next (t.chartRuns false).spansOpen)) ∧
    (s.domainPilot = true → s.awake = true → ∀ m t, s.blockTake 34 = some (m, t) → pilotMsg m = true → mTag m = 0x100 + statusCode st →
      mNum m 6 1 = (s.fld 9 F.MESH_ORIGIN_OX 0 + c.val % 8) % 256 → mNum m 7 1 = (s.fld 9 F.MESH_ORIGIN_OY 0 + c.val / 8) % 128 →
      exec (.batchAnswer c st) s = .next (t.batchAnswer c st)) ∧
    (∀ l t, s.pilot.load = some l → Tab.find l.waits c.val = some t → t ≤ s.clk.now → exec (.batchTimeout c) s = .next (s.pilotFail 16)) ∧
    (∀ l t, s.pilot.load = some l → Tab.find l.powered n.val = some t → t + 1000000 ≤ s.clk.now → s.serves n = false →
      exec (.berthAvailableTimeout n) s = .next (s.pilotFail 17)) ∧
    (s.awake = true → exec .pilotBoot s = .next (s.pilotBoot true) ∧
      exec .load s = .next (s.pilotCmd (.host .pcie) (cmdValue 1 (s.fld 1 F.PILOT_CMD_PART 0))) ∧
      exec (.rechart part) s = .next (s.pilotCmd (.host .pcie) (cmdValue 2 part.toNat)) ∧
      exec .store s = .next (s.pilotCmd (.host .pcie) (cmdValue 3 (s.fld 1 F.PILOT_CMD_PART 0))))

/-! ## Sensors and streams -/

/-- O54. Packets of a receiver that is on (09_sensor_intake_commit.md): an uncorrectable header fails the channel's frames; a good Frame Start opens a
frame of each stream of the channel, a good line joins the frames that fill, one whose CRC fails is counted though no stream is bound to it (R311), a good Frame End ends them; a frame that takes too
long fails; a ring write completes in order. -/
def Obligations.SensorPackets : Prop :=
  ∀ (r : Fin 8) (vc : BitVec 4) (no : BitVec 16) (dt : BitVec 6) (data : List Byte) (ok : Bool) (i : Fin 16) (st : Status) (s : State),
    (s.receives r = true → let l := s.onChannel r vc.toNat
      (∀ bad, bad = ((s.count 0x0D F.RX_STAT_ECC_UNCORR r 1).record 0x0D 0).failAll l 1 →
        exec (.frameStart r vc no .uncorrectable) s = .next bad ∧ exec (.frameEnd r vc no .uncorrectable) s = .next bad ∧
        exec (.linePacket r vc dt data .uncorrectable ok) s = .next bad) ∧
      (l ≠ [] → exec (.frameStart r vc no .ok) s = .next (l.foldl (fun u j => u.startFrame j u.tide no) s) ∧
        exec (.frameEnd r vc no .ok) s = .next (l.foldl (fun u j => u.frameEndOf j no) s)) ∧
      (∀ k, l.filter (fun j => s.fld 0x0D F.STREAM_CFG_DT j == dt.toNat) = [k] → ∀ f, s.filling k = some f →
        exec (.linePacket r vc dt data .ok true) s = .next (s.csiLine k f.1 f.2 data)) ∧
      (l.filter (fun j => s.fld 0x0D F.STREAM_CFG_DT j == dt.toNat) = [] →
        exec (.linePacket r vc dt data .ok false) s =
          .next (((s.count 0x0D F.RX_STAT_CRC_ERR r 1).record 0x0D 0).count 0x0D F.RX_STAT_UNBOUND r 1)) ∧
      ∃ t, exec (.intakeLink r) s = .next t ∧ nbit (t.faults 0x0D) 5 = true ∧ t.mem = s.mem ∧ t.streams = s.streams) ∧
    (∀ k f, (s.stream i).slots.find? (fun c => c.2.st == .pending && decide (c.2.sof.toNat + s.frameTimeoutNs i < s.tide.toNat)) =
      some (k, f) → s.serves 41 = true → exec (.frameTimeout i) s = .next (s.failFrame i k f 5)) ∧
    (∀ w rest, (s.stream i).writes = w :: rest → w.wait = none → w.st = none ∨ w.st = some st →
      exec (.ringWriteComplete i st) s = .next (s.ringDone i w rest st))

/-- O55. The streams' registers as commands and the frame-sync outputs (09_sensor_intake_commit.md): a read of STREAM_CLAIM answers what it
claims, a release is answered, counters clear, a stream is enabled and disabled; a pulse that is due rises and falls. -/
def Obligations.StreamRegistersAndPulses : Prop :=
  ∀ (who : Requester) (i : Fin 16) (slot : BitVec 4) (k : Fin 8) (s : State),
    (s.awake = true →
      (s.serves 41 = true → ∃ t, exec (.streamClaim who i) s = .next t ∧
        t.resps = (s.claim who i).2.resps ++ [⟨who, 0, 0, .ok, leBytes 8 (s.claim who i).1.toNat⟩]) ∧
      (s.serves 41 = false → exec (.streamClaim who i) s = .next { s with resps := s.resps ++ [⟨who, 0, 0, .down, List.replicate 8 0⟩] }) ∧
      (s.serves 41 = true → (s.releaseFrame who i slot.toNat).1 = .ok → exec (.streamRel who i slot) s = .next (s.releaseFrame who i slot.toNat).2)) ∧
    (s.serves 41 = true → exec (.streamCntClr who i) s = .next (s.streamCntClr i) ∧ exec (.streamEnable who i) s = .next (s.streamEn who i 1) ∧
      exec (.streamDisable who i) s = .next (s.streamEn who i 0)) ∧
    (s.serves 41 = true → s.fld 0x0D F.FSYNC_PER_EN k = 1 → s.fsyncOk k = true → Tab.get 0 s.fsyncDone k < s.fsyncCount k true →
      ∃ t, exec (.fsyncPulse k) s = .next t ∧ Tab.get 0 t.fsyncDone k = s.fsyncCount k true ∧
        Tab.find t.fsyncEnd k = some (s.tide + BitVec.ofNat 64 (s.fld 0x0D F.FSYNC_PER_WIDTH k)) ∧
        t = { s with fsyncDone := t.fsyncDone, fsyncEnd := t.fsyncEnd }) ∧
    (∀ e, Tab.find s.fsyncEnd k = some e → e.toNat ≤ s.tide.toNat → ∃ t, exec (.fsyncPulseEnd k) s = .next t ∧ Tab.find t.fsyncEnd k = none ∧
      t = { s with fsyncEnd := t.fsyncEnd })

/-! ## Wharfinger and Dredger -/

/-- O56. The Wharfinger takes the command at the front of its queue or its host registers when nothing makes it wait, and performs it; a
pool restores from its save area or the store (11_attention_wharfinger.md). -/
def Obligations.WharfingerCommands : Prop :=
  ∀ (src : CmdSrc) (reply : BitVec 8) (q q2 layer count pool : BitVec 16) (tok : U32) (list : Addr) (p : Fin 4) (s : State),
    (∀ t, s.kvTake src (cmdWord 1 reply.toNat q.toNat 0 0 0) = some t → s.seqWaits q.toNat = false →
      exec (.kvOpen src reply q) s = .next (t.kvOpen src reply.toNat q.toNat)) ∧
    (∀ t, s.kvTake src (cmdWord 2 reply.toNat q.toNat 0 0 0) = some t → s.seqWaits q.toNat = false → s.held q.toNat = false →
      exec (.kvClose src reply q) s = .next (t.kvClose src reply.toNat q.toNat)) ∧
    (∀ t, s.kvTake src (cmdWord 3 reply.toNat q.toNat q2.toNat 0 tok.toNat) = some t → s.seqWaits q.toNat = false →
      s.seqWaits q2.toNat = false → s.held q.toNat = false →
      exec (.kvFork src reply q q2 tok) s = .next (t.kvFork src reply.toNat q.toNat q2.toNat tok.toNat)) ∧
    (∀ t, s.kvTake src (cmdWord 4 reply.toNat q.toNat 0 0 tok.toNat) = some t → s.seqWaits q.toNat = false → s.held q.toNat = false →
      exec (.kvTrunc src reply q tok) s = .next (t.kvTrunc src reply.toNat q.toNat tok.toNat)) ∧
    (∀ t, s.kvTake src (cmdWord 5 reply.toNat 0 layer.toNat count.toNat list.toNat) = some t →
      (∀ r : Fin 4, s.poolOn r = true → (s.poolSt r).wait = 0) →
      exec (.kvDispatch src reply layer count list) s = .next (t.kvDispatch src reply.toNat layer.toNat count.toNat list.toNat)) ∧
    (∀ t, s.kvTake src (cmdWord 6 reply.toNat 0 pool.toNat 0 0) = some t → (s.poolSt pool.toNat).wait = 0 →
      exec (.kvStow src reply pool) s = .next (t.kvStow src reply pool.toNat)) ∧
    (∀ t, s.kvTake src (cmdWord 7 reply.toNat q.toNat 0 0 0) = some t → s.seqWaits q.toNat = false →
      exec (.kvQuery src reply q) s = .next (t.kvQuery src reply.toNat q.toNat)) ∧
    (s.serves 32 = true → (s.poolSt p).wait = 1 → s.poolLost (s.poolCfg p) = true → s.fld 0x0E F.KV_POOL_CFG_RESTORE p = 0 →
      exec (.kvRestore p) s = .next (s.poolEmpty p)) ∧
    (s.serves 32 = true → (s.poolSt p).wait = 1 → s.poolLost (s.poolCfg p) = true → s.fld 0x0E F.KV_POOL_CFG_RESTORE p = 1 →
      exec (.kvRestore p) s = .next (s.setPool p { free := [], wait := 2 })) ∧
    (s.serves 32 = true → (s.poolSt p).wait = 2 → nvChoose (s.kvNvSeq p false) (s.kvNvSeq p true) = none →
      exec (.kvUnstow p) s = .next (s.poolEmpty p))

/-- O57. The Dredger: a command for an enabled slot that its sender may use is performed in the slot states that permit it and refused
with reason 11 in the others, a SUBMIT answered BUSY; the oldest queued slot that is enabled starts, a loaded problem is expanded, and a
step of an anneal whose words are readable advances the engine (12_dredger.md). -/
def Obligations.DredgerCommands : Prop :=
  ∀ (src : CmdSrc) (reply k : BitVec 8) (desc : Addr) (s : State), s.serves 33 = true →
    (∀ op v t, s.drgTake src op reply.toNat k.toNat v = some t →
      k.toNat < 8 → t.fld 0x0F F.DRG_SLOT_CFG_EN k.toNat ≠ 0 → t.fld 0x0F F.DRG_SLOT_STAT_CFG_ERR k.toNat ≠ 1 → t.mayUse src k.toNat = true →
      (op = 1 → v = desc.toNat → t.dslot k.toNat = 0 → ∃ u, exec (.submit src reply k desc) s = .next u ∧ u.drg.queue = t.drg.queue ++ [k.toNat]) ∧
      (op = 2 → v = 0 → t.dslot k.toNat = 1 → ∃ u, exec (.pause src reply k) s = .next u ∧ k.toNat ∉ u.drg.queue) ∧
      (op = 3 → v = 0 → t.dslot k.toNat = 3 →
        exec (.resume src reply k) s = .next ((t.enqueueSlot k.toNat).drgOk src reply.toNat 3 k.toNat)) ∧
      (op = 4 → v = 0 → t.dslot k.toNat = 2 → t.drg.pausing = false → ∃ u, exec (.stop src reply k) s = .next u ∧ u.drg.stopping = true) ∧
      (op = 5 → v = 0 → t.dslot k.toNat ∈ [3, 4, 5] → ∃ u, exec (.collect src reply k) s = .next u ∧ Tab.find u.drg.jobs k.toNat = none) ∧
      (op = 6 → v = 0 → t.dslot k.toNat ≤ 5 → exec (.drgStatus src reply k) s = .next (t.drgOk src reply.toNat 6 k.toNat)) ∧
      (op = 1 → v = desc.toNat → t.dslot k.toNat ≠ 0 →
        exec (.submit src reply k desc) s = .next (t.drgReply src reply.toNat 1 k.toNat .busy (t.eBestF k.toNat) (nbit reply.toNat 2))) ∧
      (op = 3 → v = 0 → t.dslot k.toNat ≠ 3 → exec (.resume src reply k) s = .next (t.drgRefuse src reply.toNat 3 k.toNat 11))) ∧
    (∀ j, s.drg.run = none → s.drg.queue.find? s.slotReady = some j → ∃ u, exec .drgProblemStart s = .next u ∧ u.drg.run = some j ∧
      u.drg.queue = s.drg.queue.erase j ∧ u.drg.anneal = none ∧ u.mem = s.mem) ∧
    (∀ j b, s.drg.run = some j → s.drg.anneal = none → Tab.find s.drg.jobs j = some b → exec .drgLoadDone s = .next (s.drgLoad j b)) ∧
    (∀ j a t, s.drg.run = some j → s.drg.anneal = some a →
      (s.readStep j a = (.ok, t) → exec .drgStep s = .next (t.annealStep j a)) ∧
      (s.readStep j a = (.ok, t) → a.step.sweepDone = false → ∃ u, exec .drgStep s = .next u ∧ u.drg.anneal = some a.step ∧ u.mem = t.mem) ∧
      (s.readStep j a = (.poison, t) → exec .drgStep s = .next ((t.markFailed a.sa).drgFail j .poison)))

/-! ## Manifests, links and the mesh -/

/-- O58. Manifests, credits, flits and packets (13_manifests_buoys.md, 14_zenier_mesh.md): each command of a link that is ACTIVE, of the
router, the board window and the Lighter, while what it acts on is present and its turn has come. -/
def Obligations.ManifestsLinksAndMesh : Prop :=
  ∀ (m : Manifest) (n : Fin 32) (f : Fin 16) (c : BitVec 2) (q : Fin 4) (g : BitVec 8) (ps : List Packet)
      (cnt : BitVec 42) (p : Packet) (vc : Fin 6) (l : LossCause) (lanes : BitVec 8) (nb : Neighbour) (x y : BitVec 8) (num off : U32)
      (who : Requester) (a : Addr) (s : State),
    (s.awake = true →
      (s.mHere m = true → s.lt.waiting = [] → s.arrives m = true →
        exec (.manifestDelivery m (mFlow m)) s = .next (s.deliver m (mFlow m))) ∧
      (s.flowOn n f = true → c ≠ 0 → s.fld (bslot n) F.MSG_SFLOW_AVAIL f < s.fld (bslot n) F.MSG_SFLOW_CREDITS f →
        ∀ r, s.creditInFlight n f c.toNat = some r → exec (.creditReturn n f c) s =
          .next (({ s with credits := s.credits.erase r } : State).creditBack n f c.toNat)) ∧
      (s.mHere m = true → mNack m = true → mCrcOk m = true → mTarget m = 32 →
        exec (.blockNack m) s = .next ((s.unsent m).count 9 F.ROUTE_STAT_BLOCK_NACK 0 1)) ∧
      (s.qstate q = 7 →
        (g.toNat = (s.quay q).rxG → ∃ u, exec (.flitGroup q g true ps) s = .next u ∧ (u.quay q).rxG = ((s.quay q).rxG + 1) % 256 ∧
          (u.quay q).rxq = ps.foldl (joinRx s.clk.now) (s.quay q).rxq ∧ u.mem = s.mem) ∧
        exec (.cred q cnt false) s = .next (s.ctlErr q) ∧
        (∃ x : Quay, exec (.cred q cnt true) s = .next (s.setQuay q x) ∧ ∀ v, v < 6 → Tab.get 0 x.counts v = cnt.toNat / 128 ^ v % 128 ∧
          x.credit v = min ((s.quay q).credit v + (cnt.toNat / 128 ^ v % 128 + 128 - Tab.get 0 (s.quay q).counts v) % 128)
            (bitsOf ((s.quay q).nbVc.zeroExtend 64) (8 * v + 7) (8 * v))) ∧
        ((s.quay q).lastCred + 1000 ≤ s.clk.now → exec (.credTimer q) s = .next (s.sendCred q)) ∧
        exec (.ack q g true) s = .next ((s.acked q g.toNat).pump q) ∧
        exec (.nak q g true) s = .next (((s.acked q g.toNat).resend q).pump q) ∧
        ((s.quay q).lastAck + 500 ≤ s.clk.now → exec (.ackTimer q) s = .next (s.sendAck q false)) ∧
        ((s.quay q).replay ≠ [] → (s.quay q).lastProg + 2000 ≤ s.clk.now → exec (.replayTimeout q) s = .next (s.resend q)) ∧
        exec (.sleepNotice q) s = .next (s.quayAsleep q 8) ∧ exec (.quiesce q) s = .next (s.quayAsleep q 9) ∧
        (l ≠ .replayLimit ∨ 8 ≤ (s.quay q).replays → exec (.linkLoss q l) s = .next (s.quayLose q))) ∧
      (s.quayOn q = true →
        (s.qstate q = 0 ∨ s.qstate q = 10 → (s.quay q).retrain = false → (s.quay q).stopped = false → (s.quay q).retryAt = none →
          exec (.linkTraining q) s = .next (s.trainBegin q)) ∧
        (s.qstate q = 1 ∨ s.qstate q = 8 ∨ s.qstate q = 9 → 2 ≤ (setBits 8 lanes.toNat).length →
          exec (.linkDetect q lanes) s =
            .next ((s.setFld (qslot q) F.QUAY_STAT_RATE 0 (s.fld (qslot q) F.QUAY_CFG_MAXRATE 0)).setQstate q 2)) ∧
        (s.qstate q = 2 → (rxWidth lanes.toNat = none → exec (.laneTestEnd q lanes) s = .next (s.lowerRate q)) ∧
          (∀ w k, rxWidth lanes.toNat = some (w, k) → exec (.laneTestEnd q lanes) s =
            .next (((s.setFld (qslot q) F.QUAY_STAT_RXW 0 w).setFld (qslot q) F.QUAY_STAT_RX_LANES 0 k).setQstate q 5))) ∧
        (s.qstate q = 5 → nb.txw ≠ 3 → s.neighbourOk q nb = true → ∃ u, exec (.linkActive q nb) s = .next u ∧
          (u.quay q).trained = true ∧ (u.quay q).nbVc = nb.vc ∧ u.mem = s.mem) ∧
        (∀ e, (s.quay q).retryAt = some e → e ≤ s.clk.now →
          exec (.trainRetry q) s = .next ((s.trainBegin q).setQuay q { (s.trainBegin q).quay q with retryAt := none })) ∧
        (s.qstate q = 8 → s.fld (qslot q) F.QUAY_CFG_WAKE_TX 0 = 1 → (s.quay q).wakeReq = true →
          exec (.quayWake q) s = .next ((s.setQuay q { s.quay q with wakeReq := false }).linkSend q .wake))) ∧
      (∀ e ∈ s.mesh.out, hVc e.1 = vc.val → e.2 + 1000000 ≤ s.clk.now → ∃ u, exec (.routeStall vc) s = .next u ∧
        nbit (u.faults 9) 1 = true ∧ u.mem = s.mem) ∧
      (∀ t rest, s.presented none p = true → s.routeHead 0 p = some (t, rest) →
        exec (.headFlitRoute none p) s = .next (t.taken none p rest)) ∧
      (∀ t rest, s.presented (some q) p = true → s.routeHead (q.val + 1) p = some (t, rest) →
        exec (.headFlitRoute (some q) p) s = .next (t.taken (some q) p rest)) ∧
      (hDestX p = s.gx → hDestY p = s.gy →
        (hKind p ∈ [2, 3, 4] → s.firstHere p = true → wellSized (hAddr p) (hLen p) = true →
          let r := (s.unbox p).perform (.remote (BitVec.ofNat 8 (hSrcX p)) (BitVec.ofNat 8 (hSrcY p)) (BitVec.ofNat 6 (hReq p)))
            (s.windowPlace (hAddr p)) (reqOp p)
          r.st ≠ .down → exec (.boardWindowRequest p) s = .next (r.s.respTo p r.st r.data)) ∧
        (hKind p = 5 → s.isAbandoned p = false → hReq p < 32 → (s.dom (hReq p)).power = .on →
          ∃ u r, exec (.resp p) s = .next u ∧ u.resps = s.resps ++ [r] ∧ r.tag = hTag p ∧ r.who = unitRequester (hReq p) ∧
            r.status = statusOf (hOp p) ∧ u.mem = s.mem)) ∧
      (s.outgoing m = true → s.lighterTurn m = true → s.inDomain (mNum m 0 1) (mNum m 1 1) = false → mInline m = false → mClass m ≠ 0 →
        s.ltServes = true → s.lt.txq.length < 64 →
        exec (.lighterEnqueue m) s =
          .next (let u := s.unsent m; State.ltPump 5 { u with lt := { u.lt with txq := u.lt.txq ++ [m] } })) ∧
      (s.ltServes = true → ∀ k, s.ltClass (mLength m) = some k → 0 < s.ltFree k →
        exec (.bopen x y num m) s = .next ((s.unboxXfer 7 x.toNat y.toNat num).ltGrant x y num m k)) ∧
      (s.ltRuns = true → ∀ r, (s.unboxXfer 9 x.toNat y.toNat num).rxXfer x y num = some r →
        exec (.bseg x y num off false true []) s = .next ((s.unboxXfer 9 x.toNat y.toNat num).ltAbort r))) ∧
    (s.ltRuns = true →
      (∀ e, s.xfer num = some e →
        exec (.bgrant num .ok) s = .next ((s.unboxXfer 8 e.x.toNat e.y.toNat num).ltStream e) ∧
        exec (.bgrant num .poolFull) s = .next ((s.unboxXfer 8 e.x.toNat e.y.toNat num).ltNack e .poolFull) ∧
        (e.last + 100000 ≤ s.clk.now → exec (.bgrantTimeout num) s = .next (s.ltNack e .down))) ∧
      (∀ h, s.lt.held.find? (fun h => decide (h.last + 50000 ≤ s.clk.now)) = some h → ∃ u, exec .bgrantBusyRepeat s = .next u ∧
        u = (({ s with lt := { s.lt with held := s.lt.held.map fun e => if e = h then { e with last := s.clk.now } else e } } : State).grant
          h.x.toNat h.y.toNat h.num .busy)) ∧
      (∀ r, s.rxXfer x y num = some r → r.last + 100000 ≤ s.clk.now → exec (.bsegTimeout x y num) s = .next (s.ltAbort r))) ∧
    (s.ltServes = true → exec (.ltRelease who a) s = .next (s.ltRelease a.toNat))

/-! ## Host paths and field interfaces -/

/-- O59. The host paths (18_host_field_interfaces.md): PCIe requests inside a BAR are performed and completed, the endpoint's resets take the link
down, SPI frames and I3C transfers are answered, and the TAP holds its instruction; EXTEST and CLAMP are refused in Run. -/
def Obligations.HostPathCommands : Prop :=
  ∀ (bar : Fin 3) (off n err : Nat) (d : List Byte) (op : MemOp) (en : Bool) (gen width : BitVec 3) (addr : Addr) (len : Byte)
      (tgt : U32) (tmo : BitVec 16) (da sa : BitVec 7) (code : Byte) (s : State),
    (s.pcieUp = true →
      (inBar bar off d.length = true → exec (.pcieMemWrite bar off d) s = .next (State.barWrite bar (spanFuel d.length) s off d)) ∧
      (inBar bar off n = true → n ≤ 4096 →
        exec (.pcieMemRead bar off n) s = .next (State.readComplete (State.barRead bar (spanFuel n) s off n))) ∧
      (bar.val = 2 → inBar bar off 8 = true → off % 8 = 0 → atomicKind op = true →
        exec (.pcieAtomicOp bar off op) s = .next (State.readComplete (s.barAsk 2 off op))) ∧
      (∀ i ∈ [Instr.perstNLow, .flr, .hotReset], ∃ t, exec i s = .next t ∧ t.fld 0x10 F.HOST_STAT_LINK_UP 0 = 0 ∧ t.host.msixOn = false ∧
        t.host.table = [] ∧ t = { s with regs := t.regs, host := t.host }) ∧
      (s.dev = .startCheck → exec (.pcieConfigRequest (some en)) s = .next (s.complete .crs [])) ∧
      (s.dev ≠ .startCheck → exec (.pcieConfigRequest (some false)) s = .next
        (({ s with host := { s.host with msixOn := false } } : State).complete .sc [])) ∧
      ∃ t, exec .pcieLinkDown s = .next t ∧ t.fld 0x10 F.HOST_STAT_LINK_UP 0 = 0 ∧ nbit (t.faults 0x10) 4 = true ∧ t.mem = s.mem) ∧
    (s.awake = true → (s.dom 42).power = .on → (s.dom 42).draining = false → s.fld 0x10 F.HOST_STAT_LINK_UP 0 = 0 →
      ∃ t, exec (.pcieLinkUp gen width) s = .next t ∧ t.fld 0x10 F.HOST_STAT_LINK_UP 0 = 1 ∧ t.fld 0x10 F.HOST_STAT_GEN 0 = gen.toNat ∧
        t.fld 0x10 F.HOST_STAT_WIDTH 0 = width.toNat ∧ t.mem = s.mem) ∧
    (s.spiOn = true → s.hostReady = true →
      (∀ c w i, (c, w, i) ∈ [(1, [], Instr.regRd addr len), (2, d, .regWr addr len d),
          (3, leBytes 4 tgt.toNat ++ leBytes 2 tmo.toNat, .buoyRd addr len tgt tmo), (4, [], .memRd addr len), (5, d, .memWr addr len d)] →
        w.length = frameWrites c len.toNat → s.frameBad c addr len.toNat w = false → ∀ st e u,
        (s.spiFrame 0).frameDo .spi c addr len.toNat w = (some (st, e), u) → exec i s = .next (u.spiAnswer st 0 e)) ∧
      (s.frameBad 6 0 7 [] = false → ∀ st e u, (s.spiFrame 0).frameDo .spi 6 0 7 [] = (some (st, e), u) →
        exec .spiStatus s = .next (u.spiAnswer st 0 e)) ∧
      (1 ≤ err → err ≤ 4 → exec (.spiBadFrame err) s = .next ((s.spiFrame err).spiAnswer .poison err [])) ∧
      (s.host.spi.isSome = true → ∃ t, exec .spiCsNRise s = .next t ∧ t.host.spi = none ∧ t.fld 0x10 F.HOST_STAT_SPI_ERR 0 = 6 ∧
        nbit (t.faults 0x10) 5 = true ∧ t.mem = s.mem)) ∧
    (∀ b rest, s.hostOn = true → s.host.buoy = b :: rest → b.next ≤ s.clk.now →
      let r := s.hostAsk b.path b.addr (.read 8)
      r.st = .ok → buoyHolds r.data b.target = true → exec .buoyRdPoll s = .next (r.s.buoyAnswer b .ok r.data)) ∧
    (s.i3cOn = true →
      (s.i3cAddr ≠ 0 → s.host.i3c = none → s.host.buoy = [] → 10 ≤ d.length → d.length ≤ 268 →
        exec (.i3cPrivateWrite d) s = .next (s.i3cFrame d)) ∧
      (s.i3cAddr ≠ 0 → ∀ e, s.host.i3c = some e → ∃ t, exec .i3cPrivateRead s = .next t ∧ t.host.i3c = none ∧ t.host.i3cOut = e ∧
        t.host.i3cNak = false ∧ t = { s with host := t.host }) ∧
      (s.i3cAddr = 0 → da ≠ 0 → (∃ t, exec (.entdaa da) s = .next t ∧ t.i3cAddr = da.toNat ∧ t.mem = s.mem) ∧
        (s.fld 0x10 F.HOST_CFG_I3C_SADDR 0 = sa.toNat → sa ≠ 0 → ∃ t, exec (.setdasa sa da) s = .next t ∧ t.i3cAddr = da.toNat ∧ t.mem = s.mem)) ∧
      (s.i3cAddr ≠ 0 → da ≠ 0 → ∃ t, exec (.setnewda da) s = .next t ∧ t.i3cAddr = da.toNat ∧ t.mem = s.mem) ∧
      (∃ t, exec .rstdaa s = .next t ∧ t.i3cAddr = 0 ∧ t.mem = s.mem) ∧
      (∃ t, exec .enec s = .next t ∧ t.host.events = true ∧ t = { s with host := t.host }) ∧
      (∃ t, exec .disec s = .next t ∧ t.host.events = false ∧ t = { s with host := t.host }) ∧
      (s.i3cAddr ≠ 0 → exec .getpid s = .next (s.i3cSend s.i3cPid) ∧ exec .getbcr s = .next (s.i3cSend [0x06]) ∧ exec .getdcr s = .next (s.i3cSend [0x00]) ∧
        exec .getmwl s = .next (s.i3cSend [0x01, 0x0C]) ∧ exec .getmrl s = .next (s.i3cSend [0x01, 0x03, 0x01]) ∧
        ∃ t, exec .getstatus s = .next t ∧ t.host.i3cOut.length = 2 ∧ t.mem = s.mem) ∧
      (cccs.contains code.toNat = false → exec (.i3cOtherCcc code) s = .next s.i3cNack)) ∧
    (s.hostOn = true →
      (∃ t, exec .bypass s = .next t ∧ t.host.tapIr = 0 ∧ t.mem = s.mem) ∧
      (∃ t, exec .idcode s = .next t ∧ t.host.tapIr = 1 ∧ t.host.tapOut % 2 ^ 28 = 0xA03296F ∧ t.mem = s.mem) ∧
      (∃ t, exec (.samplePreload n) s = .next t ∧ t.host.tapIr = 2 ∧ t.host.cells = n ∧ t.mem = s.mem) ∧
      (s.dev ≠ .run → (∃ t, exec (.extest n) s = .next t ∧ t.host.tapIr = 3 ∧ t.host.cells = n ∧ ∀ k, t.outActive k = false) ∧
        ∃ t, exec .clamp s = .next t ∧ t.host.tapIr = 4 ∧ ∀ k, t.outActive k = false) ∧
      (s.dev = .run → ∀ i ∈ [Instr.extest n, .clamp], ∃ t, exec i s = .next t ∧ t.host.tapIr = 0 ∧ t.fld 0x10 F.HOST_DBG_REFUSED 0 = 1) ∧
      (s.fld 0x10 F.HOST_DBG_EN 0 = 1 → s.windowEnds = false → ∃ t, exec (.debug addr op) s = .next t ∧ t.host.tapIr = 5 ∧
        t.host.tapOut = leNat (s.hostAsk .jtag addr op).data))

/-- O60. The field interfaces, of a domain that serves (18_host_field_interfaces.md): CAN, Ethernet, the xSPI store, the SPI controllers and the
UART. -/
def Obligations.FieldInterfaceCommands : Prop :=
  ∀ (c k : Fin 4) (m : Fin 2) (f : CanFrame) (t0 v : U64) (who : Requester) (fr : List Byte) (rd : BitVec 16) (a : Addr)
      (b : Byte) (p1 p2 : Bool) (s : State), s.io = true →
    (s.canOn c = true →
      (f.fdf = false → exec (.canReceive c f true t0) s = .next ((s.canTake c f t0).canRxOk c)) ∧
      exec (.canReceive c f false t0) s = .next ((s.canSpoiled c f).canRxErr c)) ∧
    (∀ x res, s.canOffer c = some x → s.mayEnd c = true → s.canSends c = true →
      exec (.canTransmit c res) s = .next ((s.tailDone c).canSent c x res)) ∧
    (s.fld 0x11 F.CAN_CFG_EN c = 1 → s.fld 0x11 F.CAN_CFG_AUTO_RECOVER c = 1 → s.fld 0x11 F.CAN_STAT_STATE c = 2 →
      exec (.canBusoffRecovery c) s = .next (s.canRejoin c)) ∧
    exec (.canEnWrite who c v) s = .next (s.canCfg who c v) ∧
    (s.fld 0x11 F.ETH_CFG_EN m = 1 → exec (.ethReceive m fr p1 t0) s = .next (((s.tailDone (4 + m)).ethUp m).ethTake m fr p1 t0) ∧
      ∃ t, exec (.ethLinkDown m) s = .next t ∧ nbit (t.faults 0x11) 3 = true ∧ t.fld 0x11 F.ETH_STAT_LINK_UP m = 0 ∧ t.mem = s.mem) ∧
    exec (.ethKick who m) s = .next (s.ethKick m) ∧
    (m.val ∈ s.field.sending → s.ioRuns = true → exec (.ethTransmitDone ⟨m, t0⟩) s = .next ((s.ethUp m).ethSent m t0)) ∧
    exec (.ethMdio who m v rd) s = .next (s.ethMdio m v rd.toNat) ∧
    (s.fld 0x11 F.XSPI_CMD0_OP 0 = 1 → exec (.xspiRead who a) s = .next (s.xspiIssue 1 a.toNat)) ∧
    (s.fld 0x11 F.XSPI_CMD0_OP 0 = 2 → exec (.xspiProgram who a) s = .next (s.xspiIssue 2 a.toNat)) ∧
    (s.fld 0x11 F.XSPI_CMD0_OP 0 = 3 → exec (.xspiErase4k who) s = .next (s.xspiIssue 3 0)) ∧
    (s.fld 0x11 F.XSPI_CMD0_OP 0 = 4 → exec (.xspiErase64k who) s = .next (s.xspiIssue 4 0)) ∧
    (∀ o rest, s.field.xspi = o :: rest → s.xspiReady o = true → exec (.xspiOpDone p1) s = .next (s.xspiDone o p1)) ∧
    (∀ g, s.hm.granted = some g → g.user = .pilot ∨ g.user = .wharfinger → exec (.xspiOpDone p1) s = .next (s.segDone g p1)) ∧
    (k.val ∈ s.field.armed → (s.reg 0x11 .SPIC_TRIG k).toNat ≤ s.tide.toNat → exec (.spicStart k) s = .next (s.spicBegin k)) ∧
    (s.ioRuns = true → s.fld 0x11 F.SPIC_STAT_BUSY k = 1 → fr.length = s.spicLen k → exec (.spicDone k fr) s = .next (s.spicStore k fr)) ∧
    exec (.uartTransmit who b) s = .next (s.uartSend b) ∧ exec (.uartReceive b p1 p2) s = .next (s.uartTake b p1 p2)
end

