-- ==== Sys2Proof/Laws/Tab.lean ====
section
/-! SUPPORT. Laws of sparse tables: what a read gives after a write, and that writes keep the canonical form. -/

namespace Sys2Proof.Machine

variable {α : Type}

theorem Tab.find_put_same (t : Tab α) (k : Nat) (v : α) : Tab.find (Tab.put t k v) k = some v := by
  induction t with
  | nil => simp [Tab.put, Tab.find]
  | cons c t ih =>
    obtain ⟨j, w⟩ := c
    by_cases h : k < j
    · simp [Tab.put, Tab.find, h]
    · by_cases h' : j = k
      · subst h'; simp [Tab.put, Tab.find]
      · simp [Tab.put, Tab.find, h, h', ih]

theorem Tab.find_put_other (t : Tab α) (k i : Nat) (v : α) (hi : i ≠ k) : Tab.find (Tab.put t k v) i = Tab.find t i := by
  have hk : ¬ k = i := fun e => hi e.symm
  induction t with
  | nil => simp [Tab.put, Tab.find, hk]
  | cons c t ih =>
    obtain ⟨j, w⟩ := c
    by_cases h : k < j
    · simp [Tab.put, Tab.find, h, hk]
    · by_cases h' : j = k
      · subst h'; simp [Tab.put, Tab.find, hk]
      · simp [Tab.put, Tab.find, h, h', ih]

theorem Tab.find_none_of_above (t : Tab α) (b k : Nat) (h : Tab.above b t = true) (hk : k ≤ b) : Tab.find t k = none := by
  induction t generalizing b with
  | nil => rfl
  | cons c t ih =>
    obtain ⟨j, w⟩ := c
    simp only [Tab.above, Bool.and_eq_true, decide_eq_true_eq] at h
    have hj : ¬ j = k := by omega
    simp only [Tab.find, hj, if_false]
    exact ih j h.2 (by omega)

theorem Tab.above_weaken (t : Tab α) (b c : Nat) (h : Tab.above c t = true) (hb : b ≤ c) : Tab.above b t = true := by
  cases t with
  | nil => rfl
  | cons x t =>
    obtain ⟨j, w⟩ := x
    simp only [Tab.above, Bool.and_eq_true, decide_eq_true_eq] at h ⊢
    exact ⟨by omega, h.2⟩

theorem Tab.sorted_of_above (t : Tab α) (b : Nat) (h : Tab.above b t = true) : Tab.sorted t = true := by
  cases t with
  | nil => rfl
  | cons x t =>
    obtain ⟨j, w⟩ := x
    simp only [Tab.above, Bool.and_eq_true] at h
    exact h.2

theorem Tab.above_put (t : Tab α) (b k : Nat) (v : α) (h : Tab.above b t = true) (hk : b < k) :
    Tab.above b (Tab.put t k v) = true := by
  induction t generalizing b with
  | nil => simp [Tab.put, Tab.above, hk]
  | cons c t ih =>
    obtain ⟨j, w⟩ := c
    simp only [Tab.above, Bool.and_eq_true, decide_eq_true_eq] at h
    by_cases h1 : k < j
    · simp [Tab.put, h1, Tab.above, hk, h.2]
    · by_cases h2 : j = k
      · subst h2; simp [Tab.put, Tab.above, h.1, h.2]
      · simp only [Tab.put, h1, h2, if_false, Tab.above, Bool.and_eq_true, decide_eq_true_eq]
        exact ⟨h.1, ih j h.2 (by omega)⟩

theorem Tab.sorted_put (t : Tab α) (k : Nat) (v : α) (h : Tab.sorted t = true) : Tab.sorted (Tab.put t k v) = true := by
  cases t with
  | nil => rfl
  | cons c t =>
    obtain ⟨j, w⟩ := c
    simp only [Tab.sorted] at h
    by_cases h1 : k < j
    · simp [Tab.put, h1, Tab.sorted, Tab.above, h]
    · by_cases h2 : j = k
      · subst h2; simpa [Tab.put, Tab.sorted] using h
      · simp only [Tab.put, h1, h2, if_false, Tab.sorted]
        exact Tab.above_put t j k v h (by omega)

theorem Tab.above_filter (t : Tab α) (p : Nat × α → Bool) (b : Nat) (h : Tab.above b t = true) :
    Tab.above b (t.filter p) = true := by
  induction t generalizing b with
  | nil => rfl
  | cons c t ih =>
    obtain ⟨j, w⟩ := c
    simp only [Tab.above, Bool.and_eq_true, decide_eq_true_eq] at h
    by_cases hp : p (j, w) = true
    · simp only [List.filter_cons, hp, if_true, Tab.above, Bool.and_eq_true, decide_eq_true_eq]
      exact ⟨h.1, ih j h.2⟩
    · simp only [List.filter_cons, hp]
      exact ih b (Tab.above_weaken t b j h.2 (by omega))

theorem Tab.sorted_filter (t : Tab α) (p : Nat × α → Bool) (h : Tab.sorted t = true) : Tab.sorted (t.filter p) = true := by
  cases t with
  | nil => rfl
  | cons c t =>
    obtain ⟨j, w⟩ := c
    simp only [Tab.sorted] at h
    by_cases hp : p (j, w) = true
    · simp only [List.filter_cons, hp, if_true, Tab.sorted]; exact Tab.above_filter t p j h
    · simp only [List.filter_cons, hp]; exact Tab.sorted_of_above _ j (Tab.above_filter t p j h)

theorem Tab.find_del_same (t : Tab α) (k : Nat) : Tab.find (Tab.del t k) k = none := by
  induction t with
  | nil => rfl
  | cons c t ih =>
    obtain ⟨j, w⟩ := c
    by_cases h : j = k
    · simpa [Tab.del, h] using ih
    · simpa [Tab.del, Tab.find, h] using ih

theorem Tab.find_del_other (t : Tab α) (k i : Nat) (hi : i ≠ k) : Tab.find (Tab.del t k) i = Tab.find t i := by
  induction t with
  | nil => rfl
  | cons c t ih =>
    obtain ⟨j, w⟩ := c
    by_cases h : j = k
    · subst h; simpa [Tab.del, Tab.find, Ne.symm hi] using ih
    · by_cases h' : j = i
      · simp [Tab.del, Tab.find, h', hi]
      · simpa [Tab.del, Tab.find, h, h'] using ih

/-- A read of the key that was written. -/
@[simp] theorem Tab.get_set_same [DecidableEq α] (d : α) (t : Tab α) (k : Nat) (v : α) :
    Tab.get d (Tab.set d t k v) k = v := by
  by_cases hv : v = d
  · simp [Tab.get, Tab.set, hv, Tab.find_del_same t k]
  · simp [Tab.get, Tab.set, hv, Tab.find_put_same]

/-- A read of another key. -/
theorem Tab.get_set_other [DecidableEq α] (d e : α) (t : Tab α) (k i : Nat) (v : α) (hi : i ≠ k) :
    Tab.get e (Tab.set d t k v) i = Tab.get e t i := by
  by_cases hv : v = d
  · simp [Tab.get, Tab.set, hv, Tab.find_del_other t k i hi]
  · simp [Tab.get, Tab.set, hv, Tab.find_put_other t k i v hi]

/-- The second of two writes of a key is the one that counts, where the first has listed it. -/
theorem Tab.put_put (t : Tab α) (k : Nat) (v w : α) : Tab.put (Tab.put t k v) k w = Tab.put t k w := by
  induction t with
  | nil => simp [Tab.put]
  | cons c t ih =>
    obtain ⟨j, x⟩ := c
    by_cases h : k < j
    · simp [Tab.put, h]
    · by_cases h' : j = k
      · subst h'; simp [Tab.put]
      · simp [Tab.put, h, h', ih]

theorem Tab.del_put (t : Tab α) (k : Nat) (v : α) : Tab.del (Tab.put t k v) k = Tab.del t k := by
  induction t with
  | nil => simp [Tab.put, Tab.del]
  | cons c t ih =>
    obtain ⟨j, x⟩ := c
    by_cases h : k < j
    · simp [Tab.put, h, Tab.del]
    · by_cases h' : j = k
      · subst h'; simp [Tab.put, Tab.del]
      · simp only [Tab.put, h, h', if_false]
        simp only [Tab.del, List.filter_cons] at ih ⊢
        simp [h', ih]

theorem Tab.set_set [DecidableEq α] (d : α) (t : Tab α) (k : Nat) (v w : α) (hv : v ≠ d) :
    Tab.set d (Tab.set d t k v) k w = Tab.set d t k w := by
  by_cases hw : w = d
  · simp [Tab.set, hv, hw, Tab.del_put]
  · simp [Tab.set, hv, hw, Tab.put_put]

theorem Tab.get_del_same (d : α) (t : Tab α) (k : Nat) : Tab.get d (Tab.del t k) k = d := by
  simp [Tab.get, Tab.find_del_same]

theorem Tab.get_del_other (d : α) (t : Tab α) (k i : Nat) (hi : i ≠ k) : Tab.get d (Tab.del t k) i = Tab.get d t i := by
  simp [Tab.get, Tab.find_del_other t k i hi]

theorem Tab.mem_put (t : Tab α) (k : Nat) (v : α) (c : Nat × α) (h : c ∈ Tab.put t k v) : c = (k, v) ∨ c ∈ t := by
  induction t with
  | nil => simpa [Tab.put] using h
  | cons x t ih =>
    obtain ⟨j, w⟩ := x
    by_cases h1 : k < j
    · simpa [Tab.put, h1] using h
    · by_cases h2 : j = k
      · subst h2
        simp only [Tab.put, h1, if_false, if_true, List.mem_cons] at h ⊢
        tauto
      · simp only [Tab.put, h1, h2, if_false, List.mem_cons] at h ⊢
        rcases h with h | h
        · tauto
        · rcases ih h with h | h <;> tauto

/-- A write keeps the canonical form. -/
theorem Tab.wf_set [DecidableEq α] (d : α) (t : Tab α) (k : Nat) (v : α) (h : Tab.wf d t = true) :
    Tab.wf d (Tab.set d t k v) = true := by
  simp only [Tab.wf, Bool.and_eq_true, List.all_eq_true, decide_eq_true_eq] at h ⊢
  by_cases hv : v = d
  · simp only [Tab.set, hv, if_true]
    exact ⟨Tab.sorted_filter t _ h.1, fun c hc => h.2 c (List.mem_of_mem_filter hc)⟩
  · simp only [Tab.set, hv, if_false]
    refine ⟨Tab.sorted_put t k v h.1, fun c hc => ?_⟩
    rcases Tab.mem_put t k v c hc with rfl | hc
    · exact hv
    · exact h.2 c hc

/-- Removing keys keeps the canonical form. -/
theorem Tab.wf_drop [DecidableEq α] (d : α) (t : Tab α) (p : Nat → Bool) (h : Tab.wf d t = true) :
    Tab.wf d (Tab.drop t p) = true := by
  simp only [Tab.wf, Bool.and_eq_true, List.all_eq_true, decide_eq_true_eq] at h ⊢
  exact ⟨Tab.sorted_filter t _ h.1, fun c hc => h.2 c (List.mem_of_mem_filter hc)⟩

end Sys2Proof.Machine
end

