-- ==== Sys2Proof/Laws/State.lean ====
section
/-! SUPPORT. What each update of the state leaves unchanged, field by field, and what reads give after it. -/

namespace Sys2Proof.Machine

/-! ## Read after write -/

@[simp] theorem State.reg_setReg_same (s : State) (slot : Nat) (r : Reg) (i : Nat) (v : U64) :
    (s.setReg slot r i v).reg slot r i = v := Tab.get_set_same _ _ _ _

theorem State.reg_setReg_other (s : State) (slot slot' : Nat) (r r' : Reg) (i i' : Nat) (v : U64)
    (h : regKey slot' r' i' ≠ regKey slot r i) : (s.setReg slot r i v).reg slot' r' i' = s.reg slot' r' i' :=
  Tab.get_set_other _ _ _ _ _ _ h

@[simp] theorem State.reg_clearReg_same (s : State) (slot : Nat) (r : Reg) (i : Nat) :
    (s.clearReg slot r i).reg slot r i = resetVal slot r := Tab.get_del_same _ _ _

@[simp] theorem State.hdr_setHdr_same (s : State) (k : Nat) (h : Hdr) : (s.setHdr k h).hdr k = h := Tab.get_set_same _ _ _ _
@[simp] theorem State.dom_setDom_same (s : State) (k : Nat) (x : Dom) : (s.setDom k x).dom k = x := Tab.get_set_same _ _ _ _
@[simp] theorem State.berth_setBerth_same (s : State) (k : Nat) (x : Berth) : (s.setBerth k x).berth k = x :=
  Tab.get_set_same _ _ _ _
@[simp] theorem State.lh_setLh_same (s : State) (k : Nat) (x : Lh) : (s.setLh k x).lh k = x := Tab.get_set_same _ _ _ _
@[simp] theorem State.stream_setStream_same (s : State) (k : Nat) (x : Stream) : (s.setStream k x).stream k = x :=
  Tab.get_set_same _ _ _ _
@[simp] theorem State.byte_putByte_same (s : State) (a : Nat) (b : Byte) : (s.putByte a b).byte a = b := Tab.get_set_same _ _ _ _

theorem State.berth_setBerth_other (s : State) (k j : Nat) (x : Berth) (h : j ≠ k) : (s.setBerth k x).berth j = s.berth j :=
  Tab.get_set_other _ _ _ _ _ _ h
theorem State.dom_setDom_other (s : State) (k j : Nat) (x : Dom) (h : j ≠ k) : (s.setDom k x).dom j = s.dom j :=
  Tab.get_set_other _ _ _ _ _ _ h
theorem State.byte_putByte_other (s : State) (a i : Nat) (b : Byte) (h : i ≠ a) : (s.putByte a b).byte i = s.byte i :=
  Tab.get_set_other _ _ _ _ _ _ h

/-- Of two updates of a Berth the second counts. -/
theorem State.setBerth_setBerth (s : State) (n : Nat) (b c : Berth) (h : b ≠ {}) : (s.setBerth n b).setBerth n c = s.setBerth n c := by
  unfold State.setBerth
  congr 1
  exact Tab.set_set _ _ _ _ _ h

/-! ## Memory keeps its canonical form -/

theorem State.memory_putByte (s : State) (a : Nat) (b : Byte) (h : Tab.wf 0 s.mem = true) :
    Tab.wf 0 (s.putByte a b).mem = true := Tab.wf_set _ _ _ _ h

theorem State.memory_putBytes (s : State) (a : Nat) (d : List Byte) (h : Tab.wf 0 s.mem = true) :
    Tab.wf 0 (s.putBytes a d).mem = true := by
  induction d generalizing s a with
  | nil => exact h
  | cons b d ih => exact ih _ _ (State.memory_putByte s a b h)

theorem State.memory_putNum (s : State) (a n x : Nat) (h : Tab.wf 0 s.mem = true) : Tab.wf 0 (s.putNum a n x).mem = true :=
  State.memory_putBytes s a _ h

theorem State.memory_wipe (s : State) (lo hi : Nat) (h : Tab.wf 0 s.mem = true) : Tab.wf 0 (s.wipe lo hi).mem = true := by
  exact Tab.wf_drop 0 s.mem (fun a => decide (lo ≤ a) && decide (a < hi)) h

/-- A byte outside the written range. -/
theorem State.byte_putBytes_other (s : State) (a i : Nat) (d : List Byte) (h : i < a ∨ a + d.length ≤ i) :
    (s.putBytes a d).byte i = s.byte i := by
  induction d generalizing s a with
  | nil => rfl
  | cons b d ih =>
    simp only [List.length_cons] at h
    rw [State.putBytes, ih (s.putByte a b) (a + 1) (by omega), State.byte_putByte_other s a i b (by omega)]

/-- The written bytes read back. -/
theorem State.bytes_putBytes (s : State) (a : Nat) (d : List Byte) : (s.putBytes a d).bytes a d.length = d := by
  induction d generalizing s a with
  | nil => rfl
  | cons b d ih =>
    simp only [List.length_cons, State.bytes, State.putBytes]
    rw [ih, State.byte_putBytes_other _ (a + 1) a d (by omega), State.byte_putByte_same]

/-! ## What an update leaves unchanged -/

@[simp] theorem State.setReg_pending (s : State) (slot : Nat) (r : Reg) (i : Nat) (v : U64) : (s.setReg slot r i v).pending = s.pending := rfl
@[simp] theorem State.setReg_dev (s : State) (slot : Nat) (r : Reg) (i : Nat) (v : U64) : (s.setReg slot r i v).dev = s.dev := rfl
@[simp] theorem State.setReg_clk (s : State) (slot : Nat) (r : Reg) (i : Nat) (v : U64) : (s.setReg slot r i v).clk = s.clk := rfl
@[simp] theorem State.setReg_pins (s : State) (slot : Nat) (r : Reg) (i : Nat) (v : U64) : (s.setReg slot r i v).pins = s.pins := rfl
@[simp] theorem State.setReg_hdrs (s : State) (slot : Nat) (r : Reg) (i : Nat) (v : U64) : (s.setReg slot r i v).hdrs = s.hdrs := rfl
@[simp] theorem State.setReg_doms (s : State) (slot : Nat) (r : Reg) (i : Nat) (v : U64) : (s.setReg slot r i v).doms = s.doms := rfl
@[simp] theorem State.setReg_hm (s : State) (slot : Nat) (r : Reg) (i : Nat) (v : U64) : (s.setReg slot r i v).hm = s.hm := rfl
@[simp] theorem State.setReg_log (s : State) (slot : Nat) (r : Reg) (i : Nat) (v : U64) : (s.setReg slot r i v).log = s.log := rfl
@[simp] theorem State.setReg_lhs (s : State) (slot : Nat) (r : Reg) (i : Nat) (v : U64) : (s.setReg slot r i v).lhs = s.lhs := rfl
@[simp] theorem State.setReg_berths (s : State) (slot : Nat) (r : Reg) (i : Nat) (v : U64) : (s.setReg slot r i v).berths = s.berths := rfl
@[simp] theorem State.setReg_mem (s : State) (slot : Nat) (r : Reg) (i : Nat) (v : U64) : (s.setReg slot r i v).mem = s.mem := rfl
@[simp] theorem State.setReg_ecc (s : State) (slot : Nat) (r : Reg) (i : Nat) (v : U64) : (s.setReg slot r i v).ecc = s.ecc := rfl
@[simp] theorem State.setReg_streams (s : State) (slot : Nat) (r : Reg) (i : Nat) (v : U64) : (s.setReg slot r i v).streams = s.streams := rfl
@[simp] theorem State.setReg_resps (s : State) (slot : Nat) (r : Reg) (i : Nat) (v : U64) : (s.setReg slot r i v).resps = s.resps := rfl
@[simp] theorem State.setReg_credits (s : State) (slot : Nat) (r : Reg) (i : Nat) (v : U64) : (s.setReg slot r i v).credits = s.credits := rfl
@[simp] theorem State.setReg_net (s : State) (slot : Nat) (r : Reg) (i : Nat) (v : U64) : (s.setReg slot r i v).net = s.net := rfl
@[simp] theorem State.setReg_stale (s : State) (slot : Nat) (r : Reg) (i : Nat) (v : U64) : (s.setReg slot r i v).stale = s.stale := rfl
@[simp] theorem State.setReg_blockQ (s : State) (slot : Nat) (r : Reg) (i : Nat) (v : U64) : (s.setReg slot r i v).blockQ = s.blockQ := rfl
@[simp] theorem State.setReg_unitSeq (s : State) (slot : Nat) (r : Reg) (i : Nat) (v : U64) : (s.setReg slot r i v).unitSeq = s.unitSeq := rfl
@[simp] theorem State.setReg_msix (s : State) (slot : Nat) (r : Reg) (i : Nat) (v : U64) : (s.setReg slot r i v).msix = s.msix := rfl
@[simp] theorem State.setReg_chartOn (s : State) (slot : Nat) (r : Reg) (i : Nat) (v : U64) : (s.setReg slot r i v).chartOn = s.chartOn := rfl
@[simp] theorem State.setReg_reactDone (s : State) (slot : Nat) (r : Reg) (i : Nat) (v : U64) : (s.setReg slot r i v).reactDone = s.reactDone := rfl
@[simp] theorem State.setReg_person (s : State) (slot : Nat) (r : Reg) (i : Nat) (v : U64) : (s.setReg slot r i v).person = s.person := rfl
@[simp] theorem State.setReg_host (s : State) (slot : Nat) (r : Reg) (i : Nat) (v : U64) : (s.setReg slot r i v).host = s.host := rfl
@[simp] theorem State.setReg_field (s : State) (slot : Nat) (r : Reg) (i : Nat) (v : U64) : (s.setReg slot r i v).field = s.field := rfl
@[simp] theorem State.setReg_sfdp (s : State) (slot : Nat) (r : Reg) (i : Nat) (v : U64) : (s.setReg slot r i v).sfdp = s.sfdp := rfl
@[simp] theorem State.setReg_cgOut (s : State) (slot : Nat) (r : Reg) (i : Nat) (v : U64) : (s.setReg slot r i v).cgOut = s.cgOut := rfl
@[simp] theorem State.setReg_fsyncDone (s : State) (slot : Nat) (r : Reg) (i : Nat) (v : U64) : (s.setReg slot r i v).fsyncDone = s.fsyncDone := rfl
@[simp] theorem State.setReg_fsyncEnd (s : State) (slot : Nat) (r : Reg) (i : Nat) (v : U64) : (s.setReg slot r i v).fsyncEnd = s.fsyncEnd := rfl
@[simp] theorem State.setReg_stamps (s : State) (slot : Nat) (r : Reg) (i : Nat) (v : U64) : (s.setReg slot r i v).stamps = s.stamps := rfl
@[simp] theorem State.setReg_flash (s : State) (slot : Nat) (r : Reg) (i : Nat) (v : U64) : (s.setReg slot r i v).flash = s.flash := rfl
@[simp] theorem State.setReg_wharf (s : State) (slot : Nat) (r : Reg) (i : Nat) (v : U64) : (s.setReg slot r i v).wharf = s.wharf := rfl
@[simp] theorem State.setReg_drg (s : State) (slot : Nat) (r : Reg) (i : Nat) (v : U64) : (s.setReg slot r i v).drg = s.drg := rfl
@[simp] theorem State.setReg_mesh (s : State) (slot : Nat) (r : Reg) (i : Nat) (v : U64) : (s.setReg slot r i v).mesh = s.mesh := rfl
@[simp] theorem State.setReg_lt (s : State) (slot : Nat) (r : Reg) (i : Nat) (v : U64) : (s.setReg slot r i v).lt = s.lt := rfl
@[simp] theorem State.setReg_pilot (s : State) (slot : Nat) (r : Reg) (i : Nat) (v : U64) : (s.setReg slot r i v).pilot = s.pilot := rfl
@[simp] theorem State.setReg_scrubAt (s : State) (slot : Nat) (r : Reg) (i : Nat) (v : U64) : (s.setReg slot r i v).scrubAt = s.scrubAt := rfl
@[simp] theorem State.setReg_scrubLine (s : State) (slot : Nat) (r : Reg) (i : Nat) (v : U64) : (s.setReg slot r i v).scrubLine = s.scrubLine := rfl
@[simp] theorem State.setReg_fresh (s : State) (slot : Nat) (r : Reg) (i : Nat) (v : U64) : (s.setReg slot r i v).fresh = s.fresh := rfl

@[simp] theorem State.clearReg_pending (s : State) (slot : Nat) (r : Reg) (i : Nat) : (s.clearReg slot r i).pending = s.pending := rfl
@[simp] theorem State.clearReg_dev (s : State) (slot : Nat) (r : Reg) (i : Nat) : (s.clearReg slot r i).dev = s.dev := rfl
@[simp] theorem State.clearReg_clk (s : State) (slot : Nat) (r : Reg) (i : Nat) : (s.clearReg slot r i).clk = s.clk := rfl
@[simp] theorem State.clearReg_pins (s : State) (slot : Nat) (r : Reg) (i : Nat) : (s.clearReg slot r i).pins = s.pins := rfl
@[simp] theorem State.clearReg_hdrs (s : State) (slot : Nat) (r : Reg) (i : Nat) : (s.clearReg slot r i).hdrs = s.hdrs := rfl
@[simp] theorem State.clearReg_doms (s : State) (slot : Nat) (r : Reg) (i : Nat) : (s.clearReg slot r i).doms = s.doms := rfl
@[simp] theorem State.clearReg_hm (s : State) (slot : Nat) (r : Reg) (i : Nat) : (s.clearReg slot r i).hm = s.hm := rfl
@[simp] theorem State.clearReg_log (s : State) (slot : Nat) (r : Reg) (i : Nat) : (s.clearReg slot r i).log = s.log := rfl
@[simp] theorem State.clearReg_lhs (s : State) (slot : Nat) (r : Reg) (i : Nat) : (s.clearReg slot r i).lhs = s.lhs := rfl
@[simp] theorem State.clearReg_berths (s : State) (slot : Nat) (r : Reg) (i : Nat) : (s.clearReg slot r i).berths = s.berths := rfl
@[simp] theorem State.clearReg_mem (s : State) (slot : Nat) (r : Reg) (i : Nat) : (s.clearReg slot r i).mem = s.mem := rfl
@[simp] theorem State.clearReg_ecc (s : State) (slot : Nat) (r : Reg) (i : Nat) : (s.clearReg slot r i).ecc = s.ecc := rfl
@[simp] theorem State.clearReg_streams (s : State) (slot : Nat) (r : Reg) (i : Nat) : (s.clearReg slot r i).streams = s.streams := rfl
@[simp] theorem State.clearReg_resps (s : State) (slot : Nat) (r : Reg) (i : Nat) : (s.clearReg slot r i).resps = s.resps := rfl
@[simp] theorem State.clearReg_credits (s : State) (slot : Nat) (r : Reg) (i : Nat) : (s.clearReg slot r i).credits = s.credits := rfl
@[simp] theorem State.clearReg_net (s : State) (slot : Nat) (r : Reg) (i : Nat) : (s.clearReg slot r i).net = s.net := rfl
@[simp] theorem State.clearReg_stale (s : State) (slot : Nat) (r : Reg) (i : Nat) : (s.clearReg slot r i).stale = s.stale := rfl
@[simp] theorem State.clearReg_blockQ (s : State) (slot : Nat) (r : Reg) (i : Nat) : (s.clearReg slot r i).blockQ = s.blockQ := rfl
@[simp] theorem State.clearReg_unitSeq (s : State) (slot : Nat) (r : Reg) (i : Nat) : (s.clearReg slot r i).unitSeq = s.unitSeq := rfl
@[simp] theorem State.clearReg_msix (s : State) (slot : Nat) (r : Reg) (i : Nat) : (s.clearReg slot r i).msix = s.msix := rfl
@[simp] theorem State.clearReg_chartOn (s : State) (slot : Nat) (r : Reg) (i : Nat) : (s.clearReg slot r i).chartOn = s.chartOn := rfl
@[simp] theorem State.clearReg_reactDone (s : State) (slot : Nat) (r : Reg) (i : Nat) : (s.clearReg slot r i).reactDone = s.reactDone := rfl
@[simp] theorem State.clearReg_person (s : State) (slot : Nat) (r : Reg) (i : Nat) : (s.clearReg slot r i).person = s.person := rfl
@[simp] theorem State.clearReg_host (s : State) (slot : Nat) (r : Reg) (i : Nat) : (s.clearReg slot r i).host = s.host := rfl
@[simp] theorem State.clearReg_field (s : State) (slot : Nat) (r : Reg) (i : Nat) : (s.clearReg slot r i).field = s.field := rfl
@[simp] theorem State.clearReg_sfdp (s : State) (slot : Nat) (r : Reg) (i : Nat) : (s.clearReg slot r i).sfdp = s.sfdp := rfl
@[simp] theorem State.clearReg_cgOut (s : State) (slot : Nat) (r : Reg) (i : Nat) : (s.clearReg slot r i).cgOut = s.cgOut := rfl
@[simp] theorem State.clearReg_fsyncDone (s : State) (slot : Nat) (r : Reg) (i : Nat) : (s.clearReg slot r i).fsyncDone = s.fsyncDone := rfl
@[simp] theorem State.clearReg_fsyncEnd (s : State) (slot : Nat) (r : Reg) (i : Nat) : (s.clearReg slot r i).fsyncEnd = s.fsyncEnd := rfl
@[simp] theorem State.clearReg_stamps (s : State) (slot : Nat) (r : Reg) (i : Nat) : (s.clearReg slot r i).stamps = s.stamps := rfl
@[simp] theorem State.clearReg_flash (s : State) (slot : Nat) (r : Reg) (i : Nat) : (s.clearReg slot r i).flash = s.flash := rfl
@[simp] theorem State.clearReg_wharf (s : State) (slot : Nat) (r : Reg) (i : Nat) : (s.clearReg slot r i).wharf = s.wharf := rfl
@[simp] theorem State.clearReg_drg (s : State) (slot : Nat) (r : Reg) (i : Nat) : (s.clearReg slot r i).drg = s.drg := rfl
@[simp] theorem State.clearReg_mesh (s : State) (slot : Nat) (r : Reg) (i : Nat) : (s.clearReg slot r i).mesh = s.mesh := rfl
@[simp] theorem State.clearReg_lt (s : State) (slot : Nat) (r : Reg) (i : Nat) : (s.clearReg slot r i).lt = s.lt := rfl
@[simp] theorem State.clearReg_pilot (s : State) (slot : Nat) (r : Reg) (i : Nat) : (s.clearReg slot r i).pilot = s.pilot := rfl
@[simp] theorem State.clearReg_scrubAt (s : State) (slot : Nat) (r : Reg) (i : Nat) : (s.clearReg slot r i).scrubAt = s.scrubAt := rfl
@[simp] theorem State.clearReg_scrubLine (s : State) (slot : Nat) (r : Reg) (i : Nat) : (s.clearReg slot r i).scrubLine = s.scrubLine := rfl
@[simp] theorem State.clearReg_fresh (s : State) (slot : Nat) (r : Reg) (i : Nat) : (s.clearReg slot r i).fresh = s.fresh := rfl

@[simp] theorem State.setFld_pending (s : State) (slot : Nat) (f : Fld) (i x : Nat) : (s.setFld slot f i x).pending = s.pending := rfl
@[simp] theorem State.setFld_dev (s : State) (slot : Nat) (f : Fld) (i x : Nat) : (s.setFld slot f i x).dev = s.dev := rfl
@[simp] theorem State.setFld_clk (s : State) (slot : Nat) (f : Fld) (i x : Nat) : (s.setFld slot f i x).clk = s.clk := rfl
@[simp] theorem State.setFld_pins (s : State) (slot : Nat) (f : Fld) (i x : Nat) : (s.setFld slot f i x).pins = s.pins := rfl
@[simp] theorem State.setFld_hdrs (s : State) (slot : Nat) (f : Fld) (i x : Nat) : (s.setFld slot f i x).hdrs = s.hdrs := rfl
@[simp] theorem State.setFld_doms (s : State) (slot : Nat) (f : Fld) (i x : Nat) : (s.setFld slot f i x).doms = s.doms := rfl
@[simp] theorem State.setFld_hm (s : State) (slot : Nat) (f : Fld) (i x : Nat) : (s.setFld slot f i x).hm = s.hm := rfl
@[simp] theorem State.setFld_log (s : State) (slot : Nat) (f : Fld) (i x : Nat) : (s.setFld slot f i x).log = s.log := rfl
@[simp] theorem State.setFld_lhs (s : State) (slot : Nat) (f : Fld) (i x : Nat) : (s.setFld slot f i x).lhs = s.lhs := rfl
@[simp] theorem State.setFld_berths (s : State) (slot : Nat) (f : Fld) (i x : Nat) : (s.setFld slot f i x).berths = s.berths := rfl
@[simp] theorem State.setFld_mem (s : State) (slot : Nat) (f : Fld) (i x : Nat) : (s.setFld slot f i x).mem = s.mem := rfl
@[simp] theorem State.setFld_ecc (s : State) (slot : Nat) (f : Fld) (i x : Nat) : (s.setFld slot f i x).ecc = s.ecc := rfl
@[simp] theorem State.setFld_streams (s : State) (slot : Nat) (f : Fld) (i x : Nat) : (s.setFld slot f i x).streams = s.streams := rfl
@[simp] theorem State.setFld_resps (s : State) (slot : Nat) (f : Fld) (i x : Nat) : (s.setFld slot f i x).resps = s.resps := rfl
@[simp] theorem State.setFld_credits (s : State) (slot : Nat) (f : Fld) (i x : Nat) : (s.setFld slot f i x).credits = s.credits := rfl
@[simp] theorem State.setFld_net (s : State) (slot : Nat) (f : Fld) (i x : Nat) : (s.setFld slot f i x).net = s.net := rfl
@[simp] theorem State.setFld_stale (s : State) (slot : Nat) (f : Fld) (i x : Nat) : (s.setFld slot f i x).stale = s.stale := rfl
@[simp] theorem State.setFld_blockQ (s : State) (slot : Nat) (f : Fld) (i x : Nat) : (s.setFld slot f i x).blockQ = s.blockQ := rfl
@[simp] theorem State.setFld_unitSeq (s : State) (slot : Nat) (f : Fld) (i x : Nat) : (s.setFld slot f i x).unitSeq = s.unitSeq := rfl
@[simp] theorem State.setFld_msix (s : State) (slot : Nat) (f : Fld) (i x : Nat) : (s.setFld slot f i x).msix = s.msix := rfl
@[simp] theorem State.setFld_chartOn (s : State) (slot : Nat) (f : Fld) (i x : Nat) : (s.setFld slot f i x).chartOn = s.chartOn := rfl
@[simp] theorem State.setFld_reactDone (s : State) (slot : Nat) (f : Fld) (i x : Nat) : (s.setFld slot f i x).reactDone = s.reactDone := rfl
@[simp] theorem State.setFld_person (s : State) (slot : Nat) (f : Fld) (i x : Nat) : (s.setFld slot f i x).person = s.person := rfl
@[simp] theorem State.setFld_host (s : State) (slot : Nat) (f : Fld) (i x : Nat) : (s.setFld slot f i x).host = s.host := rfl
@[simp] theorem State.setFld_field (s : State) (slot : Nat) (f : Fld) (i x : Nat) : (s.setFld slot f i x).field = s.field := rfl
@[simp] theorem State.setFld_sfdp (s : State) (slot : Nat) (f : Fld) (i x : Nat) : (s.setFld slot f i x).sfdp = s.sfdp := rfl
@[simp] theorem State.setFld_cgOut (s : State) (slot : Nat) (f : Fld) (i x : Nat) : (s.setFld slot f i x).cgOut = s.cgOut := rfl
@[simp] theorem State.setFld_fsyncDone (s : State) (slot : Nat) (f : Fld) (i x : Nat) : (s.setFld slot f i x).fsyncDone = s.fsyncDone := rfl
@[simp] theorem State.setFld_fsyncEnd (s : State) (slot : Nat) (f : Fld) (i x : Nat) : (s.setFld slot f i x).fsyncEnd = s.fsyncEnd := rfl
@[simp] theorem State.setFld_stamps (s : State) (slot : Nat) (f : Fld) (i x : Nat) : (s.setFld slot f i x).stamps = s.stamps := rfl
@[simp] theorem State.setFld_flash (s : State) (slot : Nat) (f : Fld) (i x : Nat) : (s.setFld slot f i x).flash = s.flash := rfl
@[simp] theorem State.setFld_wharf (s : State) (slot : Nat) (f : Fld) (i x : Nat) : (s.setFld slot f i x).wharf = s.wharf := rfl
@[simp] theorem State.setFld_drg (s : State) (slot : Nat) (f : Fld) (i x : Nat) : (s.setFld slot f i x).drg = s.drg := rfl
@[simp] theorem State.setFld_mesh (s : State) (slot : Nat) (f : Fld) (i x : Nat) : (s.setFld slot f i x).mesh = s.mesh := rfl
@[simp] theorem State.setFld_lt (s : State) (slot : Nat) (f : Fld) (i x : Nat) : (s.setFld slot f i x).lt = s.lt := rfl
@[simp] theorem State.setFld_pilot (s : State) (slot : Nat) (f : Fld) (i x : Nat) : (s.setFld slot f i x).pilot = s.pilot := rfl
@[simp] theorem State.setFld_scrubAt (s : State) (slot : Nat) (f : Fld) (i x : Nat) : (s.setFld slot f i x).scrubAt = s.scrubAt := rfl
@[simp] theorem State.setFld_scrubLine (s : State) (slot : Nat) (f : Fld) (i x : Nat) : (s.setFld slot f i x).scrubLine = s.scrubLine := rfl
@[simp] theorem State.setFld_fresh (s : State) (slot : Nat) (f : Fld) (i x : Nat) : (s.setFld slot f i x).fresh = s.fresh := rfl

@[simp] theorem State.count_pending (s : State) (slot : Nat) (f : Fld) (i n : Nat) : (s.count slot f i n).pending = s.pending := rfl
@[simp] theorem State.count_dev (s : State) (slot : Nat) (f : Fld) (i n : Nat) : (s.count slot f i n).dev = s.dev := rfl
@[simp] theorem State.count_clk (s : State) (slot : Nat) (f : Fld) (i n : Nat) : (s.count slot f i n).clk = s.clk := rfl
@[simp] theorem State.count_pins (s : State) (slot : Nat) (f : Fld) (i n : Nat) : (s.count slot f i n).pins = s.pins := rfl
@[simp] theorem State.count_hdrs (s : State) (slot : Nat) (f : Fld) (i n : Nat) : (s.count slot f i n).hdrs = s.hdrs := rfl
@[simp] theorem State.count_doms (s : State) (slot : Nat) (f : Fld) (i n : Nat) : (s.count slot f i n).doms = s.doms := rfl
@[simp] theorem State.count_hm (s : State) (slot : Nat) (f : Fld) (i n : Nat) : (s.count slot f i n).hm = s.hm := rfl
@[simp] theorem State.count_log (s : State) (slot : Nat) (f : Fld) (i n : Nat) : (s.count slot f i n).log = s.log := rfl
@[simp] theorem State.count_lhs (s : State) (slot : Nat) (f : Fld) (i n : Nat) : (s.count slot f i n).lhs = s.lhs := rfl
@[simp] theorem State.count_berths (s : State) (slot : Nat) (f : Fld) (i n : Nat) : (s.count slot f i n).berths = s.berths := rfl
@[simp] theorem State.count_mem (s : State) (slot : Nat) (f : Fld) (i n : Nat) : (s.count slot f i n).mem = s.mem := rfl
@[simp] theorem State.count_ecc (s : State) (slot : Nat) (f : Fld) (i n : Nat) : (s.count slot f i n).ecc = s.ecc := rfl
@[simp] theorem State.count_streams (s : State) (slot : Nat) (f : Fld) (i n : Nat) : (s.count slot f i n).streams = s.streams := rfl
@[simp] theorem State.count_resps (s : State) (slot : Nat) (f : Fld) (i n : Nat) : (s.count slot f i n).resps = s.resps := rfl
@[simp] theorem State.count_credits (s : State) (slot : Nat) (f : Fld) (i n : Nat) : (s.count slot f i n).credits = s.credits := rfl
@[simp] theorem State.count_net (s : State) (slot : Nat) (f : Fld) (i n : Nat) : (s.count slot f i n).net = s.net := rfl
@[simp] theorem State.count_stale (s : State) (slot : Nat) (f : Fld) (i n : Nat) : (s.count slot f i n).stale = s.stale := rfl
@[simp] theorem State.count_blockQ (s : State) (slot : Nat) (f : Fld) (i n : Nat) : (s.count slot f i n).blockQ = s.blockQ := rfl
@[simp] theorem State.count_unitSeq (s : State) (slot : Nat) (f : Fld) (i n : Nat) : (s.count slot f i n).unitSeq = s.unitSeq := rfl
@[simp] theorem State.count_msix (s : State) (slot : Nat) (f : Fld) (i n : Nat) : (s.count slot f i n).msix = s.msix := rfl
@[simp] theorem State.count_chartOn (s : State) (slot : Nat) (f : Fld) (i n : Nat) : (s.count slot f i n).chartOn = s.chartOn := rfl
@[simp] theorem State.count_reactDone (s : State) (slot : Nat) (f : Fld) (i n : Nat) : (s.count slot f i n).reactDone = s.reactDone := rfl
@[simp] theorem State.count_person (s : State) (slot : Nat) (f : Fld) (i n : Nat) : (s.count slot f i n).person = s.person := rfl
@[simp] theorem State.count_host (s : State) (slot : Nat) (f : Fld) (i n : Nat) : (s.count slot f i n).host = s.host := rfl
@[simp] theorem State.count_field (s : State) (slot : Nat) (f : Fld) (i n : Nat) : (s.count slot f i n).field = s.field := rfl
@[simp] theorem State.count_sfdp (s : State) (slot : Nat) (f : Fld) (i n : Nat) : (s.count slot f i n).sfdp = s.sfdp := rfl
@[simp] theorem State.count_cgOut (s : State) (slot : Nat) (f : Fld) (i n : Nat) : (s.count slot f i n).cgOut = s.cgOut := rfl
@[simp] theorem State.count_fsyncDone (s : State) (slot : Nat) (f : Fld) (i n : Nat) : (s.count slot f i n).fsyncDone = s.fsyncDone := rfl
@[simp] theorem State.count_fsyncEnd (s : State) (slot : Nat) (f : Fld) (i n : Nat) : (s.count slot f i n).fsyncEnd = s.fsyncEnd := rfl
@[simp] theorem State.count_stamps (s : State) (slot : Nat) (f : Fld) (i n : Nat) : (s.count slot f i n).stamps = s.stamps := rfl
@[simp] theorem State.count_flash (s : State) (slot : Nat) (f : Fld) (i n : Nat) : (s.count slot f i n).flash = s.flash := rfl
@[simp] theorem State.count_wharf (s : State) (slot : Nat) (f : Fld) (i n : Nat) : (s.count slot f i n).wharf = s.wharf := rfl
@[simp] theorem State.count_drg (s : State) (slot : Nat) (f : Fld) (i n : Nat) : (s.count slot f i n).drg = s.drg := rfl
@[simp] theorem State.count_mesh (s : State) (slot : Nat) (f : Fld) (i n : Nat) : (s.count slot f i n).mesh = s.mesh := rfl
@[simp] theorem State.count_lt (s : State) (slot : Nat) (f : Fld) (i n : Nat) : (s.count slot f i n).lt = s.lt := rfl
@[simp] theorem State.count_pilot (s : State) (slot : Nat) (f : Fld) (i n : Nat) : (s.count slot f i n).pilot = s.pilot := rfl
@[simp] theorem State.count_scrubAt (s : State) (slot : Nat) (f : Fld) (i n : Nat) : (s.count slot f i n).scrubAt = s.scrubAt := rfl
@[simp] theorem State.count_scrubLine (s : State) (slot : Nat) (f : Fld) (i n : Nat) : (s.count slot f i n).scrubLine = s.scrubLine := rfl
@[simp] theorem State.count_fresh (s : State) (slot : Nat) (f : Fld) (i n : Nat) : (s.count slot f i n).fresh = s.fresh := rfl

@[simp] theorem State.setHdr_pending (s : State) (slot : Nat) (h : Hdr) : (s.setHdr slot h).pending = s.pending := rfl
@[simp] theorem State.setHdr_dev (s : State) (slot : Nat) (h : Hdr) : (s.setHdr slot h).dev = s.dev := rfl
@[simp] theorem State.setHdr_clk (s : State) (slot : Nat) (h : Hdr) : (s.setHdr slot h).clk = s.clk := rfl
@[simp] theorem State.setHdr_pins (s : State) (slot : Nat) (h : Hdr) : (s.setHdr slot h).pins = s.pins := rfl
@[simp] theorem State.setHdr_regs (s : State) (slot : Nat) (h : Hdr) : (s.setHdr slot h).regs = s.regs := rfl
@[simp] theorem State.setHdr_doms (s : State) (slot : Nat) (h : Hdr) : (s.setHdr slot h).doms = s.doms := rfl
@[simp] theorem State.setHdr_hm (s : State) (slot : Nat) (h : Hdr) : (s.setHdr slot h).hm = s.hm := rfl
@[simp] theorem State.setHdr_log (s : State) (slot : Nat) (h : Hdr) : (s.setHdr slot h).log = s.log := rfl
@[simp] theorem State.setHdr_lhs (s : State) (slot : Nat) (h : Hdr) : (s.setHdr slot h).lhs = s.lhs := rfl
@[simp] theorem State.setHdr_berths (s : State) (slot : Nat) (h : Hdr) : (s.setHdr slot h).berths = s.berths := rfl
@[simp] theorem State.setHdr_mem (s : State) (slot : Nat) (h : Hdr) : (s.setHdr slot h).mem = s.mem := rfl
@[simp] theorem State.setHdr_ecc (s : State) (slot : Nat) (h : Hdr) : (s.setHdr slot h).ecc = s.ecc := rfl
@[simp] theorem State.setHdr_streams (s : State) (slot : Nat) (h : Hdr) : (s.setHdr slot h).streams = s.streams := rfl
@[simp] theorem State.setHdr_resps (s : State) (slot : Nat) (h : Hdr) : (s.setHdr slot h).resps = s.resps := rfl
@[simp] theorem State.setHdr_credits (s : State) (slot : Nat) (h : Hdr) : (s.setHdr slot h).credits = s.credits := rfl
@[simp] theorem State.setHdr_net (s : State) (slot : Nat) (h : Hdr) : (s.setHdr slot h).net = s.net := rfl
@[simp] theorem State.setHdr_stale (s : State) (slot : Nat) (h : Hdr) : (s.setHdr slot h).stale = s.stale := rfl
@[simp] theorem State.setHdr_blockQ (s : State) (slot : Nat) (h : Hdr) : (s.setHdr slot h).blockQ = s.blockQ := rfl
@[simp] theorem State.setHdr_unitSeq (s : State) (slot : Nat) (h : Hdr) : (s.setHdr slot h).unitSeq = s.unitSeq := rfl
@[simp] theorem State.setHdr_msix (s : State) (slot : Nat) (h : Hdr) : (s.setHdr slot h).msix = s.msix := rfl
@[simp] theorem State.setHdr_chartOn (s : State) (slot : Nat) (h : Hdr) : (s.setHdr slot h).chartOn = s.chartOn := rfl
@[simp] theorem State.setHdr_reactDone (s : State) (slot : Nat) (h : Hdr) : (s.setHdr slot h).reactDone = s.reactDone := rfl
@[simp] theorem State.setHdr_person (s : State) (slot : Nat) (h : Hdr) : (s.setHdr slot h).person = s.person := rfl
@[simp] theorem State.setHdr_host (s : State) (slot : Nat) (h : Hdr) : (s.setHdr slot h).host = s.host := rfl
@[simp] theorem State.setHdr_field (s : State) (slot : Nat) (h : Hdr) : (s.setHdr slot h).field = s.field := rfl
@[simp] theorem State.setHdr_sfdp (s : State) (slot : Nat) (h : Hdr) : (s.setHdr slot h).sfdp = s.sfdp := rfl
@[simp] theorem State.setHdr_cgOut (s : State) (slot : Nat) (h : Hdr) : (s.setHdr slot h).cgOut = s.cgOut := rfl
@[simp] theorem State.setHdr_fsyncDone (s : State) (slot : Nat) (h : Hdr) : (s.setHdr slot h).fsyncDone = s.fsyncDone := rfl
@[simp] theorem State.setHdr_fsyncEnd (s : State) (slot : Nat) (h : Hdr) : (s.setHdr slot h).fsyncEnd = s.fsyncEnd := rfl
@[simp] theorem State.setHdr_stamps (s : State) (slot : Nat) (h : Hdr) : (s.setHdr slot h).stamps = s.stamps := rfl
@[simp] theorem State.setHdr_flash (s : State) (slot : Nat) (h : Hdr) : (s.setHdr slot h).flash = s.flash := rfl
@[simp] theorem State.setHdr_wharf (s : State) (slot : Nat) (h : Hdr) : (s.setHdr slot h).wharf = s.wharf := rfl
@[simp] theorem State.setHdr_drg (s : State) (slot : Nat) (h : Hdr) : (s.setHdr slot h).drg = s.drg := rfl
@[simp] theorem State.setHdr_mesh (s : State) (slot : Nat) (h : Hdr) : (s.setHdr slot h).mesh = s.mesh := rfl
@[simp] theorem State.setHdr_lt (s : State) (slot : Nat) (h : Hdr) : (s.setHdr slot h).lt = s.lt := rfl
@[simp] theorem State.setHdr_pilot (s : State) (slot : Nat) (h : Hdr) : (s.setHdr slot h).pilot = s.pilot := rfl
@[simp] theorem State.setHdr_scrubAt (s : State) (slot : Nat) (h : Hdr) : (s.setHdr slot h).scrubAt = s.scrubAt := rfl
@[simp] theorem State.setHdr_scrubLine (s : State) (slot : Nat) (h : Hdr) : (s.setHdr slot h).scrubLine = s.scrubLine := rfl
@[simp] theorem State.setHdr_fresh (s : State) (slot : Nat) (h : Hdr) : (s.setHdr slot h).fresh = s.fresh := rfl

@[simp] theorem State.setDom_pending (s : State) (d : Nat) (x : Dom) : (s.setDom d x).pending = s.pending := rfl
@[simp] theorem State.setDom_dev (s : State) (d : Nat) (x : Dom) : (s.setDom d x).dev = s.dev := rfl
@[simp] theorem State.setDom_clk (s : State) (d : Nat) (x : Dom) : (s.setDom d x).clk = s.clk := rfl
@[simp] theorem State.setDom_pins (s : State) (d : Nat) (x : Dom) : (s.setDom d x).pins = s.pins := rfl
@[simp] theorem State.setDom_regs (s : State) (d : Nat) (x : Dom) : (s.setDom d x).regs = s.regs := rfl
@[simp] theorem State.setDom_hdrs (s : State) (d : Nat) (x : Dom) : (s.setDom d x).hdrs = s.hdrs := rfl
@[simp] theorem State.setDom_hm (s : State) (d : Nat) (x : Dom) : (s.setDom d x).hm = s.hm := rfl
@[simp] theorem State.setDom_log (s : State) (d : Nat) (x : Dom) : (s.setDom d x).log = s.log := rfl
@[simp] theorem State.setDom_lhs (s : State) (d : Nat) (x : Dom) : (s.setDom d x).lhs = s.lhs := rfl
@[simp] theorem State.setDom_berths (s : State) (d : Nat) (x : Dom) : (s.setDom d x).berths = s.berths := rfl
@[simp] theorem State.setDom_mem (s : State) (d : Nat) (x : Dom) : (s.setDom d x).mem = s.mem := rfl
@[simp] theorem State.setDom_ecc (s : State) (d : Nat) (x : Dom) : (s.setDom d x).ecc = s.ecc := rfl
@[simp] theorem State.setDom_streams (s : State) (d : Nat) (x : Dom) : (s.setDom d x).streams = s.streams := rfl
@[simp] theorem State.setDom_resps (s : State) (d : Nat) (x : Dom) : (s.setDom d x).resps = s.resps := rfl
@[simp] theorem State.setDom_credits (s : State) (d : Nat) (x : Dom) : (s.setDom d x).credits = s.credits := rfl
@[simp] theorem State.setDom_net (s : State) (d : Nat) (x : Dom) : (s.setDom d x).net = s.net := rfl
@[simp] theorem State.setDom_stale (s : State) (d : Nat) (x : Dom) : (s.setDom d x).stale = s.stale := rfl
@[simp] theorem State.setDom_blockQ (s : State) (d : Nat) (x : Dom) : (s.setDom d x).blockQ = s.blockQ := rfl
@[simp] theorem State.setDom_unitSeq (s : State) (d : Nat) (x : Dom) : (s.setDom d x).unitSeq = s.unitSeq := rfl
@[simp] theorem State.setDom_msix (s : State) (d : Nat) (x : Dom) : (s.setDom d x).msix = s.msix := rfl
@[simp] theorem State.setDom_chartOn (s : State) (d : Nat) (x : Dom) : (s.setDom d x).chartOn = s.chartOn := rfl
@[simp] theorem State.setDom_reactDone (s : State) (d : Nat) (x : Dom) : (s.setDom d x).reactDone = s.reactDone := rfl
@[simp] theorem State.setDom_person (s : State) (d : Nat) (x : Dom) : (s.setDom d x).person = s.person := rfl
@[simp] theorem State.setDom_host (s : State) (d : Nat) (x : Dom) : (s.setDom d x).host = s.host := rfl
@[simp] theorem State.setDom_field (s : State) (d : Nat) (x : Dom) : (s.setDom d x).field = s.field := rfl
@[simp] theorem State.setDom_sfdp (s : State) (d : Nat) (x : Dom) : (s.setDom d x).sfdp = s.sfdp := rfl
@[simp] theorem State.setDom_cgOut (s : State) (d : Nat) (x : Dom) : (s.setDom d x).cgOut = s.cgOut := rfl
@[simp] theorem State.setDom_fsyncDone (s : State) (d : Nat) (x : Dom) : (s.setDom d x).fsyncDone = s.fsyncDone := rfl
@[simp] theorem State.setDom_fsyncEnd (s : State) (d : Nat) (x : Dom) : (s.setDom d x).fsyncEnd = s.fsyncEnd := rfl
@[simp] theorem State.setDom_stamps (s : State) (d : Nat) (x : Dom) : (s.setDom d x).stamps = s.stamps := rfl
@[simp] theorem State.setDom_flash (s : State) (d : Nat) (x : Dom) : (s.setDom d x).flash = s.flash := rfl
@[simp] theorem State.setDom_wharf (s : State) (d : Nat) (x : Dom) : (s.setDom d x).wharf = s.wharf := rfl
@[simp] theorem State.setDom_drg (s : State) (d : Nat) (x : Dom) : (s.setDom d x).drg = s.drg := rfl
@[simp] theorem State.setDom_mesh (s : State) (d : Nat) (x : Dom) : (s.setDom d x).mesh = s.mesh := rfl
@[simp] theorem State.setDom_lt (s : State) (d : Nat) (x : Dom) : (s.setDom d x).lt = s.lt := rfl
@[simp] theorem State.setDom_pilot (s : State) (d : Nat) (x : Dom) : (s.setDom d x).pilot = s.pilot := rfl
@[simp] theorem State.setDom_scrubAt (s : State) (d : Nat) (x : Dom) : (s.setDom d x).scrubAt = s.scrubAt := rfl
@[simp] theorem State.setDom_scrubLine (s : State) (d : Nat) (x : Dom) : (s.setDom d x).scrubLine = s.scrubLine := rfl
@[simp] theorem State.setDom_fresh (s : State) (d : Nat) (x : Dom) : (s.setDom d x).fresh = s.fresh := rfl

@[simp] theorem State.setBerth_pending (s : State) (n : Nat) (b : Berth) : (s.setBerth n b).pending = s.pending := rfl
@[simp] theorem State.setBerth_dev (s : State) (n : Nat) (b : Berth) : (s.setBerth n b).dev = s.dev := rfl
@[simp] theorem State.setBerth_clk (s : State) (n : Nat) (b : Berth) : (s.setBerth n b).clk = s.clk := rfl
@[simp] theorem State.setBerth_pins (s : State) (n : Nat) (b : Berth) : (s.setBerth n b).pins = s.pins := rfl
@[simp] theorem State.setBerth_regs (s : State) (n : Nat) (b : Berth) : (s.setBerth n b).regs = s.regs := rfl
@[simp] theorem State.setBerth_hdrs (s : State) (n : Nat) (b : Berth) : (s.setBerth n b).hdrs = s.hdrs := rfl
@[simp] theorem State.setBerth_doms (s : State) (n : Nat) (b : Berth) : (s.setBerth n b).doms = s.doms := rfl
@[simp] theorem State.setBerth_hm (s : State) (n : Nat) (b : Berth) : (s.setBerth n b).hm = s.hm := rfl
@[simp] theorem State.setBerth_log (s : State) (n : Nat) (b : Berth) : (s.setBerth n b).log = s.log := rfl
@[simp] theorem State.setBerth_lhs (s : State) (n : Nat) (b : Berth) : (s.setBerth n b).lhs = s.lhs := rfl
@[simp] theorem State.setBerth_mem (s : State) (n : Nat) (b : Berth) : (s.setBerth n b).mem = s.mem := rfl
@[simp] theorem State.setBerth_ecc (s : State) (n : Nat) (b : Berth) : (s.setBerth n b).ecc = s.ecc := rfl
@[simp] theorem State.setBerth_streams (s : State) (n : Nat) (b : Berth) : (s.setBerth n b).streams = s.streams := rfl
@[simp] theorem State.setBerth_resps (s : State) (n : Nat) (b : Berth) : (s.setBerth n b).resps = s.resps := rfl
@[simp] theorem State.setBerth_credits (s : State) (n : Nat) (b : Berth) : (s.setBerth n b).credits = s.credits := rfl
@[simp] theorem State.setBerth_net (s : State) (n : Nat) (b : Berth) : (s.setBerth n b).net = s.net := rfl
@[simp] theorem State.setBerth_stale (s : State) (n : Nat) (b : Berth) : (s.setBerth n b).stale = s.stale := rfl
@[simp] theorem State.setBerth_blockQ (s : State) (n : Nat) (b : Berth) : (s.setBerth n b).blockQ = s.blockQ := rfl
@[simp] theorem State.setBerth_unitSeq (s : State) (n : Nat) (b : Berth) : (s.setBerth n b).unitSeq = s.unitSeq := rfl
@[simp] theorem State.setBerth_msix (s : State) (n : Nat) (b : Berth) : (s.setBerth n b).msix = s.msix := rfl
@[simp] theorem State.setBerth_chartOn (s : State) (n : Nat) (b : Berth) : (s.setBerth n b).chartOn = s.chartOn := rfl
@[simp] theorem State.setBerth_reactDone (s : State) (n : Nat) (b : Berth) : (s.setBerth n b).reactDone = s.reactDone := rfl
@[simp] theorem State.setBerth_person (s : State) (n : Nat) (b : Berth) : (s.setBerth n b).person = s.person := rfl
@[simp] theorem State.setBerth_host (s : State) (n : Nat) (b : Berth) : (s.setBerth n b).host = s.host := rfl
@[simp] theorem State.setBerth_field (s : State) (n : Nat) (b : Berth) : (s.setBerth n b).field = s.field := rfl
@[simp] theorem State.setBerth_sfdp (s : State) (n : Nat) (b : Berth) : (s.setBerth n b).sfdp = s.sfdp := rfl
@[simp] theorem State.setBerth_cgOut (s : State) (n : Nat) (b : Berth) : (s.setBerth n b).cgOut = s.cgOut := rfl
@[simp] theorem State.setBerth_fsyncDone (s : State) (n : Nat) (b : Berth) : (s.setBerth n b).fsyncDone = s.fsyncDone := rfl
@[simp] theorem State.setBerth_fsyncEnd (s : State) (n : Nat) (b : Berth) : (s.setBerth n b).fsyncEnd = s.fsyncEnd := rfl
@[simp] theorem State.setBerth_stamps (s : State) (n : Nat) (b : Berth) : (s.setBerth n b).stamps = s.stamps := rfl
@[simp] theorem State.setBerth_flash (s : State) (n : Nat) (b : Berth) : (s.setBerth n b).flash = s.flash := rfl
@[simp] theorem State.setBerth_wharf (s : State) (n : Nat) (b : Berth) : (s.setBerth n b).wharf = s.wharf := rfl
@[simp] theorem State.setBerth_drg (s : State) (n : Nat) (b : Berth) : (s.setBerth n b).drg = s.drg := rfl
@[simp] theorem State.setBerth_mesh (s : State) (n : Nat) (b : Berth) : (s.setBerth n b).mesh = s.mesh := rfl
@[simp] theorem State.setBerth_lt (s : State) (n : Nat) (b : Berth) : (s.setBerth n b).lt = s.lt := rfl
@[simp] theorem State.setBerth_pilot (s : State) (n : Nat) (b : Berth) : (s.setBerth n b).pilot = s.pilot := rfl
@[simp] theorem State.setBerth_scrubAt (s : State) (n : Nat) (b : Berth) : (s.setBerth n b).scrubAt = s.scrubAt := rfl
@[simp] theorem State.setBerth_scrubLine (s : State) (n : Nat) (b : Berth) : (s.setBerth n b).scrubLine = s.scrubLine := rfl
@[simp] theorem State.setBerth_fresh (s : State) (n : Nat) (b : Berth) : (s.setBerth n b).fresh = s.fresh := rfl

@[simp] theorem State.setLh_pending (s : State) (i : Nat) (x : Lh) : (s.setLh i x).pending = s.pending := rfl
@[simp] theorem State.setLh_dev (s : State) (i : Nat) (x : Lh) : (s.setLh i x).dev = s.dev := rfl
@[simp] theorem State.setLh_clk (s : State) (i : Nat) (x : Lh) : (s.setLh i x).clk = s.clk := rfl
@[simp] theorem State.setLh_pins (s : State) (i : Nat) (x : Lh) : (s.setLh i x).pins = s.pins := rfl
@[simp] theorem State.setLh_regs (s : State) (i : Nat) (x : Lh) : (s.setLh i x).regs = s.regs := rfl
@[simp] theorem State.setLh_hdrs (s : State) (i : Nat) (x : Lh) : (s.setLh i x).hdrs = s.hdrs := rfl
@[simp] theorem State.setLh_doms (s : State) (i : Nat) (x : Lh) : (s.setLh i x).doms = s.doms := rfl
@[simp] theorem State.setLh_hm (s : State) (i : Nat) (x : Lh) : (s.setLh i x).hm = s.hm := rfl
@[simp] theorem State.setLh_log (s : State) (i : Nat) (x : Lh) : (s.setLh i x).log = s.log := rfl
@[simp] theorem State.setLh_berths (s : State) (i : Nat) (x : Lh) : (s.setLh i x).berths = s.berths := rfl
@[simp] theorem State.setLh_mem (s : State) (i : Nat) (x : Lh) : (s.setLh i x).mem = s.mem := rfl
@[simp] theorem State.setLh_ecc (s : State) (i : Nat) (x : Lh) : (s.setLh i x).ecc = s.ecc := rfl
@[simp] theorem State.setLh_streams (s : State) (i : Nat) (x : Lh) : (s.setLh i x).streams = s.streams := rfl
@[simp] theorem State.setLh_resps (s : State) (i : Nat) (x : Lh) : (s.setLh i x).resps = s.resps := rfl
@[simp] theorem State.setLh_credits (s : State) (i : Nat) (x : Lh) : (s.setLh i x).credits = s.credits := rfl
@[simp] theorem State.setLh_net (s : State) (i : Nat) (x : Lh) : (s.setLh i x).net = s.net := rfl
@[simp] theorem State.setLh_stale (s : State) (i : Nat) (x : Lh) : (s.setLh i x).stale = s.stale := rfl
@[simp] theorem State.setLh_blockQ (s : State) (i : Nat) (x : Lh) : (s.setLh i x).blockQ = s.blockQ := rfl
@[simp] theorem State.setLh_unitSeq (s : State) (i : Nat) (x : Lh) : (s.setLh i x).unitSeq = s.unitSeq := rfl
@[simp] theorem State.setLh_msix (s : State) (i : Nat) (x : Lh) : (s.setLh i x).msix = s.msix := rfl
@[simp] theorem State.setLh_chartOn (s : State) (i : Nat) (x : Lh) : (s.setLh i x).chartOn = s.chartOn := rfl
@[simp] theorem State.setLh_reactDone (s : State) (i : Nat) (x : Lh) : (s.setLh i x).reactDone = s.reactDone := rfl
@[simp] theorem State.setLh_person (s : State) (i : Nat) (x : Lh) : (s.setLh i x).person = s.person := rfl
@[simp] theorem State.setLh_host (s : State) (i : Nat) (x : Lh) : (s.setLh i x).host = s.host := rfl
@[simp] theorem State.setLh_field (s : State) (i : Nat) (x : Lh) : (s.setLh i x).field = s.field := rfl
@[simp] theorem State.setLh_sfdp (s : State) (i : Nat) (x : Lh) : (s.setLh i x).sfdp = s.sfdp := rfl
@[simp] theorem State.setLh_cgOut (s : State) (i : Nat) (x : Lh) : (s.setLh i x).cgOut = s.cgOut := rfl
@[simp] theorem State.setLh_fsyncDone (s : State) (i : Nat) (x : Lh) : (s.setLh i x).fsyncDone = s.fsyncDone := rfl
@[simp] theorem State.setLh_fsyncEnd (s : State) (i : Nat) (x : Lh) : (s.setLh i x).fsyncEnd = s.fsyncEnd := rfl
@[simp] theorem State.setLh_stamps (s : State) (i : Nat) (x : Lh) : (s.setLh i x).stamps = s.stamps := rfl
@[simp] theorem State.setLh_flash (s : State) (i : Nat) (x : Lh) : (s.setLh i x).flash = s.flash := rfl
@[simp] theorem State.setLh_wharf (s : State) (i : Nat) (x : Lh) : (s.setLh i x).wharf = s.wharf := rfl
@[simp] theorem State.setLh_drg (s : State) (i : Nat) (x : Lh) : (s.setLh i x).drg = s.drg := rfl
@[simp] theorem State.setLh_mesh (s : State) (i : Nat) (x : Lh) : (s.setLh i x).mesh = s.mesh := rfl
@[simp] theorem State.setLh_lt (s : State) (i : Nat) (x : Lh) : (s.setLh i x).lt = s.lt := rfl
@[simp] theorem State.setLh_pilot (s : State) (i : Nat) (x : Lh) : (s.setLh i x).pilot = s.pilot := rfl
@[simp] theorem State.setLh_scrubAt (s : State) (i : Nat) (x : Lh) : (s.setLh i x).scrubAt = s.scrubAt := rfl
@[simp] theorem State.setLh_scrubLine (s : State) (i : Nat) (x : Lh) : (s.setLh i x).scrubLine = s.scrubLine := rfl
@[simp] theorem State.setLh_fresh (s : State) (i : Nat) (x : Lh) : (s.setLh i x).fresh = s.fresh := rfl

@[simp] theorem State.setStream_pending (s : State) (i : Nat) (x : Stream) : (s.setStream i x).pending = s.pending := rfl
@[simp] theorem State.setStream_dev (s : State) (i : Nat) (x : Stream) : (s.setStream i x).dev = s.dev := rfl
@[simp] theorem State.setStream_clk (s : State) (i : Nat) (x : Stream) : (s.setStream i x).clk = s.clk := rfl
@[simp] theorem State.setStream_pins (s : State) (i : Nat) (x : Stream) : (s.setStream i x).pins = s.pins := rfl
@[simp] theorem State.setStream_regs (s : State) (i : Nat) (x : Stream) : (s.setStream i x).regs = s.regs := rfl
@[simp] theorem State.setStream_hdrs (s : State) (i : Nat) (x : Stream) : (s.setStream i x).hdrs = s.hdrs := rfl
@[simp] theorem State.setStream_doms (s : State) (i : Nat) (x : Stream) : (s.setStream i x).doms = s.doms := rfl
@[simp] theorem State.setStream_hm (s : State) (i : Nat) (x : Stream) : (s.setStream i x).hm = s.hm := rfl
@[simp] theorem State.setStream_log (s : State) (i : Nat) (x : Stream) : (s.setStream i x).log = s.log := rfl
@[simp] theorem State.setStream_lhs (s : State) (i : Nat) (x : Stream) : (s.setStream i x).lhs = s.lhs := rfl
@[simp] theorem State.setStream_berths (s : State) (i : Nat) (x : Stream) : (s.setStream i x).berths = s.berths := rfl
@[simp] theorem State.setStream_mem (s : State) (i : Nat) (x : Stream) : (s.setStream i x).mem = s.mem := rfl
@[simp] theorem State.setStream_ecc (s : State) (i : Nat) (x : Stream) : (s.setStream i x).ecc = s.ecc := rfl
@[simp] theorem State.setStream_resps (s : State) (i : Nat) (x : Stream) : (s.setStream i x).resps = s.resps := rfl
@[simp] theorem State.setStream_credits (s : State) (i : Nat) (x : Stream) : (s.setStream i x).credits = s.credits := rfl
@[simp] theorem State.setStream_net (s : State) (i : Nat) (x : Stream) : (s.setStream i x).net = s.net := rfl
@[simp] theorem State.setStream_stale (s : State) (i : Nat) (x : Stream) : (s.setStream i x).stale = s.stale := rfl
@[simp] theorem State.setStream_blockQ (s : State) (i : Nat) (x : Stream) : (s.setStream i x).blockQ = s.blockQ := rfl
@[simp] theorem State.setStream_unitSeq (s : State) (i : Nat) (x : Stream) : (s.setStream i x).unitSeq = s.unitSeq := rfl
@[simp] theorem State.setStream_msix (s : State) (i : Nat) (x : Stream) : (s.setStream i x).msix = s.msix := rfl
@[simp] theorem State.setStream_chartOn (s : State) (i : Nat) (x : Stream) : (s.setStream i x).chartOn = s.chartOn := rfl
@[simp] theorem State.setStream_reactDone (s : State) (i : Nat) (x : Stream) : (s.setStream i x).reactDone = s.reactDone := rfl
@[simp] theorem State.setStream_person (s : State) (i : Nat) (x : Stream) : (s.setStream i x).person = s.person := rfl
@[simp] theorem State.setStream_host (s : State) (i : Nat) (x : Stream) : (s.setStream i x).host = s.host := rfl
@[simp] theorem State.setStream_field (s : State) (i : Nat) (x : Stream) : (s.setStream i x).field = s.field := rfl
@[simp] theorem State.setStream_sfdp (s : State) (i : Nat) (x : Stream) : (s.setStream i x).sfdp = s.sfdp := rfl
@[simp] theorem State.setStream_cgOut (s : State) (i : Nat) (x : Stream) : (s.setStream i x).cgOut = s.cgOut := rfl
@[simp] theorem State.setStream_fsyncDone (s : State) (i : Nat) (x : Stream) : (s.setStream i x).fsyncDone = s.fsyncDone := rfl
@[simp] theorem State.setStream_fsyncEnd (s : State) (i : Nat) (x : Stream) : (s.setStream i x).fsyncEnd = s.fsyncEnd := rfl
@[simp] theorem State.setStream_stamps (s : State) (i : Nat) (x : Stream) : (s.setStream i x).stamps = s.stamps := rfl
@[simp] theorem State.setStream_flash (s : State) (i : Nat) (x : Stream) : (s.setStream i x).flash = s.flash := rfl
@[simp] theorem State.setStream_wharf (s : State) (i : Nat) (x : Stream) : (s.setStream i x).wharf = s.wharf := rfl
@[simp] theorem State.setStream_drg (s : State) (i : Nat) (x : Stream) : (s.setStream i x).drg = s.drg := rfl
@[simp] theorem State.setStream_mesh (s : State) (i : Nat) (x : Stream) : (s.setStream i x).mesh = s.mesh := rfl
@[simp] theorem State.setStream_lt (s : State) (i : Nat) (x : Stream) : (s.setStream i x).lt = s.lt := rfl
@[simp] theorem State.setStream_pilot (s : State) (i : Nat) (x : Stream) : (s.setStream i x).pilot = s.pilot := rfl
@[simp] theorem State.setStream_scrubAt (s : State) (i : Nat) (x : Stream) : (s.setStream i x).scrubAt = s.scrubAt := rfl
@[simp] theorem State.setStream_scrubLine (s : State) (i : Nat) (x : Stream) : (s.setStream i x).scrubLine = s.scrubLine := rfl
@[simp] theorem State.setStream_fresh (s : State) (i : Nat) (x : Stream) : (s.setStream i x).fresh = s.fresh := rfl

@[simp] theorem State.putByte_pending (s : State) (a : Nat) (b : Byte) : (s.putByte a b).pending = s.pending := rfl
@[simp] theorem State.putByte_dev (s : State) (a : Nat) (b : Byte) : (s.putByte a b).dev = s.dev := rfl
@[simp] theorem State.putByte_clk (s : State) (a : Nat) (b : Byte) : (s.putByte a b).clk = s.clk := rfl
@[simp] theorem State.putByte_pins (s : State) (a : Nat) (b : Byte) : (s.putByte a b).pins = s.pins := rfl
@[simp] theorem State.putByte_regs (s : State) (a : Nat) (b : Byte) : (s.putByte a b).regs = s.regs := rfl
@[simp] theorem State.putByte_hdrs (s : State) (a : Nat) (b : Byte) : (s.putByte a b).hdrs = s.hdrs := rfl
@[simp] theorem State.putByte_doms (s : State) (a : Nat) (b : Byte) : (s.putByte a b).doms = s.doms := rfl
@[simp] theorem State.putByte_hm (s : State) (a : Nat) (b : Byte) : (s.putByte a b).hm = s.hm := rfl
@[simp] theorem State.putByte_log (s : State) (a : Nat) (b : Byte) : (s.putByte a b).log = s.log := rfl
@[simp] theorem State.putByte_lhs (s : State) (a : Nat) (b : Byte) : (s.putByte a b).lhs = s.lhs := rfl
@[simp] theorem State.putByte_berths (s : State) (a : Nat) (b : Byte) : (s.putByte a b).berths = s.berths := rfl
@[simp] theorem State.putByte_ecc (s : State) (a : Nat) (b : Byte) : (s.putByte a b).ecc = s.ecc := rfl
@[simp] theorem State.putByte_streams (s : State) (a : Nat) (b : Byte) : (s.putByte a b).streams = s.streams := rfl
@[simp] theorem State.putByte_resps (s : State) (a : Nat) (b : Byte) : (s.putByte a b).resps = s.resps := rfl
@[simp] theorem State.putByte_credits (s : State) (a : Nat) (b : Byte) : (s.putByte a b).credits = s.credits := rfl
@[simp] theorem State.putByte_net (s : State) (a : Nat) (b : Byte) : (s.putByte a b).net = s.net := rfl
@[simp] theorem State.putByte_stale (s : State) (a : Nat) (b : Byte) : (s.putByte a b).stale = s.stale := rfl
@[simp] theorem State.putByte_blockQ (s : State) (a : Nat) (b : Byte) : (s.putByte a b).blockQ = s.blockQ := rfl
@[simp] theorem State.putByte_unitSeq (s : State) (a : Nat) (b : Byte) : (s.putByte a b).unitSeq = s.unitSeq := rfl
@[simp] theorem State.putByte_msix (s : State) (a : Nat) (b : Byte) : (s.putByte a b).msix = s.msix := rfl
@[simp] theorem State.putByte_chartOn (s : State) (a : Nat) (b : Byte) : (s.putByte a b).chartOn = s.chartOn := rfl
@[simp] theorem State.putByte_reactDone (s : State) (a : Nat) (b : Byte) : (s.putByte a b).reactDone = s.reactDone := rfl
@[simp] theorem State.putByte_person (s : State) (a : Nat) (b : Byte) : (s.putByte a b).person = s.person := rfl
@[simp] theorem State.putByte_host (s : State) (a : Nat) (b : Byte) : (s.putByte a b).host = s.host := rfl
@[simp] theorem State.putByte_field (s : State) (a : Nat) (b : Byte) : (s.putByte a b).field = s.field := rfl
@[simp] theorem State.putByte_sfdp (s : State) (a : Nat) (b : Byte) : (s.putByte a b).sfdp = s.sfdp := rfl
@[simp] theorem State.putByte_cgOut (s : State) (a : Nat) (b : Byte) : (s.putByte a b).cgOut = s.cgOut := rfl
@[simp] theorem State.putByte_fsyncDone (s : State) (a : Nat) (b : Byte) : (s.putByte a b).fsyncDone = s.fsyncDone := rfl
@[simp] theorem State.putByte_fsyncEnd (s : State) (a : Nat) (b : Byte) : (s.putByte a b).fsyncEnd = s.fsyncEnd := rfl
@[simp] theorem State.putByte_stamps (s : State) (a : Nat) (b : Byte) : (s.putByte a b).stamps = s.stamps := rfl
@[simp] theorem State.putByte_flash (s : State) (a : Nat) (b : Byte) : (s.putByte a b).flash = s.flash := rfl
@[simp] theorem State.putByte_wharf (s : State) (a : Nat) (b : Byte) : (s.putByte a b).wharf = s.wharf := rfl
@[simp] theorem State.putByte_drg (s : State) (a : Nat) (b : Byte) : (s.putByte a b).drg = s.drg := rfl
@[simp] theorem State.putByte_mesh (s : State) (a : Nat) (b : Byte) : (s.putByte a b).mesh = s.mesh := rfl
@[simp] theorem State.putByte_lt (s : State) (a : Nat) (b : Byte) : (s.putByte a b).lt = s.lt := rfl
@[simp] theorem State.putByte_pilot (s : State) (a : Nat) (b : Byte) : (s.putByte a b).pilot = s.pilot := rfl
@[simp] theorem State.putByte_scrubAt (s : State) (a : Nat) (b : Byte) : (s.putByte a b).scrubAt = s.scrubAt := rfl
@[simp] theorem State.putByte_scrubLine (s : State) (a : Nat) (b : Byte) : (s.putByte a b).scrubLine = s.scrubLine := rfl
@[simp] theorem State.putByte_fresh (s : State) (a : Nat) (b : Byte) : (s.putByte a b).fresh = s.fresh := rfl

@[simp] theorem State.setEcc_pending (s : State) (word aft : Nat) (v : Fin 3) : (s.setEcc word aft v).pending = s.pending := rfl
@[simp] theorem State.setEcc_dev (s : State) (word aft : Nat) (v : Fin 3) : (s.setEcc word aft v).dev = s.dev := rfl
@[simp] theorem State.setEcc_clk (s : State) (word aft : Nat) (v : Fin 3) : (s.setEcc word aft v).clk = s.clk := rfl
@[simp] theorem State.setEcc_pins (s : State) (word aft : Nat) (v : Fin 3) : (s.setEcc word aft v).pins = s.pins := rfl
@[simp] theorem State.setEcc_regs (s : State) (word aft : Nat) (v : Fin 3) : (s.setEcc word aft v).regs = s.regs := rfl
@[simp] theorem State.setEcc_hdrs (s : State) (word aft : Nat) (v : Fin 3) : (s.setEcc word aft v).hdrs = s.hdrs := rfl
@[simp] theorem State.setEcc_doms (s : State) (word aft : Nat) (v : Fin 3) : (s.setEcc word aft v).doms = s.doms := rfl
@[simp] theorem State.setEcc_hm (s : State) (word aft : Nat) (v : Fin 3) : (s.setEcc word aft v).hm = s.hm := rfl
@[simp] theorem State.setEcc_log (s : State) (word aft : Nat) (v : Fin 3) : (s.setEcc word aft v).log = s.log := rfl
@[simp] theorem State.setEcc_lhs (s : State) (word aft : Nat) (v : Fin 3) : (s.setEcc word aft v).lhs = s.lhs := rfl
@[simp] theorem State.setEcc_berths (s : State) (word aft : Nat) (v : Fin 3) : (s.setEcc word aft v).berths = s.berths := rfl
@[simp] theorem State.setEcc_mem (s : State) (word aft : Nat) (v : Fin 3) : (s.setEcc word aft v).mem = s.mem := rfl
@[simp] theorem State.setEcc_streams (s : State) (word aft : Nat) (v : Fin 3) : (s.setEcc word aft v).streams = s.streams := rfl
@[simp] theorem State.setEcc_resps (s : State) (word aft : Nat) (v : Fin 3) : (s.setEcc word aft v).resps = s.resps := rfl
@[simp] theorem State.setEcc_credits (s : State) (word aft : Nat) (v : Fin 3) : (s.setEcc word aft v).credits = s.credits := rfl
@[simp] theorem State.setEcc_net (s : State) (word aft : Nat) (v : Fin 3) : (s.setEcc word aft v).net = s.net := rfl
@[simp] theorem State.setEcc_stale (s : State) (word aft : Nat) (v : Fin 3) : (s.setEcc word aft v).stale = s.stale := rfl
@[simp] theorem State.setEcc_blockQ (s : State) (word aft : Nat) (v : Fin 3) : (s.setEcc word aft v).blockQ = s.blockQ := rfl
@[simp] theorem State.setEcc_unitSeq (s : State) (word aft : Nat) (v : Fin 3) : (s.setEcc word aft v).unitSeq = s.unitSeq := rfl
@[simp] theorem State.setEcc_msix (s : State) (word aft : Nat) (v : Fin 3) : (s.setEcc word aft v).msix = s.msix := rfl
@[simp] theorem State.setEcc_chartOn (s : State) (word aft : Nat) (v : Fin 3) : (s.setEcc word aft v).chartOn = s.chartOn := rfl
@[simp] theorem State.setEcc_reactDone (s : State) (word aft : Nat) (v : Fin 3) : (s.setEcc word aft v).reactDone = s.reactDone := rfl
@[simp] theorem State.setEcc_person (s : State) (word aft : Nat) (v : Fin 3) : (s.setEcc word aft v).person = s.person := rfl
@[simp] theorem State.setEcc_host (s : State) (word aft : Nat) (v : Fin 3) : (s.setEcc word aft v).host = s.host := rfl
@[simp] theorem State.setEcc_field (s : State) (word aft : Nat) (v : Fin 3) : (s.setEcc word aft v).field = s.field := rfl
@[simp] theorem State.setEcc_sfdp (s : State) (word aft : Nat) (v : Fin 3) : (s.setEcc word aft v).sfdp = s.sfdp := rfl
@[simp] theorem State.setEcc_cgOut (s : State) (word aft : Nat) (v : Fin 3) : (s.setEcc word aft v).cgOut = s.cgOut := rfl
@[simp] theorem State.setEcc_fsyncDone (s : State) (word aft : Nat) (v : Fin 3) : (s.setEcc word aft v).fsyncDone = s.fsyncDone := rfl
@[simp] theorem State.setEcc_fsyncEnd (s : State) (word aft : Nat) (v : Fin 3) : (s.setEcc word aft v).fsyncEnd = s.fsyncEnd := rfl
@[simp] theorem State.setEcc_stamps (s : State) (word aft : Nat) (v : Fin 3) : (s.setEcc word aft v).stamps = s.stamps := rfl
@[simp] theorem State.setEcc_flash (s : State) (word aft : Nat) (v : Fin 3) : (s.setEcc word aft v).flash = s.flash := rfl
@[simp] theorem State.setEcc_wharf (s : State) (word aft : Nat) (v : Fin 3) : (s.setEcc word aft v).wharf = s.wharf := rfl
@[simp] theorem State.setEcc_drg (s : State) (word aft : Nat) (v : Fin 3) : (s.setEcc word aft v).drg = s.drg := rfl
@[simp] theorem State.setEcc_mesh (s : State) (word aft : Nat) (v : Fin 3) : (s.setEcc word aft v).mesh = s.mesh := rfl
@[simp] theorem State.setEcc_lt (s : State) (word aft : Nat) (v : Fin 3) : (s.setEcc word aft v).lt = s.lt := rfl
@[simp] theorem State.setEcc_pilot (s : State) (word aft : Nat) (v : Fin 3) : (s.setEcc word aft v).pilot = s.pilot := rfl
@[simp] theorem State.setEcc_scrubAt (s : State) (word aft : Nat) (v : Fin 3) : (s.setEcc word aft v).scrubAt = s.scrubAt := rfl
@[simp] theorem State.setEcc_scrubLine (s : State) (word aft : Nat) (v : Fin 3) : (s.setEcc word aft v).scrubLine = s.scrubLine := rfl
@[simp] theorem State.setEcc_fresh (s : State) (word aft : Nat) (v : Fin 3) : (s.setEcc word aft v).fresh = s.fresh := rfl

@[simp] theorem State.markOut_pending (s : State) (old : State) : (s.markOut old).pending = s.pending := rfl
@[simp] theorem State.markOut_dev (s : State) (old : State) : (s.markOut old).dev = s.dev := rfl
@[simp] theorem State.markOut_clk (s : State) (old : State) : (s.markOut old).clk = s.clk := rfl
@[simp] theorem State.markOut_regs (s : State) (old : State) : (s.markOut old).regs = s.regs := rfl
@[simp] theorem State.markOut_hdrs (s : State) (old : State) : (s.markOut old).hdrs = s.hdrs := rfl
@[simp] theorem State.markOut_doms (s : State) (old : State) : (s.markOut old).doms = s.doms := rfl
@[simp] theorem State.markOut_hm (s : State) (old : State) : (s.markOut old).hm = s.hm := rfl
@[simp] theorem State.markOut_log (s : State) (old : State) : (s.markOut old).log = s.log := rfl
@[simp] theorem State.markOut_lhs (s : State) (old : State) : (s.markOut old).lhs = s.lhs := rfl
@[simp] theorem State.markOut_berths (s : State) (old : State) : (s.markOut old).berths = s.berths := rfl
@[simp] theorem State.markOut_mem (s : State) (old : State) : (s.markOut old).mem = s.mem := rfl
@[simp] theorem State.markOut_ecc (s : State) (old : State) : (s.markOut old).ecc = s.ecc := rfl
@[simp] theorem State.markOut_streams (s : State) (old : State) : (s.markOut old).streams = s.streams := rfl
@[simp] theorem State.markOut_resps (s : State) (old : State) : (s.markOut old).resps = s.resps := rfl
@[simp] theorem State.markOut_credits (s : State) (old : State) : (s.markOut old).credits = s.credits := rfl
@[simp] theorem State.markOut_net (s : State) (old : State) : (s.markOut old).net = s.net := rfl
@[simp] theorem State.markOut_stale (s : State) (old : State) : (s.markOut old).stale = s.stale := rfl
@[simp] theorem State.markOut_blockQ (s : State) (old : State) : (s.markOut old).blockQ = s.blockQ := rfl
@[simp] theorem State.markOut_unitSeq (s : State) (old : State) : (s.markOut old).unitSeq = s.unitSeq := rfl
@[simp] theorem State.markOut_msix (s : State) (old : State) : (s.markOut old).msix = s.msix := rfl
@[simp] theorem State.markOut_chartOn (s : State) (old : State) : (s.markOut old).chartOn = s.chartOn := rfl
@[simp] theorem State.markOut_reactDone (s : State) (old : State) : (s.markOut old).reactDone = s.reactDone := rfl
@[simp] theorem State.markOut_person (s : State) (old : State) : (s.markOut old).person = s.person := rfl
@[simp] theorem State.markOut_host (s : State) (old : State) : (s.markOut old).host = s.host := rfl
@[simp] theorem State.markOut_field (s : State) (old : State) : (s.markOut old).field = s.field := rfl
@[simp] theorem State.markOut_sfdp (s : State) (old : State) : (s.markOut old).sfdp = s.sfdp := rfl
@[simp] theorem State.markOut_cgOut (s : State) (old : State) : (s.markOut old).cgOut = s.cgOut := rfl
@[simp] theorem State.markOut_fsyncDone (s : State) (old : State) : (s.markOut old).fsyncDone = s.fsyncDone := rfl
@[simp] theorem State.markOut_fsyncEnd (s : State) (old : State) : (s.markOut old).fsyncEnd = s.fsyncEnd := rfl
@[simp] theorem State.markOut_stamps (s : State) (old : State) : (s.markOut old).stamps = s.stamps := rfl
@[simp] theorem State.markOut_flash (s : State) (old : State) : (s.markOut old).flash = s.flash := rfl
@[simp] theorem State.markOut_wharf (s : State) (old : State) : (s.markOut old).wharf = s.wharf := rfl
@[simp] theorem State.markOut_drg (s : State) (old : State) : (s.markOut old).drg = s.drg := rfl
@[simp] theorem State.markOut_mesh (s : State) (old : State) : (s.markOut old).mesh = s.mesh := rfl
@[simp] theorem State.markOut_lt (s : State) (old : State) : (s.markOut old).lt = s.lt := rfl
@[simp] theorem State.markOut_pilot (s : State) (old : State) : (s.markOut old).pilot = s.pilot := rfl
@[simp] theorem State.markOut_scrubAt (s : State) (old : State) : (s.markOut old).scrubAt = s.scrubAt := rfl
@[simp] theorem State.markOut_scrubLine (s : State) (old : State) : (s.markOut old).scrubLine = s.scrubLine := rfl
@[simp] theorem State.markOut_fresh (s : State) (old : State) : (s.markOut old).fresh = s.fresh := rfl

theorem State.putBytes_frame (s : State) (a : Nat) (d : List Byte) : s.putBytes a d = { s with mem := (s.putBytes a d).mem } := by
  induction d generalizing s a with
  | nil => rfl
  | cons b d ih => rw [State.putBytes, ih]; rfl

end Sys2Proof.Machine
end

