-- ==== Sys2Proof/Laws/Bits.lean ====
section
/-! SUPPORT. Bit fields: what a field reads after a field of the same register has been replaced, and stored fields of the state. -/

namespace Sys2Proof.Machine

/-! ## Words -/

/-- The word after a replacement, taken apart at the field. -/
theorem withBits_parts (v : U64) (hi lo x : Nat) (h1 : lo ≤ hi) (h2 : hi < 64) :
    (withBits v hi lo x).toNat =
      v.toNat / 2 ^ (hi + 1) * 2 ^ (hi + 1) + x % 2 ^ (hi + 1 - lo) * 2 ^ lo + v.toNat % 2 ^ lo := by
  have hv := v.isLt
  unfold withBits bitsOf
  generalize v.toNat = V at *
  obtain ⟨w, hw⟩ : ∃ w, hi + 1 - lo = w := ⟨_, rfl⟩
  have he : hi + 1 = lo + w := by omega
  rw [hw, he, pow_add]
  obtain ⟨m, hm⟩ : ∃ m, 64 = lo + w + m := ⟨64 - (lo + w), by omega⟩
  have h64 : 2 ^ 64 = 2 ^ lo * 2 ^ w * 2 ^ m := by rw [← pow_add, ← pow_add, ← hm]
  have hL : 0 < 2 ^ lo := Nat.two_pow_pos _
  have hW : 0 < 2 ^ w := Nat.two_pow_pos _
  generalize 2 ^ lo = L at *
  generalize 2 ^ w = W at *
  have hx : x % W < W := Nat.mod_lt _ hW
  generalize x % W = X at *
  have e1 : V = V / L * L + V % L := (Nat.div_add_mod' V L).symm
  have e2 : V / L = V / L / W * W + V / L % W := (Nat.div_add_mod' (V / L) W).symm
  have e3 : V / (L * W) = V / L / W := (Nat.div_div_eq_div_mul V L W).symm
  have hr : V % L < L := Nat.mod_lt _ hL
  have hq : V / L / W < 2 ^ m := by
    rw [← e3]; exact Nat.div_lt_of_lt_mul (by rw [← h64]; exact hv)
  rw [e3]
  generalize V / L / W = q at *
  generalize V / L % W = b at *
  generalize V % L = r at *
  rw [e2] at e1
  have e4 : V - b * L = q * (L * W) + r := by rw [e1]; ring_nf; omega
  rw [e4, BitVec.toNat_ofNat, Nat.mod_eq_of_lt]
  · ring
  · rw [h64]
    have : X * L + r < L * W := by nlinarith
    have : (q + 1) * (L * W) ≤ 2 ^ m * (L * W) := Nat.mul_le_mul_right _ hq
    nlinarith

/-- The replaced field reads the low bits of the value. -/
theorem bitsOf_withBits_same (v : U64) (hi lo x : Nat) (h1 : lo ≤ hi) (h2 : hi < 64) :
    bitsOf (withBits v hi lo x) hi lo = x % 2 ^ (hi + 1 - lo) := by
  unfold bitsOf
  rw [withBits_parts v hi lo x h1 h2]
  obtain ⟨w, hw⟩ : ∃ w, hi + 1 - lo = w := ⟨_, rfl⟩
  have he : hi + 1 = lo + w := by omega
  rw [hw, he, pow_add]
  have hL : 0 < 2 ^ lo := Nat.two_pow_pos _
  have hr : v.toNat % 2 ^ lo < 2 ^ lo := Nat.mod_lt _ hL
  generalize v.toNat % 2 ^ lo = r at *
  generalize v.toNat / (2 ^ lo * 2 ^ w) = q at *
  generalize 2 ^ lo = L at *
  have : q * (L * 2 ^ w) + x % 2 ^ w * L + r = r + (q * 2 ^ w + x % 2 ^ w) * L := by ring
  rw [this, Nat.add_mul_div_right _ _ hL, Nat.div_eq_of_lt hr, Nat.zero_add, Nat.mul_add_mod_self_right, Nat.mod_mod]

/-- A field below the replaced one stays. -/
theorem bitsOf_withBits_below (v : U64) (hi lo x hi' lo' : Nat) (h1 : lo ≤ hi) (h2 : hi < 64) (h : hi' < lo) :
    bitsOf (withBits v hi lo x) hi' lo' = bitsOf v hi' lo' := by
  have hm : (withBits v hi lo x).toNat % 2 ^ lo = v.toNat % 2 ^ lo := by
    rw [withBits_parts v hi lo x h1 h2]
    have : hi + 1 = lo + (hi + 1 - lo) := by omega
    generalize hi + 1 - lo = w at *
    rw [this, pow_add]
    have e : v.toNat / (2 ^ lo * 2 ^ w) * (2 ^ lo * 2 ^ w) + x % 2 ^ w * 2 ^ lo + v.toNat % 2 ^ lo
      = v.toNat % 2 ^ lo + (v.toNat / (2 ^ lo * 2 ^ w) * 2 ^ w + x % 2 ^ w) * 2 ^ lo := by ring
    rw [e, Nat.add_mul_mod_self_right, Nat.mod_mod]
  by_cases hl : lo' ≤ hi'
  · unfold bitsOf
    have key (n : Nat) : n / 2 ^ lo' % 2 ^ (hi' + 1 - lo') = n % 2 ^ lo / 2 ^ lo' % 2 ^ (hi' + 1 - lo') := by
      have : lo = lo' + (hi' + 1 - lo') + (lo - (hi' + 1)) := by omega
      rw [this, pow_add, pow_add, mul_assoc, Nat.mod_mul_right_div_self, Nat.mod_mod_of_dvd _ (Dvd.intro _ rfl)]
    rw [key, key v.toNat, hm]
  · unfold bitsOf
    have : hi' + 1 - lo' = 0 := by omega
    rw [this, pow_zero, Nat.mod_one, Nat.mod_one]

/-- A field above the replaced one stays. -/
theorem bitsOf_withBits_above (v : U64) (hi lo x hi' lo' : Nat) (h1 : lo ≤ hi) (h2 : hi < 64) (h : hi < lo') :
    bitsOf (withBits v hi lo x) hi' lo' = bitsOf v hi' lo' := by
  unfold bitsOf
  congr 1
  rw [withBits_parts v hi lo x h1 h2]
  obtain ⟨k, hk⟩ : ∃ k, lo' = hi + 1 + k := ⟨lo' - (hi + 1), by omega⟩
  have hb : x % 2 ^ (hi + 1 - lo) * 2 ^ lo + v.toNat % 2 ^ lo < 2 ^ (hi + 1) := by
    have : hi + 1 = lo + (hi + 1 - lo) := by omega
    generalize hi + 1 - lo = w at *
    rw [this, pow_add]
    have a := Nat.mod_lt x (Nat.two_pow_pos w)
    have b := Nat.mod_lt v.toNat (Nat.two_pow_pos lo)
    have c := Nat.mul_le_mul_right (2 ^ lo) (Nat.succ_le_of_lt a)
    rw [Nat.succ_mul] at c
    rw [mul_comm (2 ^ lo)]
    omega
  rw [hk, pow_add 2 (hi + 1) k, ← Nat.div_div_eq_div_mul, ← Nat.div_div_eq_div_mul, add_assoc, mul_comm (v.toNat / _), Nat.mul_add_div (Nat.two_pow_pos _),
    Nat.div_eq_of_lt hb, Nat.add_zero]

/-! ## Fields of registers -/

theorem Fld.get_put_same (f : Fld) (v : U64) (x : Nat) (h1 : f.lo ≤ f.hi) (h2 : f.hi < 64) :
    f.get (f.put v x) = x % 2 ^ (f.hi + 1 - f.lo) := bitsOf_withBits_same v _ _ x h1 h2

theorem Fld.get_put_other (f g : Fld) (v : U64) (x : Nat) (h1 : f.lo ≤ f.hi) (h2 : f.hi < 64) (h : g.hi < f.lo ∨ f.hi < g.lo) :
    g.get (f.put v x) = g.get v := by
  rcases h with h | h
  · exact bitsOf_withBits_below v _ _ x _ _ h1 h2 h
  · exact bitsOf_withBits_above v _ _ x _ _ h1 h2 h

/-- A stored field reads what was stored. -/
theorem State.fld_setFld_same (s : State) (slot : Nat) (f : Fld) (i x : Nat) (h1 : f.lo ≤ f.hi) (h2 : f.hi < 64) :
    (s.setFld slot f i x).fld slot f i = x % 2 ^ (f.hi + 1 - f.lo) := by
  unfold State.fld State.setFld
  rw [State.reg_setReg_same]
  exact Fld.get_put_same f _ x h1 h2

/-- A field of another register stays. -/
theorem State.fld_setFld_other (s : State) (slot slot' : Nat) (f g : Fld) (i j x : Nat)
    (h : regKey slot' g.reg j ≠ regKey slot f.reg i) : (s.setFld slot f i x).fld slot' g j = s.fld slot' g j := by
  unfold State.fld State.setFld
  rw [State.reg_setReg_other _ _ _ _ _ _ _ _ h]

/-- Another field of the same register stays. -/
theorem State.fld_setFld_apart (s : State) (slot : Nat) (f g : Fld) (i x : Nat) (hr : g.reg = f.reg) (h1 : f.lo ≤ f.hi)
    (h2 : f.hi < 64) (h : g.hi < f.lo ∨ f.hi < g.lo) : (s.setFld slot f i x).fld slot g i = s.fld slot g i := by
  unfold State.fld State.setFld
  rw [hr, State.reg_setReg_same]
  exact Fld.get_put_other f g _ x h1 h2 h

/-- A field of a register that a whole write does not touch stays. -/
theorem State.fld_setReg_other (s : State) (slot slot' : Nat) (r : Reg) (g : Fld) (i j : Nat) (v : U64)
    (h : regKey slot' g.reg j ≠ regKey slot r i) : (s.setReg slot r i v).fld slot' g j = s.fld slot' g j := by
  unfold State.fld
  rw [State.reg_setReg_other _ _ _ _ _ _ _ _ h]

/-- Setting bits with a disjunction sets them, and keeps the others. -/
theorem nbit_or (a b i : Nat) : nbit (a ||| b) i = (nbit a i || nbit b i) := by
  have key (n : Nat) : nbit n i = n.testBit i := by
    unfold nbit
    rw [Nat.testBit_eq_decide_div_mod_eq]
    by_cases h : n / 2 ^ i % 2 = 1 <;> simp [h]
  rw [key, key, key, Nat.testBit_or]

theorem nbit_pow (g i : Nat) : nbit (2 ^ g) i = decide (g = i) := by
  have key (n : Nat) : nbit n i = n.testBit i := by
    unfold nbit
    rw [Nat.testBit_eq_decide_div_mod_eq]
    by_cases h : n / 2 ^ i % 2 = 1 <;> simp [h]
  rw [key, Nat.testBit_two_pow]

end Sys2Proof.Machine
end

