-- ==== Sys2Proof/Laws/Record.lean ====
section
/-! SUPPORT. Everything that recording a fault can change: registers, headers, the Logbook's queue, vectors and in-band
interrupts sent, the device state, the Harbourmaster's state and the times of output changes. -/

namespace Sys2Proof.Machine

/-- `t` differs from `s` at most in what recording a fault can change. -/
def State.Recorded (s t : State) : Prop :=
  t = { s with dev := t.dev, pins := t.pins, regs := t.regs, hdrs := t.hdrs, hm := t.hm, log := t.log, msix := t.msix,
               host := t.host }

theorem State.Recorded.refl (s : State) : s.Recorded s := rfl

theorem State.Recorded.trans {s t u : State} (h : s.Recorded t) (k : t.Recorded u) : s.Recorded u := by
  unfold State.Recorded at *
  rw [k, h]

theorem State.setReg_recorded (s : State) (slot : Nat) (r : Reg) (i : Nat) (v : U64) : s.Recorded (s.setReg slot r i v) := rfl
theorem State.setFld_recorded (s : State) (slot : Nat) (f : Fld) (i x : Nat) : s.Recorded (s.setFld slot f i x) := rfl
theorem State.setHdr_recorded (s : State) (slot : Nat) (h : Hdr) : s.Recorded (s.setHdr slot h) := rfl
theorem State.markOut_recorded (s old : State) : s.Recorded (s.markOut old) := rfl

theorem State.push_recorded (s : State) (slot group code detail : Nat) : s.Recorded (s.push slot group code detail) := by
  unfold State.push; split <;> rfl

theorem State.setFault_recorded (s : State) (slot g : Nat) : s.Recorded (s.setFault slot g) := rfl

theorem State.sendVector_recorded (s : State) (slot : Nat) : s.Recorded (s.sendVector slot) := by
  unfold State.sendVector; split <;> rfl

theorem State.foldl_recorded {α : Type} (f : State → α → State) (hf : ∀ (t : State) (x : α), t.Recorded (f t x)) (l : List α) (s : State) :
    s.Recorded (l.foldl f s) := by
  induction l generalizing s with
  | nil => exact State.Recorded.refl s
  | cons x l ih => exact (hf s x).trans (ih _)

theorem State.notify_recorded (s old : State) (slots : List Nat) : s.Recorded (s.notify old slots) := by
  have h : s.Recorded (slots.foldl (fun t sl => if s.irqPend sl && !old.irqPend sl then t.sendVector sl else t) s) := by
    refine State.foldl_recorded _ (fun t sl => ?_) slots s
    by_cases hc : (s.irqPend sl && !old.irqPend sl) = true
    · simpa [hc] using State.sendVector_recorded t sl
    · simpa [hc] using State.Recorded.refl t
  unfold State.notify
  dsimp only
  split
  · exact h.trans rfl
  · exact h

theorem State.append_recorded (s : State) (slot group code detail : Nat) :
    s.Recorded (s.append slot group code detail) := by
  unfold State.append
  dsimp only
  split
  · exact (State.push_recorded s _ _ _ _).trans
      ((State.setFault_recorded _ 3 4).trans ((State.push_recorded _ _ _ _ _).trans (State.notify_recorded _ _ _)))
  · exact State.push_recorded s _ _ _ _

theorem State.setDev_recorded (s : State) (new : DevState) (cause : Nat) : s.Recorded (s.setDev new cause) := by
  have base (v : U64) (x : Nat) :
      s.Recorded ((({ s with dev := new } : State).setReg 0 .HM_STATE 0 v).append 0 0xFF 0x0006 x) :=
    State.Recorded.trans (t := ({ s with dev := new } : State).setReg 0 .HM_STATE 0 v) rfl (State.append_recorded _ _ _ _ _)
  unfold State.setDev
  cases new <;> exact (base _ _).trans (State.markOut_recorded _ _)

theorem State.withHm_recorded (s : State) (h : Hm) : s.Recorded { s with hm := h } := rfl

theorem State.enterSafe_recorded (s : State) (cause : Nat) : s.Recorded (s.enterSafe cause) := by
  have base (c : Nat) : s.Recorded (((s.setDev .safe c).setFld 0 F.HM_SAFE_STAT_IN_SAFE 0 1).setFld 0 F.HM_SAFE_STAT_PENDING 0 0) :=
    (State.setDev_recorded s .safe c).trans ((State.setFld_recorded _ _ _ _ _).trans (State.setFld_recorded _ _ _ _ _))
  unfold State.enterSafe
  dsimp only
  split
  · exact State.Recorded.refl s
  · split
    · exact (base _).trans ((State.setReg_recorded _ _ _ _ _).trans (State.withHm_recorded _ _))
    · exact (base _).trans ((State.setFld_recorded _ _ _ _ _).trans
        ((State.setReg_recorded _ _ _ _ _).trans (State.withHm_recorded _ _)))

theorem State.settle_recorded (s : State) (cause : Nat) : s.Recorded (s.settle cause) := by
  unfold State.settle
  dsimp only
  split
  · split
    · exact State.enterSafe_recorded s cause
    · exact State.enterSafe_recorded s cause
    · exact State.withHm_recorded _ _
    · exact (State.setFld_recorded s 0 F.HM_SAFE_STAT_PENDING 0 1).trans (State.withHm_recorded _ _)
    · exact (State.setFld_recorded s 0x13 F.SO_STAT_LATCHED 0 1).trans (State.withHm_recorded _ _)
    · exact State.withHm_recorded _ _
    · exact State.Recorded.refl s
  · exact State.Recorded.refl s

theorem State.logEntry_recorded (s : State) (slot group code detail : Nat) :
    s.Recorded (s.logEntry slot group code detail) :=
  (State.append_recorded s _ _ _ _).trans (State.settle_recorded _ _)

/-- Recording a fault leaves everything else unchanged: memory, Berths, domains, streams, clocks and the queue among it. -/
theorem State.recordAs_recorded (s : State) (slot g cause : Nat) : s.Recorded (s.recordAs slot g cause) := by
  unfold State.recordAs
  dsimp only
  split
  · exact State.Recorded.refl s
  · exact (State.setFault_recorded s slot g).trans ((State.append_recorded _ _ _ _ _).trans
      ((State.notify_recorded _ _ _).trans (State.settle_recorded _ _)))

theorem State.record_recorded (s : State) (slot g : Nat) : s.Recorded (s.record slot g) := State.recordAs_recorded s slot g 6

theorem State.recordIf_recorded (s : State) (c : Bool) (slot g : Nat) : s.Recorded (s.recordIf c slot g) := by
  unfold State.recordIf; split
  · exact State.record_recorded s slot g
  · exact State.Recorded.refl s

section
variable {s t : State} (h : s.Recorded t)
include h
theorem State.Recorded.mem : t.mem = s.mem := by rw [h]
theorem State.Recorded.berths : t.berths = s.berths := by rw [h]
theorem State.Recorded.doms : t.doms = s.doms := by rw [h]
theorem State.Recorded.clk : t.clk = s.clk := by rw [h]
theorem State.Recorded.pending : t.pending = s.pending := by rw [h]
theorem State.Recorded.streams : t.streams = s.streams := by rw [h]
theorem State.Recorded.lhs : t.lhs = s.lhs := by rw [h]
theorem State.Recorded.person : t.person = s.person := by rw [h]
theorem State.Recorded.resps : t.resps = s.resps := by rw [h]
theorem State.Recorded.ecc : t.ecc = s.ecc := by rw [h]
end

end Sys2Proof.Machine
end

