-- ==== Sys2Proof/Laws/Mem.lean ====
section
/-! SUPPORT. Requests at memory: what checking words for errors changes, what read holds that end change, and what a read and a write
answer. -/

namespace Sys2Proof.Machine

/-! ## Checked reads -/

/-- `t` differs from `s` at most in what recording faults and correcting a word can change. -/
def State.Checked (s t : State) : Prop :=
  t = { s with dev := t.dev, pins := t.pins, regs := t.regs, hdrs := t.hdrs, hm := t.hm, log := t.log, msix := t.msix,
               host := t.host, ecc := t.ecc }

theorem State.Recorded.checked {s t : State} (h : s.Recorded t) : s.Checked t := by
  unfold State.Checked
  unfold State.Recorded at h
  rw [h]

theorem State.Checked.refl (s : State) : s.Checked s := rfl

theorem State.Checked.trans {s t u : State} (h : s.Checked t) (k : t.Checked u) : s.Checked u := by
  unfold State.Checked at *
  rw [k, h]

theorem State.setEcc_checked (s : State) (w c : Nat) (v : Fin 3) : s.Checked (s.setEcc w c v) := rfl

theorem State.count_recorded (s : State) (slot : Nat) (f : Fld) (i n : Nat) : s.Recorded (s.count slot f i n) :=
  State.setFld_recorded s slot f i _

theorem State.kvFault_recorded (s : State) (g q page unit : Nat) : s.Recorded (s.kvFault g q page unit) := by
  unfold State.kvFault
  refine State.Recorded.trans ?_ (State.record_recorded _ _ _)
  split
  exacts [State.Recorded.refl s, State.setReg_recorded _ _ _ _ _]

theorem State.tableFault_recorded (s : State) (g w : Nat) : s.Recorded (s.tableFault g w) := by
  unfold State.tableFault
  dsimp only
  split_ifs <;> exact State.kvFault_recorded _ _ _ _ _

theorem State.drgFault_recorded (s : State) (g k reason addr : Nat) : s.Recorded (s.drgFault g k reason addr) := by
  unfold State.drgFault
  refine State.Recorded.trans ?_ (State.record_recorded _ _ _)
  split
  exacts [State.Recorded.refl s, State.setReg_recorded _ _ _ _ _]

theorem State.correct_checked (s : State) (p : Place) (w c : Nat) : s.Checked (s.correct p w c) := by
  have h : s.Checked (s.setEcc w c 0) := State.setEcc_checked s w c 0
  have hc (sl g : Nat) (f : Fld) : s.Checked (((s.setEcc w c 0).count sl f 0 1).record sl g) :=
    h.trans ((State.count_recorded _ sl f 0 1).trans (State.record_recorded _ sl g)).checked
  unfold State.correct
  cases p with
  | hold n _ => exact hc (bslot n) 2 F.HOLD_ECC_CE_CNT
  | basin _ => exact hc 0x0C 2 F.BASIN_ECC_CE_CNT
  | lpddr _ => exact hc (0x0A + s.mcOf w) 2 F.MC_ECC_CE_CNT
  | tables _ => exact h.trans (State.tableFault_recorded _ 6 w).checked
  | store _ => exact h.trans (State.drgFault_recorded _ 2 _ 0 w).checked
  | _ => exact h

theorem State.latchUe_recorded (s : State) (p : Place) (w c : Nat) : s.Recorded (s.latchUe p w c) := by
  unfold State.latchUe
  cases p <;> dsimp only
  case hold => split; exacts [State.Recorded.refl s, State.setReg_recorded _ _ _ _ _]
  case basin => split; exacts [State.Recorded.refl s, (State.setFld_recorded _ _ _ _ _).trans (State.setFld_recorded _ _ _ _ _)]
  case lpddr => split; exacts [State.Recorded.refl s, State.setReg_recorded _ _ _ _ _]
  all_goals exact State.Recorded.refl s

theorem State.uncorrectable_checked (s : State) (p : Place) (w c : Nat) : s.Checked (s.uncorrectable p w c) := by
  have h : s.Checked (s.latchUe p w c) := (State.latchUe_recorded s p w c).checked
  have hc (sl g : Nat) (f : Fld) : s.Checked (((s.latchUe p w c).count sl f 0 1).record sl g) :=
    h.trans ((State.count_recorded _ sl f 0 1).trans (State.record_recorded _ sl g)).checked
  unfold State.uncorrectable
  cases p with
  | hold n _ => exact hc (bslot n) 3 F.HOLD_ECC_UE_CNT
  | basin _ => exact hc 0x0C 3 F.BASIN_ECC_UE_CNT
  | lpddr _ => exact hc (0x0A + s.mcOf w) 3 F.MC_ECC_UE_CNT
  | tables _ => exact h.trans (State.tableFault_recorded _ 7 w).checked
  | _ => exact h

theorem State.foldl_checked {α : Type} (f : State → α → State) (hf : ∀ (t : State) (x : α), t.Checked (f t x)) (l : List α) (s : State) :
    s.Checked (l.foldl f s) := by
  induction l generalizing s with
  | nil => exact State.Checked.refl s
  | cons x l ih => exact (hf s x).trans (ih _)

theorem State.checkWords_checked (s : State) (p : Place) (ws : List Nat) : s.Checked (s.checkWords p ws) := by
  unfold State.checkWords
  refine State.foldl_checked _ (fun t w => State.foldl_checked _ (fun u c => ?_) _ t) ws s
  split
  · exact State.correct_checked _ _ _ _
  · split
    · exact State.uncorrectable_checked _ _ _ _
    · exact State.Checked.refl _

section
variable {s t : State} (h : s.Checked t)
include h
theorem State.Checked.mem : t.mem = s.mem := by rw [h]
theorem State.Checked.berths : t.berths = s.berths := by rw [h]
theorem State.Checked.doms : t.doms = s.doms := by rw [h]
theorem State.Checked.clk : t.clk = s.clk := by rw [h]
theorem State.Checked.pending : t.pending = s.pending := by rw [h]
theorem State.Checked.streams : t.streams = s.streams := by rw [h]
theorem State.Checked.resps : t.resps = s.resps := by rw [h]
theorem State.Checked.berth (n : Nat) : t.berth n = s.berth n := by unfold State.berth; rw [h.berths]
theorem State.Checked.byte (a : Nat) : t.byte a = s.byte a := by unfold State.byte; rw [h.mem]
end

/-- Words that are read whole leave what checking them leaves. -/
theorem State.readWords_checked (s : State) (p : Place) (ws : List Nat) (h : (s.readWords p ws).1 = .ok) :
    s.Checked (s.readWords p ws).2 := by
  unfold State.readWords at h ⊢
  dsimp only at h ⊢
  split at h
  · cases h
  · cases h
  · exact State.checkWords_checked _ _ _

/-- A read of a Hold that is OK corrects words and records their faults; nothing else changes. -/
theorem State.readHold_checked (s : State) (who : Requester) (n off k : Nat) (h : (s.readAt who (.hold n off) k).st = .ok) :
    s.Checked (s.readAt who (.hold n off) k).s := by
  unfold State.readAt at h ⊢
  dsimp only [poison] at h ⊢
  split_ifs at h ⊢ with _ _ hr
  exacts [State.readWords_checked _ _ _ hr, absurd h hr]

/-! ## Read holds that end (R391) -/

theorem State.endHolds_cons (s : State) (w : Wo) (ws : List Wo) :
    s.endHolds (w :: ws) = State.endHolds (match w.hold with
      | some q => s.putByte (holdsAt q) (if s.byte (holdsAt q) = 0 then 0 else s.byte (holdsAt q) - 1)
      | none => s) ws := rfl

/-- Ending read holds writes their counts in the page tables and nothing else. -/
theorem State.endHolds_eq (s : State) (ws : List Wo) : s.endHolds ws = { s with mem := (s.endHolds ws).mem } := by
  induction ws generalizing s with
  | nil => rfl
  | cons w ws ih =>
    rw [State.endHolds_cons]
    cases w.hold with
    | none => exact ih s
    | some q => exact ih _

theorem State.byte_endHolds (s : State) (ws : List Wo) (b : Nat) (h : ∀ k, b ≠ holdsAt k) : (s.endHolds ws).byte b = s.byte b := by
  induction ws generalizing s with
  | nil => rfl
  | cons w ws ih =>
    rw [State.endHolds_cons]
    cases w.hold with
    | none => exact ih s
    | some q =>
      rw [ih]
      exact State.byte_putByte_other s _ b _ (h q)

theorem State.memory_endHolds (s : State) (ws : List Wo) (h : Tab.wf 0 s.mem = true) : Tab.wf 0 (s.endHolds ws).mem = true := by
  induction ws generalizing s with
  | nil => exact h
  | cons w ws ih =>
    rw [State.endHolds_cons]
    cases w.hold with
    | none => exact ih s h
    | some q => exact ih _ (State.memory_putByte s _ _ h)

/-! ## Putting bytes -/

/-- Writing bytes changes memory only. -/
theorem State.putBytes_eq (s : State) (a : Nat) (d : List Byte) : s.putBytes a d = { s with mem := (s.putBytes a d).mem } := by
  induction d generalizing s a with
  | nil => rfl
  | cons b d ih => exact ih _ _

/-- A byte that a read of `n` bytes gives. -/
theorem State.length_bytes (s : State) (a n : Nat) : (s.bytes a n).length = n := by
  induction n generalizing a with
  | zero => rfl
  | succ n ih => simp [State.bytes, ih]

/-- Equal memories read equal bytes. -/
theorem State.bytes_congr (s t : State) (a n : Nat) (h : t.mem = s.mem) : t.bytes a n = s.bytes a n := by
  induction n generalizing a with
  | zero => rfl
  | succ n ih => simp only [State.bytes, ih, State.byte, h]

end Sys2Proof.Machine
end

