-- ==== Sys2Proof/Laws/PerInstr.lean ====
section
/-! SUPPORT. Statements about every command as syntax, one lemma per constructor. `ListedOpcode`: a command that has an instruction word
carries an opcode that Table 4-2 of 04_sequencer_work_orders.md lists. -/

namespace Sys2Proof.Laws

/-- The opcode of a word of 26 low bits under an opcode. -/
theorem wordOp_of (op x : Nat) (hop : op < 64) (hx : x < 2 ^ 26) : wordOp (BitVec.ofNat 32 (op * 2 ^ 26 + x)) = op := by
  unfold wordOp wordBits
  rw [BitVec.toNat_ofNat]
  omega

theorem wordOp_wordR (op d a b x : Nat) (hop : op < 64) (hd : d < 16) (ha : a < 16) (hb : b < 16) (hx : x < 2 ^ 14) :
    wordOp (wordR op d a b x) = op := by
  have h := wordOp_of op (d * 2 ^ 22 + a * 2 ^ 18 + b * 2 ^ 14 + x) hop (by omega)
  unfold wordR
  rwa [show op * 2 ^ 26 + d * 2 ^ 22 + a * 2 ^ 18 + b * 2 ^ 14 + x = op * 2 ^ 26 + (d * 2 ^ 22 + a * 2 ^ 18 + b * 2 ^ 14 + x) by omega]

theorem wordOp_wordI (op d a : Nat) (i : BitVec 18) (hop : op < 64) (hd : d < 16) (ha : a < 16) : wordOp (wordI op d a i) = op := by
  have hi := i.isLt
  have h := wordOp_of op (d * 2 ^ 22 + a * 2 ^ 18 + i.toNat) hop (by omega)
  unfold wordI
  rwa [show op * 2 ^ 26 + d * 2 ^ 22 + a * 2 ^ 18 + i.toNat = op * 2 ^ 26 + (d * 2 ^ 22 + a * 2 ^ 18 + i.toNat) by omega]

theorem wordOp_wordW (op d : Nat) (i : BitVec 22) (hop : op < 64) (hd : d < 16) : wordOp (wordW op d i) = op := by
  have hi := i.isLt
  have h := wordOp_of op (d * 2 ^ 22 + i.toNat) hop (by omega)
  unfold wordW
  rwa [show op * 2 ^ 26 + d * 2 ^ 22 + i.toNat = op * 2 ^ 26 + (d * 2 ^ 22 + i.toNat) by omega]

/-- A command that has an instruction word carries a listed opcode. -/
def ListedOpcode.Statement (i : Instr) : Prop := ∀ w, seqWord i = some w → (zeroFields (wordOp w)).isSome = true

namespace ListedOpcode

theorem of_op (i : Instr) (w : U32) (op : Nat) (h : seqWord i = some w) (ho : wordOp w = op) (hz : (zeroFields op).isSome = true) :
    Statement i := by
  intro v hv
  rw [h] at hv
  cases hv
  rwa [ho]

theorem of_none (i : Instr) (h : seqWord i = none) : Statement i := by
  intro v hv
  rw [h] at hv
  cases hv

theorem registerWrite (a0 : Requester) (a1 : Addr) (a2 : Nat) (a3 : U64) (a4 : Bool) : Statement (.registerWrite a0 a1 a2 a3 a4) := of_none _ rfl
theorem memoryRequest (a0 : Requester) (a1 : Nat) (a2 : BitVec 2) (a3 : Addr) (a4 : MemOp) : Statement (.memoryRequest a0 a1 a2 a3 a4) := of_none _ rfl
theorem basinScrub (a0 : BitVec 16) : Statement (.basinScrub a0) := of_none _ rfl
theorem memoryTrainingDone (a0 : BitVec 3) (a1 : BitVec 3) : Statement (.memoryTrainingDone a0 a1) := of_none _ rfl
theorem lockMismatch (a0 : PairUnit) (a1 : BitVec 6) (a2 : BitVec 2) : Statement (.lockMismatch a0 a1 a2) := of_none _ rfl
theorem compDiverge (a0 : PairUnit) (a1 : BitVec 6) (a2 : BitVec 2) : Statement (.compDiverge a0 a1 a2) := of_none _ rfl
theorem craneCompletion (a0 : Fin 32) (a1 : BitVec 8) (a2 : BitVec 2) : Statement (.craneCompletion a0 a1 a2) := of_none _ rfl
theorem craneTimeout (a0 : Fin 32) (a1 : BitVec 8) : Statement (.craneTimeout a0 a1) := of_none _ rfl
theorem add (a0 : Fin 32) (a1 : Fin 16) (a2 : Fin 16) (a3 : Fin 16) : Statement (.add a0 a1 a2 a3) := by
  have := a0.isLt; have := a1.isLt; have := a2.isLt; have := a3.isLt
  exact of_op _ _ 0x01 rfl (wordOp_wordR _ _ _ _ _ (by omega) (by omega) (by omega) (by omega) (by omega)) rfl
theorem sub (a0 : Fin 32) (a1 : Fin 16) (a2 : Fin 16) (a3 : Fin 16) : Statement (.sub a0 a1 a2 a3) := by
  have := a0.isLt; have := a1.isLt; have := a2.isLt; have := a3.isLt
  exact of_op _ _ 0x02 rfl (wordOp_wordR _ _ _ _ _ (by omega) (by omega) (by omega) (by omega) (by omega)) rfl
theorem and (a0 : Fin 32) (a1 : Fin 16) (a2 : Fin 16) (a3 : Fin 16) : Statement (.and a0 a1 a2 a3) := by
  have := a0.isLt; have := a1.isLt; have := a2.isLt; have := a3.isLt
  exact of_op _ _ 0x03 rfl (wordOp_wordR _ _ _ _ _ (by omega) (by omega) (by omega) (by omega) (by omega)) rfl
theorem or (a0 : Fin 32) (a1 : Fin 16) (a2 : Fin 16) (a3 : Fin 16) : Statement (.or a0 a1 a2 a3) := by
  have := a0.isLt; have := a1.isLt; have := a2.isLt; have := a3.isLt
  exact of_op _ _ 0x04 rfl (wordOp_wordR _ _ _ _ _ (by omega) (by omega) (by omega) (by omega) (by omega)) rfl
theorem xor (a0 : Fin 32) (a1 : Fin 16) (a2 : Fin 16) (a3 : Fin 16) : Statement (.xor a0 a1 a2 a3) := by
  have := a0.isLt; have := a1.isLt; have := a2.isLt; have := a3.isLt
  exact of_op _ _ 0x05 rfl (wordOp_wordR _ _ _ _ _ (by omega) (by omega) (by omega) (by omega) (by omega)) rfl
theorem shl (a0 : Fin 32) (a1 : Fin 16) (a2 : Fin 16) (a3 : Fin 16) : Statement (.shl a0 a1 a2 a3) := by
  have := a0.isLt; have := a1.isLt; have := a2.isLt; have := a3.isLt
  exact of_op _ _ 0x06 rfl (wordOp_wordR _ _ _ _ _ (by omega) (by omega) (by omega) (by omega) (by omega)) rfl
theorem shr (a0 : Fin 32) (a1 : Fin 16) (a2 : Fin 16) (a3 : Fin 16) : Statement (.shr a0 a1 a2 a3) := by
  have := a0.isLt; have := a1.isLt; have := a2.isLt; have := a3.isLt
  exact of_op _ _ 0x07 rfl (wordOp_wordR _ _ _ _ _ (by omega) (by omega) (by omega) (by omega) (by omega)) rfl
theorem sar (a0 : Fin 32) (a1 : Fin 16) (a2 : Fin 16) (a3 : Fin 16) : Statement (.sar a0 a1 a2 a3) := by
  have := a0.isLt; have := a1.isLt; have := a2.isLt; have := a3.isLt
  exact of_op _ _ 0x08 rfl (wordOp_wordR _ _ _ _ _ (by omega) (by omega) (by omega) (by omega) (by omega)) rfl
theorem mul (a0 : Fin 32) (a1 : Fin 16) (a2 : Fin 16) (a3 : Fin 16) : Statement (.mul a0 a1 a2 a3) := by
  have := a0.isLt; have := a1.isLt; have := a2.isLt; have := a3.isLt
  exact of_op _ _ 0x09 rfl (wordOp_wordR _ _ _ _ _ (by omega) (by omega) (by omega) (by omega) (by omega)) rfl
theorem min (a0 : Fin 32) (a1 : Fin 16) (a2 : Fin 16) (a3 : Fin 16) : Statement (.min a0 a1 a2 a3) := by
  have := a0.isLt; have := a1.isLt; have := a2.isLt; have := a3.isLt
  exact of_op _ _ 0x0A rfl (wordOp_wordR _ _ _ _ _ (by omega) (by omega) (by omega) (by omega) (by omega)) rfl
theorem max (a0 : Fin 32) (a1 : Fin 16) (a2 : Fin 16) (a3 : Fin 16) : Statement (.max a0 a1 a2 a3) := by
  have := a0.isLt; have := a1.isLt; have := a2.isLt; have := a3.isLt
  exact of_op _ _ 0x0B rfl (wordOp_wordR _ _ _ _ _ (by omega) (by omega) (by omega) (by omega) (by omega)) rfl
theorem cmp (a0 : Fin 32) (a1 : Fin 16) (a2 : Fin 16) : Statement (.cmp a0 a1 a2) := by
  have := a0.isLt; have := a1.isLt; have := a2.isLt
  exact of_op _ _ 0x0C rfl (wordOp_wordR _ _ _ _ _ (by omega) (by omega) (by omega) (by omega) (by omega)) rfl
theorem addi (a0 : Fin 32) (a1 : Fin 16) (a2 : Fin 16) (a3 : BitVec 18) : Statement (.addi a0 a1 a2 a3) := by
  have := a0.isLt; have := a1.isLt; have := a2.isLt; have := a3.isLt
  exact of_op _ _ 0x10 rfl (wordOp_wordI _ _ _ _ (by omega) (by omega) (by omega)) rfl
theorem andi (a0 : Fin 32) (a1 : Fin 16) (a2 : Fin 16) (a3 : BitVec 18) : Statement (.andi a0 a1 a2 a3) := by
  have := a0.isLt; have := a1.isLt; have := a2.isLt; have := a3.isLt
  exact of_op _ _ 0x11 rfl (wordOp_wordI _ _ _ _ (by omega) (by omega) (by omega)) rfl
theorem ori (a0 : Fin 32) (a1 : Fin 16) (a2 : Fin 16) (a3 : BitVec 18) : Statement (.ori a0 a1 a2 a3) := by
  have := a0.isLt; have := a1.isLt; have := a2.isLt; have := a3.isLt
  exact of_op _ _ 0x12 rfl (wordOp_wordI _ _ _ _ (by omega) (by omega) (by omega)) rfl
theorem xori (a0 : Fin 32) (a1 : Fin 16) (a2 : Fin 16) (a3 : BitVec 18) : Statement (.xori a0 a1 a2 a3) := by
  have := a0.isLt; have := a1.isLt; have := a2.isLt; have := a3.isLt
  exact of_op _ _ 0x13 rfl (wordOp_wordI _ _ _ _ (by omega) (by omega) (by omega)) rfl
theorem shli (a0 : Fin 32) (a1 : Fin 16) (a2 : Fin 16) (a3 : BitVec 18) : Statement (.shli a0 a1 a2 a3) := by
  have := a0.isLt; have := a1.isLt; have := a2.isLt; have := a3.isLt
  exact of_op _ _ 0x14 rfl (wordOp_wordI _ _ _ _ (by omega) (by omega) (by omega)) rfl
theorem shri (a0 : Fin 32) (a1 : Fin 16) (a2 : Fin 16) (a3 : BitVec 18) : Statement (.shri a0 a1 a2 a3) := by
  have := a0.isLt; have := a1.isLt; have := a2.isLt; have := a3.isLt
  exact of_op _ _ 0x15 rfl (wordOp_wordI _ _ _ _ (by omega) (by omega) (by omega)) rfl
theorem sari (a0 : Fin 32) (a1 : Fin 16) (a2 : Fin 16) (a3 : BitVec 18) : Statement (.sari a0 a1 a2 a3) := by
  have := a0.isLt; have := a1.isLt; have := a2.isLt; have := a3.isLt
  exact of_op _ _ 0x16 rfl (wordOp_wordI _ _ _ _ (by omega) (by omega) (by omega)) rfl
theorem cmpi (a0 : Fin 32) (a1 : Fin 16) (a2 : BitVec 18) : Statement (.cmpi a0 a1 a2) := by
  have := a0.isLt; have := a1.isLt; have := a2.isLt
  exact of_op _ _ 0x17 rfl (wordOp_wordI _ _ _ _ (by omega) (by omega) (by omega)) rfl
theorem movi (a0 : Fin 32) (a1 : Fin 16) (a2 : BitVec 22) : Statement (.movi a0 a1 a2) := by
  have := a0.isLt; have := a1.isLt; have := a2.isLt
  exact of_op _ _ 0x18 rfl (wordOp_wordW _ _ _ (by omega) (by omega)) rfl
theorem movhi (a0 : Fin 32) (a1 : Fin 16) (a2 : Fin 4) (a3 : BitVec 16) : Statement (.movhi a0 a1 a2 a3) := by
  have := a0.isLt; have := a1.isLt; have := a2.isLt; have := a3.isLt
  refine of_op _ _ 0x19 rfl ?_ rfl
  unfold wordOp wordBits
  rw [BitVec.toNat_ofNat]
  omega
theorem amov (a0 : Fin 32) (a1 : Fin 8) (a2 : Fin 16) : Statement (.amov a0 a1 a2) := by
  have := a0.isLt; have := a1.isLt; have := a2.isLt
  exact of_op _ _ 0x1A rfl (wordOp_wordR _ _ _ _ _ (by omega) (by omega) (by omega) (by omega) (by omega)) rfl
theorem gmov (a0 : Fin 32) (a1 : Fin 16) (a2 : Fin 8) : Statement (.gmov a0 a1 a2) := by
  have := a0.isLt; have := a1.isLt; have := a2.isLt
  exact of_op _ _ 0x1B rfl (wordOp_wordR _ _ _ _ _ (by omega) (by omega) (by omega) (by omega) (by omega)) rfl
theorem aaddi (a0 : Fin 32) (a1 : Fin 8) (a2 : Fin 8) (a3 : BitVec 18) : Statement (.aaddi a0 a1 a2 a3) := by
  have := a0.isLt; have := a1.isLt; have := a2.isLt; have := a3.isLt
  exact of_op _ _ 0x1C rfl (wordOp_wordI _ _ _ _ (by omega) (by omega) (by omega)) rfl
theorem ld (a0 : Fin 32) (a1 : Fin 16) (a2 : Fin 8) (a3 : BitVec 18) : Statement (.ld a0 a1 a2 a3) := by
  have := a0.isLt; have := a1.isLt; have := a2.isLt; have := a3.isLt
  exact of_op _ _ 0x20 rfl (wordOp_wordI _ _ _ _ (by omega) (by omega) (by omega)) rfl
theorem ldw (a0 : Fin 32) (a1 : Fin 16) (a2 : Fin 8) (a3 : BitVec 18) : Statement (.ldw a0 a1 a2 a3) := by
  have := a0.isLt; have := a1.isLt; have := a2.isLt; have := a3.isLt
  exact of_op _ _ 0x21 rfl (wordOp_wordI _ _ _ _ (by omega) (by omega) (by omega)) rfl
theorem st (a0 : Fin 32) (a1 : Fin 16) (a2 : Fin 8) (a3 : BitVec 18) : Statement (.st a0 a1 a2 a3) := by
  have := a0.isLt; have := a1.isLt; have := a2.isLt; have := a3.isLt
  exact of_op _ _ 0x22 rfl (wordOp_wordI _ _ _ _ (by omega) (by omega) (by omega)) rfl
theorem stw (a0 : Fin 32) (a1 : Fin 16) (a2 : Fin 8) (a3 : BitVec 18) : Statement (.stw a0 a1 a2 a3) := by
  have := a0.isLt; have := a1.isLt; have := a2.isLt; have := a3.isLt
  exact of_op _ _ 0x23 rfl (wordOp_wordI _ _ _ _ (by omega) (by omega) (by omega)) rfl
theorem fadd (a0 : Fin 32) (a1 : Fin 16) (a2 : Fin 8) (a3 : Fin 16) : Statement (.fadd a0 a1 a2 a3) := by
  have := a0.isLt; have := a1.isLt; have := a2.isLt; have := a3.isLt
  exact of_op _ _ 0x24 rfl (wordOp_wordR _ _ _ _ _ (by omega) (by omega) (by omega) (by omega) (by omega)) rfl
theorem cas (a0 : Fin 32) (a1 : Fin 16) (a2 : Fin 8) (a3 : Fin 16) : Statement (.cas a0 a1 a2 a3) := by
  have := a0.isLt; have := a1.isLt; have := a2.isLt; have := a3.isLt
  exact of_op _ _ 0x25 rfl (wordOp_wordR _ _ _ _ _ (by omega) (by omega) (by omega) (by omega) (by omega)) rfl
theorem loadComplete (a0 : Fin 32) : Statement (.loadComplete a0) := of_none _ rfl
theorem b (a0 : Fin 32) (a1 : BitVec 4) (a2 : BitVec 22) : Statement (.b a0 a1 a2) := by
  have := a0.isLt; have := a1.isLt; have := a2.isLt
  exact of_op _ _ 0x28 rfl (wordOp_wordW _ _ _ (by omega) (by omega)) rfl
theorem call (a0 : Fin 32) (a1 : BitVec 22) : Statement (.call a0 a1) := by
  have := a0.isLt; have := a1.isLt
  exact of_op _ _ 0x29 rfl (wordOp_wordW _ _ _ (by omega) (by omega)) rfl
theorem ret (a0 : Fin 32) : Statement (.ret a0) := by
  have := a0.isLt
  exact of_op _ _ 0x2A rfl (wordOp_wordR _ _ _ _ _ (by omega) (by omega) (by omega) (by omega) (by omega)) rfl
theorem loop (a0 : Fin 32) (a1 : Fin 4) (a2 : Fin 16) (a3 : BitVec 12) : Statement (.loop a0 a1 a2 a3) := by
  have := a0.isLt; have := a1.isLt; have := a2.isLt; have := a3.isLt
  refine of_op _ _ 0x2C rfl ?_ rfl
  unfold wordOp wordBits
  rw [BitVec.toNat_ofNat]
  omega
theorem loopi (a0 : Fin 32) (a1 : Fin 4) (a2 : BitVec 12) (a3 : BitVec 12) : Statement (.loopi a0 a1 a2 a3) := by
  have := a0.isLt; have := a1.isLt; have := a2.isLt; have := a3.isLt
  refine of_op _ _ 0x2D rfl ?_ rfl
  unfold wordOp wordBits
  rw [BitVec.toNat_ofNat]
  omega
theorem illegalInstruction (a0 : Fin 32) (a1 : U32) : Statement (.illegalInstruction a0 a1) := of_none _ rfl
theorem wo (a0 : Fin 32) (a1 : Fin 16) (a2 : Fin 8) : Statement (.wo a0 a1 a2) := by
  have := a0.isLt; have := a1.isLt; have := a2.isLt
  exact of_op _ _ 0x30 rfl (wordOp_wordR _ _ _ _ _ (by omega) (by omega) (by omega) (by omega) (by omega)) rfl
theorem woEntryFree (a0 : Fin 32) : Statement (.woEntryFree a0) := of_none _ rfl
theorem send (a0 : Fin 32) (a1 : Fin 16) (a2 : Fin 8) : Statement (.send a0 a1 a2) := by
  have := a0.isLt; have := a1.isLt; have := a2.isLt
  exact of_op _ _ 0x31 rfl (wordOp_wordR _ _ _ _ _ (by omega) (by omega) (by omega) (by omega) (by omega)) rfl
theorem sendnb (a0 : Fin 32) (a1 : Fin 16) (a2 : Fin 8) : Statement (.sendnb a0 a1 a2) := by
  have := a0.isLt; have := a1.isLt; have := a2.isLt
  exact of_op _ _ 0x32 rfl (wordOp_wordR _ _ _ _ _ (by omega) (by omega) (by omega) (by omega) (by omega)) rfl
theorem sendAccept (a0 : Fin 32) : Statement (.sendAccept a0) := of_none _ rfl
theorem mooringTimeout (a0 : Fin 32) : Statement (.mooringTimeout a0) := of_none _ rfl
theorem poll (a0 : Fin 32) (a1 : Fin 16) (a2 : Fin 8) (a3 : Fin 16) (a4 : BitVec 2) (a5 : BitVec 12) : Statement (.poll a0 a1 a2 a3 a4 a5) := by
  have := a0.isLt; have := a1.isLt; have := a2.isLt; have := a3.isLt; have := a4.isLt; have := a5.isLt
  exact of_op _ _ 0x33 rfl (wordOp_wordR _ _ _ _ _ (by omega) (by omega) (by omega) (by omega) (by omega)) rfl
theorem pollSatisfied (a0 : Fin 32) : Statement (.pollSatisfied a0) := of_none _ rfl
theorem pollTimeout (a0 : Fin 32) : Statement (.pollTimeout a0) := of_none _ rfl
theorem relq (a0 : Fin 32) (a1 : Fin 4) : Statement (.relq a0 a1) := by
  have := a0.isLt; have := a1.isLt
  refine of_op _ _ 0x34 rfl ?_ rfl
  unfold wordOp wordBits
  rw [BitVec.toNat_ofNat]
  omega
theorem waitt (a0 : Fin 32) (a1 : Fin 16) : Statement (.waitt a0 a1) := by
  have := a0.isLt; have := a1.isLt
  exact of_op _ _ 0x35 rfl (wordOp_wordR _ _ _ _ _ (by omega) (by omega) (by omega) (by omega) (by omega)) rfl
theorem waittResume (a0 : Fin 32) : Statement (.waittResume a0) := of_none _ rfl
theorem rdtide (a0 : Fin 32) (a1 : Fin 16) : Statement (.rdtide a0 a1) := by
  have := a0.isLt; have := a1.isLt
  exact of_op _ _ 0x36 rfl (wordOp_wordR _ _ _ _ _ (by omega) (by omega) (by omega) (by omega) (by omega)) rfl
theorem fence (a0 : Fin 32) (a1 : Bool) : Statement (.fence a0 a1) := by
  have := a0.isLt
  exact of_op _ _ 0x37 rfl (wordOp_wordR _ _ _ _ _ (by omega) (by omega) (by omega) (by omega) (by split <;> omega)) rfl
theorem fenceRetire (a0 : Fin 32) : Statement (.fenceRetire a0) := of_none _ rfl
theorem commit (a0 : Fin 32) (a1 : Fin 16) (a2 : Fin 16) : Statement (.commit a0 a1 a2) := by
  have := a0.isLt; have := a1.isLt; have := a2.isLt
  exact of_op _ _ 0x38 rfl (wordOp_wordR _ _ _ _ _ (by omega) (by omega) (by omega) (by omega) (by omega)) rfl
theorem commitPublish (a0 : Fin 32) : Statement (.commitPublish a0) := of_none _ rfl
theorem squash (a0 : Fin 32) (a1 : Fin 16) : Statement (.squash a0 a1) := by
  have := a0.isLt; have := a1.isLt
  exact of_op _ _ 0x39 rfl (wordOp_wordR _ _ _ _ _ (by omega) (by omega) (by omega) (by omega) (by omega)) rfl
theorem stamp (a0 : Fin 32) (a1 : Fin 16) (a2 : Fin 64) : Statement (.stamp a0 a1 a2) := by
  have := a0.isLt; have := a1.isLt; have := a2.isLt
  exact of_op _ _ 0x3A rfl (wordOp_wordR _ _ _ _ _ (by omega) (by omega) (by omega) (by omega) (by omega)) rfl
theorem yield (a0 : Fin 32) : Statement (.yield a0) := by
  have := a0.isLt
  exact of_op _ _ 0x3E rfl (wordOp_wordR _ _ _ _ _ (by omega) (by omega) (by omega) (by omega) (by omega)) rfl
theorem yieldResume (a0 : Fin 32) : Statement (.yieldResume a0) := of_none _ rfl
theorem halt (a0 : Fin 32) : Statement (.halt a0) := by
  have := a0.isLt
  exact of_op _ _ 0x3F rfl (wordOp_wordR _ _ _ _ _ (by omega) (by omega) (by omega) (by omega) (by omega)) rfl
theorem seqCtlStop (a0 : Requester) (a1 : Fin 32) : Statement (.seqCtlStop a0 a1) := of_none _ rfl
theorem seqCtlResume (a0 : Requester) (a1 : Fin 32) : Statement (.seqCtlResume a0 a1) := of_none _ rfl
theorem matmul (a0 : Fin 32) : Statement (.matmul a0) := of_none _ rfl
theorem conv (a0 : Fin 32) : Statement (.conv a0) := of_none _ rfl
theorem dwconv (a0 : Fin 32) : Statement (.dwconv a0) := of_none _ rfl
theorem pool (a0 : Fin 32) : Statement (.pool a0) := of_none _ rfl
theorem elem (a0 : Fin 32) : Statement (.elem a0) := of_none _ rfl
theorem reduce (a0 : Fin 32) : Statement (.reduce a0) := of_none _ rfl
theorem s2d (a0 : Fin 32) : Statement (.s2d a0) := of_none _ rfl
theorem d2s (a0 : Fin 32) : Statement (.d2s a0) := of_none _ rfl
theorem fmcomp (a0 : Fin 32) : Statement (.fmcomp a0) := of_none _ rfl
theorem fmdecomp (a0 : Fin 32) : Statement (.fmdecomp a0) := of_none _ rfl
theorem attnblk (a0 : Fin 32) : Statement (.attnblk a0) := of_none _ rfl
theorem kvappend (a0 : Fin 32) : Statement (.kvappend a0) := of_none _ rfl
theorem cvt (a0 : Fin 32) : Statement (.cvt a0) := of_none _ rfl
theorem copy (a0 : Fin 32) : Statement (.copy a0) := of_none _ rfl
theorem workOrderComplete (a0 : Fin 32) (a1 : U32) : Statement (.workOrderComplete a0 a1) := of_none _ rfl
theorem fmtCntClr (a0 : Fin 32) : Statement (.fmtCntClr a0) := of_none _ rfl
theorem fmcCntClr (a0 : Fin 32) : Statement (.fmcCntClr a0) := of_none _ rfl
theorem craneCntClr (a0 : Fin 32) : Statement (.craneCntClr a0) := of_none _ rfl
theorem holdEccClr (a0 : Fin 32) : Statement (.holdEccClr a0) := of_none _ rfl
theorem basinEccClr : Statement (.basinEccClr) := of_none _ rfl
theorem mcEccClr (a0 : Fin 2) : Statement (.mcEccClr a0) := of_none _ rfl
theorem kvCntClr : Statement (.kvCntClr) := of_none _ rfl
theorem drgCntClr : Statement (.drgCntClr) := of_none _ rfl
theorem inCntClr : Statement (.inCntClr) := of_none _ rfl
theorem quayCntClr (a0 : Fin 4) : Statement (.quayCntClr a0) := of_none _ rfl
theorem bootLoad : Statement (.bootLoad) := of_none _ rfl
theorem residentChartLoad : Statement (.residentChartLoad) := of_none _ rfl
theorem reportTimeout : Statement (.reportTimeout) := of_none _ rfl
theorem chartBatch (a0 : BitVec 8) (a1 : Addr) (a2 : Nat) (a3 : BitVec 8) (a4 : BitVec 8) : Statement (.chartBatch a0 a1 a2 a3 a4) := of_none _ rfl
theorem batchAnswer (a0 : Fin 64) (a1 : Status) : Statement (.batchAnswer a0 a1) := of_none _ rfl
theorem batchTimeout (a0 : Fin 64) : Statement (.batchTimeout a0) := of_none _ rfl
theorem chartStart : Statement (.chartStart) := of_none _ rfl
theorem berthAvailableTimeout (a0 : Fin 32) : Statement (.berthAvailableTimeout a0) := of_none _ rfl
theorem pilotBoot : Statement (.pilotBoot) := of_none _ rfl
theorem load : Statement (.load) := of_none _ rfl
theorem rechart (a0 : BitVec 4) : Statement (.rechart a0) := of_none _ rfl
theorem store : Statement (.store) := of_none _ rfl
theorem porNFall (a0 : Nat) : Statement (.porNFall a0) := of_none _ rfl
theorem porNRise (a0 : BitVec 14) (a1 : Bool) (a2 : Bool) (a3 : Bool) : Statement (.porNRise a0 a1 a2 a3) := of_none _ rfl
theorem wake (a0 : BitVec 21) : Statement (.wake a0) := of_none _ rfl
theorem tideAlarm : Statement (.tideAlarm) := of_none _ rfl
theorem referenceCheck (a0 : Nat) : Statement (.referenceCheck a0) := of_none _ rfl
theorem pllLock (a0 : Fin 4) : Statement (.pllLock a0) := of_none _ rfl
theorem pllLockTimeout (a0 : Fin 4) : Statement (.pllLockTimeout a0) := of_none _ rfl
theorem domainOn (a0 : Fin 44) (a1 : List ScFail) : Statement (.domainOn a0 a1) := of_none _ rfl
theorem domainPowerOn (a0 : Requester) (a1 : Fin 44) : Statement (.domainPowerOn a0 a1) := of_none _ rfl
theorem domainPowerOff (a0 : Requester) (a1 : Fin 44) : Statement (.domainPowerOff a0 a1) := of_none _ rfl
theorem domainReset (a0 : Requester) (a1 : Fin 44) : Statement (.domainReset a0 a1) := of_none _ rfl
theorem drainOutboundDone (a0 : Fin 44) : Statement (.drainOutboundDone a0) := of_none _ rfl
theorem drainTimeout (a0 : Fin 44) : Statement (.drainTimeout a0) := of_none _ rfl
theorem domainResetHoldEnd (a0 : Fin 44) : Statement (.domainResetHoldEnd a0) := of_none _ rfl
theorem warmReset (a0 : Requester) : Statement (.warmReset a0) := of_none _ rfl
theorem serviceEnter (a0 : Requester) : Statement (.serviceEnter a0) := of_none _ rfl
theorem sleepRequest (a0 : Requester) : Statement (.sleepRequest a0) := of_none _ rfl
theorem sleepEntryComplete : Statement (.sleepEntryComplete) := of_none _ rfl
theorem aoTick (a0 : BitVec 5) : Statement (.aoTick a0) := of_none _ rfl
theorem xtalSwitch : Statement (.xtalSwitch) := of_none _ rfl
theorem tideSyncTimer : Statement (.tideSyncTimer) := of_none _ rfl
theorem sync (a0 : Fin 4) (a1 : BitVec 2) (a2 : BitVec 40) (a3 : BitVec 6) (a4 : Bool) : Statement (.sync a0 a1 a2 a3 a4) := of_none _ rfl
theorem tideParentTimeout : Statement (.tideParentTimeout) := of_none _ rfl
theorem masterElectionTimeout : Statement (.masterElectionTimeout) := of_none _ rfl
theorem masterClaim (a0 : BitVec 6) : Statement (.masterClaim a0) := of_none _ rfl
theorem timePps : Statement (.timePps) := of_none _ rfl
theorem tideSet (a0 : Requester) (a1 : U64) : Statement (.tideSet a0 a1) := of_none _ rfl
theorem segmentRequest (a0 : NvUser) (a1 : Nat) (a2 : BitVec 12) : Statement (.segmentRequest a0 a1 a2) := of_none _ rfl
theorem holdupRetry (a0 : BitVec 12) : Statement (.holdupRetry a0) := of_none _ rfl
theorem startCheck : Statement (.startCheck) := of_none _ rfl
theorem scInjectionWindow (a0 : ScFail) : Statement (.scInjectionWindow a0) := of_none _ rfl
theorem startCheckDone : Statement (.startCheckDone) := of_none _ rfl
theorem manualInjection (a0 : Requester) (a1 : BitVec 6) (a2 : U64) : Statement (.manualInjection a0 a1 a2) := of_none _ rfl
theorem frameStart (a0 : Fin 8) (a1 : BitVec 4) (a2 : BitVec 16) (a3 : HdrEcc) : Statement (.frameStart a0 a1 a2 a3) := of_none _ rfl
theorem linePacket (a0 : Fin 8) (a1 : BitVec 4) (a2 : BitVec 6) (a3 : List Byte) (a4 : HdrEcc) (a5 : Bool) : Statement (.linePacket a0 a1 a2 a3 a4 a5) := of_none _ rfl
theorem frameEnd (a0 : Fin 8) (a1 : BitVec 4) (a2 : BitVec 16) (a3 : HdrEcc) : Statement (.frameEnd a0 a1 a2 a3) := of_none _ rfl
theorem frameTimeout (a0 : Fin 16) : Statement (.frameTimeout a0) := of_none _ rfl
theorem ringWriteComplete (a0 : Fin 16) (a1 : Status) : Statement (.ringWriteComplete a0 a1) := of_none _ rfl
theorem intakeLink (a0 : Fin 8) : Statement (.intakeLink a0) := of_none _ rfl
theorem streamClaim (a0 : Requester) (a1 : Fin 16) : Statement (.streamClaim a0 a1) := of_none _ rfl
theorem streamRel (a0 : Requester) (a1 : Fin 16) (a2 : BitVec 4) : Statement (.streamRel a0 a1 a2) := of_none _ rfl
theorem streamCntClr (a0 : Requester) (a1 : Fin 16) : Statement (.streamCntClr a0 a1) := of_none _ rfl
theorem streamEnable (a0 : Requester) (a1 : Fin 16) : Statement (.streamEnable a0 a1) := of_none _ rfl
theorem streamDisable (a0 : Requester) (a1 : Fin 16) : Statement (.streamDisable a0 a1) := of_none _ rfl
theorem cgOutcome (a0 : Fin 32) (a1 : BitVec 12) (a2 : Bool) : Statement (.cgOutcome a0 a1 a2) := of_none _ rfl
theorem fsyncPulse (a0 : Fin 8) : Statement (.fsyncPulse a0) := of_none _ rfl
theorem fsyncPulseEnd (a0 : Fin 8) : Statement (.fsyncPulseEnd a0) := of_none _ rfl
theorem kvOpen (a0 : CmdSrc) (a1 : BitVec 8) (a2 : BitVec 16) : Statement (.kvOpen a0 a1 a2) := of_none _ rfl
theorem kvClose (a0 : CmdSrc) (a1 : BitVec 8) (a2 : BitVec 16) : Statement (.kvClose a0 a1 a2) := of_none _ rfl
theorem kvFork (a0 : CmdSrc) (a1 : BitVec 8) (a2 : BitVec 16) (a3 : BitVec 16) (a4 : U32) : Statement (.kvFork a0 a1 a2 a3 a4) := of_none _ rfl
theorem kvTrunc (a0 : CmdSrc) (a1 : BitVec 8) (a2 : BitVec 16) (a3 : U32) : Statement (.kvTrunc a0 a1 a2 a3) := of_none _ rfl
theorem kvDispatch (a0 : CmdSrc) (a1 : BitVec 8) (a2 : BitVec 16) (a3 : BitVec 16) (a4 : Addr) : Statement (.kvDispatch a0 a1 a2 a3 a4) := of_none _ rfl
theorem kvStow (a0 : CmdSrc) (a1 : BitVec 8) (a2 : BitVec 16) : Statement (.kvStow a0 a1 a2) := of_none _ rfl
theorem kvQuery (a0 : CmdSrc) (a1 : BitVec 8) (a2 : BitVec 16) : Statement (.kvQuery a0 a1 a2) := of_none _ rfl
theorem kvRestore (a0 : Fin 4) : Statement (.kvRestore a0) := of_none _ rfl
theorem kvUnstow (a0 : Fin 4) : Statement (.kvUnstow a0) := of_none _ rfl
theorem submit (a0 : CmdSrc) (a1 : BitVec 8) (a2 : BitVec 8) (a3 : Addr) : Statement (.submit a0 a1 a2 a3) := of_none _ rfl
theorem pause (a0 : CmdSrc) (a1 : BitVec 8) (a2 : BitVec 8) : Statement (.pause a0 a1 a2) := of_none _ rfl
theorem resume (a0 : CmdSrc) (a1 : BitVec 8) (a2 : BitVec 8) : Statement (.resume a0 a1 a2) := of_none _ rfl
theorem stop (a0 : CmdSrc) (a1 : BitVec 8) (a2 : BitVec 8) : Statement (.stop a0 a1 a2) := of_none _ rfl
theorem collect (a0 : CmdSrc) (a1 : BitVec 8) (a2 : BitVec 8) : Statement (.collect a0 a1 a2) := of_none _ rfl
theorem drgStatus (a0 : CmdSrc) (a1 : BitVec 8) (a2 : BitVec 8) : Statement (.drgStatus a0 a1 a2) := of_none _ rfl
theorem drgProblemStart : Statement (.drgProblemStart) := of_none _ rfl
theorem drgLoadDone : Statement (.drgLoadDone) := of_none _ rfl
theorem drgStep : Statement (.drgStep) := of_none _ rfl
theorem manifestDelivery (a0 : Manifest) (a1 : Bool) : Statement (.manifestDelivery a0 a1) := of_none _ rfl
theorem creditReturn (a0 : Fin 32) (a1 : Fin 16) (a2 : BitVec 2) : Statement (.creditReturn a0 a1 a2) := of_none _ rfl
theorem blockNack (a0 : Manifest) : Statement (.blockNack a0) := of_none _ rfl
theorem headFlitRoute (a0 : Option (Fin 4)) (a1 : Packet) : Statement (.headFlitRoute a0 a1) := of_none _ rfl
theorem flitGroup (a0 : Fin 4) (a1 : BitVec 8) (a2 : Bool) (a3 : List Packet) : Statement (.flitGroup a0 a1 a2 a3) := of_none _ rfl
theorem cred (a0 : Fin 4) (a1 : BitVec 42) (a2 : Bool) : Statement (.cred a0 a1 a2) := of_none _ rfl
theorem credTimer (a0 : Fin 4) : Statement (.credTimer a0) := of_none _ rfl
theorem ack (a0 : Fin 4) (a1 : BitVec 8) (a2 : Bool) : Statement (.ack a0 a1 a2) := of_none _ rfl
theorem nak (a0 : Fin 4) (a1 : BitVec 8) (a2 : Bool) : Statement (.nak a0 a1 a2) := of_none _ rfl
theorem ackTimer (a0 : Fin 4) : Statement (.ackTimer a0) := of_none _ rfl
theorem replayTimeout (a0 : Fin 4) : Statement (.replayTimeout a0) := of_none _ rfl
theorem sleepNotice (a0 : Fin 4) : Statement (.sleepNotice a0) := of_none _ rfl
theorem quiesce (a0 : Fin 4) : Statement (.quiesce a0) := of_none _ rfl
theorem linkLoss (a0 : Fin 4) (a1 : LossCause) : Statement (.linkLoss a0 a1) := of_none _ rfl
theorem linkTraining (a0 : Fin 4) : Statement (.linkTraining a0) := of_none _ rfl
theorem laneTestEnd (a0 : Fin 4) (a1 : BitVec 8) : Statement (.laneTestEnd a0 a1) := of_none _ rfl
theorem linkActive (a0 : Fin 4) (a1 : Neighbour) : Statement (.linkActive a0 a1) := of_none _ rfl
theorem trainRetry (a0 : Fin 4) : Statement (.trainRetry a0) := of_none _ rfl
theorem quayWake (a0 : Fin 4) : Statement (.quayWake a0) := of_none _ rfl
theorem routeStall (a0 : Fin 6) : Statement (.routeStall a0) := of_none _ rfl
theorem boardWindowRequest (a0 : Packet) : Statement (.boardWindowRequest a0) := of_none _ rfl
theorem resp (a0 : Packet) : Statement (.resp a0) := of_none _ rfl
theorem lighterEnqueue (a0 : Manifest) : Statement (.lighterEnqueue a0) := of_none _ rfl
theorem bopen (a0 : BitVec 8) (a1 : BitVec 8) (a2 : U32) (a3 : Manifest) : Statement (.bopen a0 a1 a2 a3) := of_none _ rfl
theorem bgrant (a0 : U32) (a1 : Status) : Statement (.bgrant a0 a1) := of_none _ rfl
theorem bgrantBusyRepeat : Statement (.bgrantBusyRepeat) := of_none _ rfl
theorem bgrantTimeout (a0 : U32) : Statement (.bgrantTimeout a0) := of_none _ rfl
theorem bseg (a0 : BitVec 8) (a1 : BitVec 8) (a2 : U32) (a3 : U32) (a4 : Bool) (a5 : Bool) (a6 : List Byte) : Statement (.bseg a0 a1 a2 a3 a4 a5 a6) := of_none _ rfl
theorem bsegTimeout (a0 : BitVec 8) (a1 : BitVec 8) (a2 : U32) : Statement (.bsegTimeout a0 a1 a2) := of_none _ rfl
theorem ltRelease (a0 : Requester) (a1 : Addr) : Statement (.ltRelease a0 a1) := of_none _ rfl
theorem hmMismatch (a0 : BitVec 6) (a1 : BitVec 2) : Statement (.hmMismatch a0 a1) := of_none _ rfl
theorem hmDiverge (a0 : BitVec 6) (a1 : BitVec 2) : Statement (.hmDiverge a0 a1) := of_none _ rfl
theorem clkMonWindow (a0 : Fin 5) (a1 : BitVec 16) (a2 : BitVec 16) : Statement (.clkMonWindow a0 a1 a2) := of_none _ rfl
theorem rcCheck (a0 a1 : Nat) : Statement (.rcCheck a0 a1) := of_none _ rfl
theorem stampArrival (a0 : Fin 32) (a1 : Fin 64) (a2 : U64) : Statement (.stampArrival a0 a1 a2) := of_none _ rfl
theorem lhAgeExpiry (a0 : Fin 64) : Statement (.lhAgeExpiry a0) := of_none _ rfl
theorem lhPeriodExpiry (a0 : Fin 64) : Statement (.lhPeriodExpiry a0) := of_none _ rfl
theorem lhFirstExpiry (a0 : Fin 64) : Statement (.lhFirstExpiry a0) := of_none _ rfl
theorem blkFaultWrite (a0 : Requester) (a1 : BitVec 6) (a2 : U64) : Statement (.blkFaultWrite a0 a1 a2) := of_none _ rfl
theorem blkFmaskWrite (a0 : Requester) (a1 : BitVec 6) (a2 : U64) : Statement (.blkFmaskWrite a0 a1 a2) := of_none _ rfl
theorem blkIrqWrite (a0 : Requester) (a1 : BitVec 6) (a2 : U64) : Statement (.blkIrqWrite a0 a1 a2) := of_none _ rfl
theorem blkAck (a0 : Requester) (a1 : BitVec 6) : Statement (.blkAck a0 a1) := of_none _ rfl
theorem graceExpiry (a0 : BitVec 6) : Statement (.graceExpiry a0) := of_none _ rfl
theorem soCmdWrite (a0 : Requester) (a1 : U64) : Statement (.soCmdWrite a0 a1) := of_none _ rfl
theorem safeNLow (a0 : Nat) : Statement (.safeNLow a0) := of_none _ rfl
theorem soRbMism (a0 : Fin 4) : Statement (.soRbMism a0) := of_none _ rfl
theorem safeExit (a0 : Requester) : Statement (.safeExit a0) := of_none _ rfl
theorem logEntryWrite (a0 : Bool) : Statement (.logEntryWrite a0) := of_none _ rfl
theorem mirrorNow (a0 : Requester) : Statement (.mirrorNow a0) := of_none _ rfl
theorem mirrorPeriod : Statement (.mirrorPeriod) := of_none _ rfl
theorem mirrorThresh : Statement (.mirrorThresh) := of_none _ rfl
theorem mirrorSegmentDone (a0 : Status) (a1 : Bool) : Statement (.mirrorSegmentDone a0 a1) := of_none _ rfl
theorem logClear (a0 : Requester) : Statement (.logClear a0) := of_none _ rfl
theorem spareVote : Statement (.spareVote) := of_none _ rfl
theorem logRdRead (a0 : Requester) (a1 : Fin 4) : Statement (.logRdRead a0 a1) := of_none _ rfl
theorem inputFilterChange (a0 : Fin 5) : Statement (.inputFilterChange a0) := of_none _ rfl
theorem chatter (a0 : Fin 5) : Statement (.chatter a0) := of_none _ rfl
theorem chatterRunEnd (a0 : Fin 5) : Statement (.chatterRunEnd a0) := of_none _ rfl
theorem wakeStuck (a0 : Fin 4) : Statement (.wakeStuck a0) := of_none _ rfl
theorem serviceStuck : Statement (.serviceStuck) := of_none _ rfl
theorem serviceStuckRelease : Statement (.serviceStuckRelease) := of_none _ rfl
theorem presenceWindowExpiry : Statement (.presenceWindowExpiry) := of_none _ rfl
theorem sealSample (a0 : Bool) : Statement (.sealSample a0) := of_none _ rfl
theorem estopLow (a0 : Fin 2) (a1 : Nat) : Statement (.estopLow a0 a1) := of_none _ rfl
theorem estopRise (a0 : Fin 2) : Statement (.estopRise a0) := of_none _ rfl
theorem estopDisc : Statement (.estopDisc) := of_none _ rfl
theorem estopStable : Statement (.estopStable) := of_none _ rfl
theorem touchScan (a0 : List (BitVec 16)) : Statement (.touchScan a0) := of_none _ rfl
theorem touchStuck (a0 : Fin 8) : Statement (.touchStuck a0) := of_none _ rfl
theorem pcieMemWrite (a0 : Fin 3) (a1 : Nat) (a2 : List Byte) : Statement (.pcieMemWrite a0 a1 a2) := of_none _ rfl
theorem pcieMemRead (a0 : Fin 3) (a1 : Nat) (a2 : Nat) : Statement (.pcieMemRead a0 a1 a2) := of_none _ rfl
theorem pcieAtomicOp (a0 : Fin 3) (a1 : Nat) (a2 : MemOp) : Statement (.pcieAtomicOp a0 a1 a2) := of_none _ rfl
theorem perstNLow : Statement (.perstNLow) := of_none _ rfl
theorem flr : Statement (.flr) := of_none _ rfl
theorem hotReset : Statement (.hotReset) := of_none _ rfl
theorem regRd (a0 : Addr) (a1 : Byte) : Statement (.regRd a0 a1) := of_none _ rfl
theorem regWr (a0 : Addr) (a1 : Byte) (a2 : List Byte) : Statement (.regWr a0 a1 a2) := of_none _ rfl
theorem buoyRd (a0 : Addr) (a1 : Byte) (a2 : U32) (a3 : BitVec 16) : Statement (.buoyRd a0 a1 a2 a3) := of_none _ rfl
theorem buoyRdPoll : Statement (.buoyRdPoll) := of_none _ rfl
theorem memRd (a0 : Addr) (a1 : Byte) : Statement (.memRd a0 a1) := of_none _ rfl
theorem memWr (a0 : Addr) (a1 : Byte) (a2 : List Byte) : Statement (.memWr a0 a1 a2) := of_none _ rfl
theorem spiStatus : Statement (.spiStatus) := of_none _ rfl
theorem spiCsNRise : Statement (.spiCsNRise) := of_none _ rfl
theorem i3cPrivateWrite (a0 : List Byte) : Statement (.i3cPrivateWrite a0) := of_none _ rfl
theorem i3cPrivateRead : Statement (.i3cPrivateRead) := of_none _ rfl
theorem entdaa (a0 : BitVec 7) : Statement (.entdaa a0) := of_none _ rfl
theorem setdasa (a0 : BitVec 7) (a1 : BitVec 7) : Statement (.setdasa a0 a1) := of_none _ rfl
theorem setnewda (a0 : BitVec 7) : Statement (.setnewda a0) := of_none _ rfl
theorem rstdaa : Statement (.rstdaa) := of_none _ rfl
theorem enec : Statement (.enec) := of_none _ rfl
theorem disec : Statement (.disec) := of_none _ rfl
theorem getpid : Statement (.getpid) := of_none _ rfl
theorem getbcr : Statement (.getbcr) := of_none _ rfl
theorem getdcr : Statement (.getdcr) := of_none _ rfl
theorem getstatus : Statement (.getstatus) := of_none _ rfl
theorem getmwl : Statement (.getmwl) := of_none _ rfl
theorem getmrl : Statement (.getmrl) := of_none _ rfl
theorem canReceive (a0 : Fin 4) (a1 : CanFrame) (a2 : Bool) (a3 : U64) : Statement (.canReceive a0 a1 a2 a3) := of_none _ rfl
theorem canTransmit (a0 : Fin 4) (a1 : CanTxResult) : Statement (.canTransmit a0 a1) := of_none _ rfl
theorem canBusoffRecovery (a0 : Fin 4) : Statement (.canBusoffRecovery a0) := of_none _ rfl
theorem ethReceive (a0 : Fin 2) (a1 : List Byte) (a2 : Bool) (a3 : U64) : Statement (.ethReceive a0 a1 a2 a3) := of_none _ rfl
theorem ethKick (a0 : Requester) (a1 : Fin 2) : Statement (.ethKick a0 a1) := of_none _ rfl
theorem ethTransmitDone (a0 : EthSent) : Statement (.ethTransmitDone a0) := of_none _ rfl
theorem ethMdio (a0 : Requester) (a1 : Fin 2) (a2 : U64) (a3 : BitVec 16) : Statement (.ethMdio a0 a1 a2 a3) := of_none _ rfl
theorem xspiRead (a0 : Requester) (a1 : Addr) : Statement (.xspiRead a0 a1) := of_none _ rfl
theorem xspiProgram (a0 : Requester) (a1 : Addr) : Statement (.xspiProgram a0 a1) := of_none _ rfl
theorem xspiErase4k (a0 : Requester) : Statement (.xspiErase4k a0) := of_none _ rfl
theorem xspiErase64k (a0 : Requester) : Statement (.xspiErase64k a0) := of_none _ rfl
theorem xspiOpDone (a0 : Bool) : Statement (.xspiOpDone a0) := of_none _ rfl
theorem spicStart (a0 : Fin 4) : Statement (.spicStart a0) := of_none _ rfl
theorem spicDone (a0 : Fin 4) (a1 : List Byte) : Statement (.spicDone a0 a1) := of_none _ rfl
theorem uartReceive (a0 : Byte) (a1 : Bool) (a2 : Bool) : Statement (.uartReceive a0 a1 a2) := of_none _ rfl
theorem uartTransmit (a0 : Requester) (a1 : Byte) : Statement (.uartTransmit a0 a1) := of_none _ rfl
theorem bypass : Statement (.bypass) := of_none _ rfl
theorem idcode : Statement (.idcode) := of_none _ rfl
theorem samplePreload (a0 : Nat) : Statement (.samplePreload a0) := of_none _ rfl
theorem extest (a0 : Nat) : Statement (.extest a0) := of_none _ rfl
theorem clamp : Statement (.clamp) := of_none _ rfl
theorem debug (a0 : Addr) (a1 : MemOp) : Statement (.debug a0 a1) := of_none _ rfl
theorem svcLeaveWrite (a0 : Requester) : Statement (.svcLeaveWrite a0) := of_none _ rfl
theorem pcieConfigRequest (a0 : Option Bool) : Statement (.pcieConfigRequest a0) := of_none _ rfl
theorem pcieLinkDown : Statement (.pcieLinkDown) := of_none _ rfl
theorem pcieLinkUp (a0 : BitVec 3) (a1 : BitVec 3) : Statement (.pcieLinkUp a0 a1) := of_none _ rfl
theorem ethLinkDown (a0 : Fin 2) : Statement (.ethLinkDown a0) := of_none _ rfl
theorem safeNHigh : Statement (.safeNHigh) := of_none _ rfl
theorem safeFbChange (a0 : Fin 4) (a1 : Bool) : Statement (.safeFbChange a0 a1) := of_none _ rfl
theorem aoIoRailsInRange : Statement (.aoIoRailsInRange) := of_none _ rfl
theorem safepolPinChange (a0 : Bool) : Statement (.safepolPinChange a0) := of_none _ rfl
theorem xtalStartTimeout : Statement (.xtalStartTimeout) := of_none _ rfl
theorem linkDetect (a0 : Fin 4) (a1 : BitVec 8) : Statement (.linkDetect a0 a1) := of_none _ rfl
theorem domainSwitchGroup : Statement (.domainSwitchGroup) := of_none _ rfl
theorem spiBadFrame (a0 : Nat) : Statement (.spiBadFrame a0) := of_none _ rfl
theorem i3cOtherCcc (a0 : Byte) : Statement (.i3cOtherCcc a0) := of_none _ rfl
theorem canEnWrite (a0 : Requester) (a1 : Fin 4) (a2 : U64) : Statement (.canEnWrite a0 a1 a2) := of_none _ rfl

end ListedOpcode

end Sys2Proof.Laws
end

