-- ==== Sys2Proof/Laws/Seq.lean ====
section
/-! SUPPORT. The Berth sequencer: what issue answers, what moving on, jumping and writing a register change, and what a
sequencer fault leaves. -/

namespace Sys2Proof.Machine

/-! ## Registers of a Berth -/

theorem Berth.gr_zero (b : Berth) : b.gr 0 = 0 := rfl

theorem Berth.gr_setG_same (b : Berth) (r : Nat) (v : U64) : (b.setG r v).gr r = if r = 0 then 0 else v := by
  unfold Berth.setG Berth.gr
  by_cases h : r = 0
  · simp [h]
  · simp [h]

theorem Berth.gr_setG_other (b : Berth) (r i : Nat) (v : U64) (h : i ≠ r) : (b.setG r v).gr i = b.gr i := by
  unfold Berth.setG Berth.gr
  by_cases hr : r = 0
  · simp [hr]
  · simp [hr, Tab.get_set_other _ _ _ _ _ _ h]

@[simp] theorem Berth.ar_setA_same (b : Berth) (r : Nat) (v : Addr) : (b.setA r v).ar r = v := Tab.get_set_same _ _ _ _
theorem Berth.ar_setA_other (b : Berth) (r i : Nat) (v : Addr) (h : i ≠ r) : (b.setA r v).ar i = b.ar i :=
  Tab.get_set_other _ _ _ _ _ _ h
@[simp] theorem Berth.lr_setL_same (b : Berth) (r : Nat) (v : U32) : (b.setL r v).lr r = v := Tab.get_set_same _ _ _ _

/-- Writing Gd changes the general registers only. -/
theorem Berth.setG_eq (b : Berth) (r : Nat) (v : U64) : b.setG r v = { b with g := (b.setG r v).g } := by
  unfold Berth.setG; split <;> rfl

@[simp] theorem Berth.setG_a (b : Berth) (r : Nat) (v : U64) : (b.setG r v).a = b.a := by rw [Berth.setG_eq]
@[simp] theorem Berth.setG_l (b : Berth) (r : Nat) (v : U64) : (b.setG r v).l = b.l := by rw [Berth.setG_eq]
@[simp] theorem Berth.setG_pc (b : Berth) (r : Nat) (v : U64) : (b.setG r v).pc = b.pc := by rw [Berth.setG_eq]
@[simp] theorem Berth.setG_loops (b : Berth) (r : Nat) (v : U64) : (b.setG r v).loops = b.loops := by rw [Berth.setG_eq]
@[simp] theorem Berth.setG_seq (b : Berth) (r : Nat) (v : U64) : (b.setG r v).seq = b.seq := by rw [Berth.setG_eq]
@[simp] theorem Berth.setG_wait (b : Berth) (r : Nat) (v : U64) : (b.setG r v).wait = b.wait := by rw [Berth.setG_eq]
@[simp] theorem Berth.setG_z (b : Berth) (r : Nat) (v : U64) : (b.setG r v).z = b.z := by rw [Berth.setG_eq]
@[simp] theorem Berth.setG_nf (b : Berth) (r : Nat) (v : U64) : (b.setG r v).nf = b.nf := by rw [Berth.setG_eq]
@[simp] theorem Berth.setG_c (b : Berth) (r : Nat) (v : U64) : (b.setG r v).c = b.c := by rw [Berth.setG_eq]
@[simp] theorem Berth.setG_e (b : Berth) (r : Nat) (v : U64) : (b.setG r v).e = b.e := by rw [Berth.setG_eq]
@[simp] theorem Berth.setG_stopReq (b : Berth) (r : Nat) (v : U64) : (b.setG r v).stopReq = b.stopReq := by rw [Berth.setG_eq]
@[simp] theorem Berth.ar_setG (b : Berth) (r i : Nat) (v : U64) : (b.setG r v).ar i = b.ar i := by
  unfold Berth.ar; rw [Berth.setG_a]
@[simp] theorem Berth.gr_setA (b : Berth) (r i : Nat) (v : Addr) : (b.setA r v).gr i = b.gr i := rfl

/-! ## Moving on -/

@[simp] theorem Berth.gr_next (b : Berth) (i : Nat) : b.next.gr i = b.gr i := rfl
@[simp] theorem Berth.ar_next (b : Berth) (i : Nat) : b.next.ar i = b.ar i := rfl
@[simp] theorem Berth.next_z (b : Berth) : b.next.z = b.z := rfl
@[simp] theorem Berth.next_nf (b : Berth) : b.next.nf = b.nf := rfl
@[simp] theorem Berth.next_c (b : Berth) : b.next.c = b.c := rfl
@[simp] theorem Berth.next_e (b : Berth) : b.next.e = b.e := rfl
@[simp] theorem Berth.next_seq (b : Berth) : b.next.seq = b.seq := rfl
@[simp] theorem Berth.next_wait (b : Berth) : b.next.wait = b.wait := rfl
@[simp] theorem Berth.next_stopReq (b : Berth) : b.next.stopReq = b.stopReq := rfl
@[simp] theorem Berth.next_woq (b : Berth) : b.next.woq = b.woq := rfl
@[simp] theorem Berth.next_cgs (b : Berth) : b.next.cgs = b.cgs := rfl

/-- Outside a loop the next instruction is the following one. -/
theorem Berth.next_pc (b : Berth) (h : b.loops = []) : b.next.pc = b.pc + 1 := by
  unfold Berth.next Berth.nextFrom; simp [h, stepLoops]

theorem Berth.nextFrom_pc (b : Berth) (p : Nat) (h : b.loops = []) : (b.nextFrom p).pc = p + 1 := by
  unfold Berth.nextFrom; simp [h, stepLoops]

/-! ## An instruction that retires after a wait -/

@[simp] theorem Berth.resume_seq (b : Berth) : b.resume.seq = if b.stopReq then .stopped else .running := rfl
@[simp] theorem Berth.resume_wait (b : Berth) : b.resume.wait = .none := rfl
@[simp] theorem Berth.resume_stopReq (b : Berth) : b.resume.stopReq = false := rfl
@[simp] theorem Berth.gr_resume (b : Berth) (i : Nat) : b.resume.gr i = b.gr i := rfl
@[simp] theorem Berth.ar_resume (b : Berth) (i : Nat) : b.resume.ar i = b.ar i := rfl
@[simp] theorem Berth.resume_z (b : Berth) : b.resume.z = b.z := rfl
@[simp] theorem Berth.resume_nf (b : Berth) : b.resume.nf = b.nf := rfl
@[simp] theorem Berth.resume_c (b : Berth) : b.resume.c = b.c := rfl
@[simp] theorem Berth.resume_e (b : Berth) : b.resume.e = b.e := rfl
@[simp] theorem Berth.resume_woq (b : Berth) : b.resume.woq = b.woq := rfl

/-! ## Issue -/

/-- A sequencer that can issue performs what its fetch names, on the state after the fetch, if the word is of the kind asked for. -/
theorem State.issueWord_ready (s : State) (n : Fin 32) (is : U32 → Bool) (k : U32 → State → State) (hi : s.issues n = true)
    (hp : (s.berth n).pc < s.progWords n) (hf : (s.fetch n).st = .ok) :
    s.issueWord n is k = .next (if is (s.wordAt n) then k (s.wordAt n) (s.fetch n).s else s) := by
  unfold State.issueWord State.wordAt
  simp only [hi, Bool.not_true, Bool.false_eq_true, if_false, Nat.not_le.mpr hp, hf]
  split <;> rfl

/-- A sequencer that can issue and fetches the instruction's word performs the instruction. -/
theorem State.issue_ready (s : State) (i : Instr) (n : Fin 32) (k : U32 → State → State) (hi : s.issues n = true)
    (hp : (s.berth n).pc < s.progWords n) (hf : (s.fetch n).st = .ok) (hw : seqWord i = some (s.wordAt n)) :
    s.issue i n k = .next (k (s.wordAt n) (s.fetch n).s) := by
  unfold State.issue
  rw [State.issueWord_ready s n _ k hi hp hf]
  simp [hw]

/-- An instruction that the counter does not point at performs nothing. -/
theorem State.issue_other (s : State) (i : Instr) (n : Fin 32) (k : U32 → State → State) (hi : s.issues n = true)
    (hp : (s.berth n).pc < s.progWords n) (hf : (s.fetch n).st = .ok) (hw : seqWord i ≠ some (s.wordAt n)) :
    s.issue i n k = .next s := by
  unfold State.issue
  rw [State.issueWord_ready s n _ k hi hp hf]
  simp [hw]

/-- A sequencer that cannot issue performs nothing. -/
theorem State.issueWord_idle (s : State) (n : Fin 32) (is : U32 → Bool) (k : U32 → State → State) (hi : s.issues n = false) :
    s.issueWord n is k = .next s := by
  unfold State.issueWord
  simp [hi]

theorem State.issue_idle (s : State) (i : Instr) (n : Fin 32) (k : U32 → State → State) (hi : s.issues n = false) :
    s.issue i n k = .next s := State.issueWord_idle s n _ k hi

/-- A program counter outside the program region stops the sequencer with SEQ_FETCH. -/
theorem State.issueWord_outside (s : State) (n : Fin 32) (is : U32 → Bool) (k : U32 → State → State) (hi : s.issues n = true)
    (hp : s.progWords n ≤ (s.berth n).pc) : s.issueWord n is k = .next (s.seqStop n 9 1 0) := by
  unfold State.issueWord
  simp [hi, hp]

theorem State.issue_outside (s : State) (i : Instr) (n : Fin 32) (k : U32 → State → State) (hi : s.issues n = true)
    (hp : s.progWords n ≤ (s.berth n).pc) : s.issue i n k = .next (s.seqStop n 9 1 0) :=
  State.issueWord_outside s n _ k hi hp

theorem State.issues_running (s : State) (n : Nat) (h : s.issues n = true) :
    (s.berth n).seq = .running ∧ (s.berth n).wait = .none := by
  simp only [State.issues, Bool.and_eq_true, beq_iff_eq] at h
  exact ⟨h.1.2, h.2⟩

/-- The fetch of an instruction changes no Berth, no byte and no clock. -/
theorem State.fetch_checked (s : State) (n : Fin 32) (h : (s.fetch n).st = .ok) : s.Checked (s.fetch n).s := by
  unfold State.fetch at h ⊢
  exact State.readHold_checked s _ _ _ _ h

/-! ## A sequencer fault -/

theorem State.seqFlt_recorded (s : State) (n group cause pc : Nat) (word : U32) : s.Recorded (s.seqFlt n group cause pc word) := by
  unfold State.seqFlt
  split
  · exact State.Recorded.refl s
  · exact State.setReg_recorded _ _ _ _ _

/-- A sequencer fault stops the sequencer; memory, the other Berths and this Berth's registers and flags stay. -/
theorem State.seqStop_berth (s : State) (n group cause : Nat) (word : U32) :
    (s.seqStop n group cause word).berth n = { s.berth n with seq := .faulted, wait := .none } := by
  unfold State.seqStop
  dsimp only
  have := (State.record_recorded ((s.seqFlt n group cause (s.berth n).pc word).setBerth n { s.berth n with seq := .faulted, wait := .none })
    (bslot n) group).berths
  unfold State.berth at this ⊢
  rw [this]
  exact Tab.get_set_same _ _ _ _

theorem State.seqStop_mem (s : State) (n group cause : Nat) (word : U32) : (s.seqStop n group cause word).mem = s.mem := by
  unfold State.seqStop
  exact (State.record_recorded _ _ _).mem.trans ((State.setBerth_mem _ _ _).trans (State.seqFlt_recorded s _ _ _ _ _).mem)

end Sys2Proof.Machine
end

