-- ==== Sys2Proof/Tests/Slice0.lean ====
section
/-! SUPPORT. Tests: ill-formed terms are refused, words of Tables 4-1 and 4-2 decode, single steps agree with the manual, and for each
statement with hypotheses a state and operands that meet them, clause by clause. -/

open Sys2Proof Sys2Proof.Machine Sys2Proof.Claims

set_option Elab.async false

namespace Sys2Proof.Tests

/-! ## Ill-formed terms -/

/-- R45 and R43: a request has 1 to 256 bytes. -/
theorem test_wf_registerWrite : Instr.wellFormed (.registerWrite .pilot 0 0 0 true) = false := by decide
theorem test_wf_registerWrite_long : Instr.wellFormed (.registerWrite .pilot 0 257 0 true) = false := by decide
theorem test_wf_memoryRequest : Instr.wellFormed (.memoryRequest .pilot 0 0 0 (.read 0)) = false := by decide
theorem test_wf_memoryRequest_long : Instr.wellFormed (.memoryRequest .pilot 0 0 0 (.read 257)) = false := by decide
theorem test_wf_memoryRequest_write : Instr.wellFormed (.memoryRequest .pilot 0 0 0 (.write [])) = false := by decide
theorem test_wf_memoryTrainingDone : Instr.wellFormed (.memoryTrainingDone 5 0) = false := by decide
theorem test_wf_memoryTrainingDone_second : Instr.wellFormed (.memoryTrainingDone 0 7) = false := by decide
theorem test_wf_chartBatch : Instr.wellFormed (.chartBatch 2 0 0xF8001 0 0) = false := by decide
theorem test_wf_domainOn : Instr.wellFormed (.domainOn 0 [⟨64, 0, 0, 0⟩]) = false := by decide
theorem test_wf_segmentRequest : Instr.wellFormed (.segmentRequest .pilot 65537 0) = false := by decide
theorem test_wf_scInjectionWindow : Instr.wellFormed (.scInjectionWindow ⟨1, 0, 0, 16⟩) = false := by decide
theorem test_wf_linePacket : Instr.wellFormed (.linePacket 0 0 0 (List.replicate 65536 0) .ok true) = false := by decide +kernel
theorem test_wf_packet (p : Packet) (h : 16384 < p.data.length) :
    Instr.wellFormed (.headFlitRoute none p) = false ∧ Instr.wellFormed (.boardWindowRequest p) = false ∧
    Instr.wellFormed (.resp p) = false ∧ Instr.wellFormed (.flitGroup 0 0 true [p]) = false := by
  have : p.wellFormed = false := by simp [Packet.wellFormed]; omega
  simp [Instr.wellFormed, this]
theorem test_wf_bseg : Instr.wellFormed (.bseg 0 0 0 0 true true (List.replicate 16385 0)) = false := by decide +kernel
theorem test_wf_touchScan : Instr.wellFormed (.touchScan [0, 0]) = false := by decide
theorem test_wf_pcieMemWrite : Instr.wellFormed (.pcieMemWrite 0 0 []) = false := by decide
theorem test_wf_pcieMemRead : Instr.wellFormed (.pcieMemRead 0 0 4097) = false := by decide
theorem test_wf_pcieAtomicOp : Instr.wellFormed (.pcieAtomicOp 2 0 (.read 8)) = false := by decide
theorem test_wf_regWr : Instr.wellFormed (.regWr 0 7 (List.replicate 257 0)) = false := by decide +kernel
theorem test_wf_memWr : Instr.wellFormed (.memWr 0 7 (List.replicate 257 0)) = false := by decide +kernel
theorem test_wf_i3cPrivateWrite : Instr.wellFormed (.i3cPrivateWrite (List.replicate 269 0)) = false := by decide +kernel
theorem test_wf_ethReceive : Instr.wellFormed (.ethReceive 0 (List.replicate 13 0) true 0) = false := by decide
theorem test_wf_spicDone : Instr.wellFormed (.spicDone 0 (List.replicate 4097 0)) = false := by decide +kernel
theorem test_wf_debug : Instr.wellFormed (.debug 0 (.read 0)) = false := by decide
theorem test_wf_pcieLinkUp : Instr.wellFormed (.pcieLinkUp 0 0) = false := by decide
theorem test_wf_pcieLinkUp_high : Instr.wellFormed (.pcieLinkUp 6 0) = false := by decide
theorem test_wf_spiBadFrame : Instr.wellFormed (.spiBadFrame 6) = false := by decide

/-- Table 18: a CAN frame of more than 8 bytes, a CAN FD remote frame, and a bit-rate switch without CAN FD. -/
theorem test_wf_canReceive (x : CanFrame) (h : x.fdf = false) (h9 : 8 < x.data.length) :
    Instr.wellFormed (.canReceive 0 x true 0) = false := by simp [Instr.wellFormed, CanFrame.wellFormed, h]; omega
theorem test_wf_canReceive_remote (x : CanFrame) (h : x.fdf = true) (hr : x.rtr = true) :
    Instr.wellFormed (.canReceive 0 x true 0) = false := by simp [Instr.wellFormed, CanFrame.wellFormed, h, hr]
theorem test_wf_canReceive_brs (x : CanFrame) (h : x.fdf = false) (hb : x.brs = true) :
    Instr.wellFormed (.canReceive 0 x true 0) = false := by simp [Instr.wellFormed, CanFrame.wellFormed, h, hb]

/-! ## Words (Tables 4-1, 4-2, 4-3; R123 to R126) -/

/-- SUB G1, G2, G3: opcode 0x02 in [31:26], 1 in [25:22], 2 in [21:18], 3 in [17:14]. -/
theorem test_word_sub : seqDecode 0 (BitVec.ofNat 32 0b00001000010010001100000000000000) = some (.sub 0 1 2 3) := by decide
/-- ADDI G1, G2, -1: opcode 0x10 and imm18 all ones. -/
theorem test_word_addi : seqDecode 0 (BitVec.ofNat 32 0b01000000010010111111111111111111) = some (.addi 0 1 2 (-1)) := by decide
/-- STW G15, A7 + 4: opcode 0x23. -/
theorem test_word_stw : seqDecode 0 (BitVec.ofNat 32 0b10001111110111000000000000000100) = some (.stw 0 15 7 4) := by decide
/-- B with condition 8 (E clear) and offset -1: opcode 0x28. -/
theorem test_word_b : seqDecode 0 (BitVec.ofNat 32 0b10100010001111111111111111111111) = some (.b 0 8 (-1)) := by decide
/-- LOOPI L2 with count 5 and body length 9: opcode 0x2D. -/
theorem test_word_loopi : seqDecode 0 (BitVec.ofNat 32 0b10110110000000000101000000001001) = some (.loopi 0 2 5 9) := by decide
/-- WO G1, A2: opcode 0x30. -/
theorem test_word_wo : seqDecode 0 (BitVec.ofNat 32 0b11000000010010000000000000000000) = some (.wo 0 1 2) := by decide
/-- RELQ 3: opcode 0x34 and the queue in [25:24]. -/
theorem test_word_relq : seqDecode 0 (BitVec.ofNat 32 0b11010011000000000000000000000000) = some (.relq 0 3) := by decide
/-- STAMP G4, 63: opcode 0x3A. -/
theorem test_word_stamp : seqDecode 0 (BitVec.ofNat 32 0b11101000000100000000000000111111) = some (.stamp 0 4 63) := by decide
/-- An address register above A7, a reserved condition and POLL unit 3 are illegal (R125, Table 4-3, R141). -/
theorem test_word_illegal : illegalCause 0x80200000 = 2 ∧ illegalCause 0xA2C00000 = 4 ∧ illegalCause 0xCC003000 = 5 := by decide

/-! ## Small states -/

/-- A device in Run with every domain on. -/
def base : State :=
  { State.reset with dev := .run, pins := { State.reset.pins with porLow := false, rails := true },
                     doms := (List.range 44).map fun d => (d, { power := .on }) }

/-- Berth 3 runs a program of 1024 words at offset 0 of its Hold. -/
def prog : State := (base.setFld (bslot 3) F.SEQ_CFG_PROG_SIZE 0 1).setBerth 3 { base.berth 3 with seq := .running }

/-- The same with registers. -/
def progG (g : Tab U64) (a : Tab Addr) : State := prog.setBerth 3 { prog.berth 3 with g := g, a := a }

/-- The word of instruction `i` stands at the counter of Berth 3. -/
def code (i : Instr) (s : State) : State :=
  s.putBytes (holdBase 3 + 4 * (s.berth 3).pc) (leBytes 4 ((seqWord i).getD 0).toNat)

/-- Berth 3 is ready to issue `i`, whose word stands at its counter. -/
def issuing (i : Instr) (s : State) : Bool :=
  s.issues 3 && decide ((s.berth 3).pc < s.progWords 3) && (s.fetch 3).st == .ok && seqWord i == some (s.wordAt 3)

theorem ready_of {i : Instr} {s : State} (h : issuing i s = true) : Ready 3 s ∧ Fetches 3 i s := by
  simp only [issuing, Bool.and_eq_true, decide_eq_true_eq, beq_iff_eq] at h
  exact ⟨⟨h.1.1.1, h.1.1.2, h.1.2⟩, h.2⟩

/-! ## States that meet the hypotheses of the statements -/

theorem witness_IdleStepIsOneNanosecond : State.reset.pending = [] ∧ State.reset.clk.running = false ∧ base.pending = [] ∧
    ({ base with clk := { base.clk with running := true } } : State).clk.running = true := by decide +kernel

theorem witness_MemoryKeepsCanonicalForm : (base.putByte 5 1).memoryWf = true := by decide +kernel

theorem witness_WriteChangesOnlyItsBytes :
    (base.writeAt .pilot (.basin 8) [1, 2]).st = .ok ∧ (base.writeAt .pilot .hole [1, 2]).st ≠ .ok := by decide +kernel
theorem witness_WriteChangesOnlyItsBytes_outside : (∀ k, 7 ≠ holdsAt k) ∧ 7 < offsetOf (.basin 8) := by
  constructor
  · intro k; unfold holdsAt pageTables; omega
  · decide

theorem witness_RegisterAccessShape : ¬ ((4 = 4 ∨ 4 = 8) ∧ 2 % 4 = 0) ∧ ¬ ((2 = 4 ∨ 2 = 8) ∧ 0 % 2 = 0) ∧
    ¬ (([0, 0, 0, 0] : List Byte).length = 8 ∧ 0 % 8 = 0) ∧ holeGroup (.berth 3) = some (0x23, 0) := by decide

theorem witness_RomAndTablesRefuseWrites : base.serves 0xFF = true ∧ base.serves 32 = true ∧ base.serves 33 = true ∧
    Requester.berth 0 ≠ .wharfinger ∧ Requester.berth 0 ≠ .dredger ∧ Requester.berth 0 ≠ .pilot := by decide +kernel

theorem witness_AtomicsReturnTheOldValue : base.serves 43 = true ∧ base.refusesWrite (.berth 3) (.basin 0xFFFFF8) 8 = false ∧
    base.eccOf (basinBase + 0xFFFFF8) 0 = 0 := by decide +kernel

theorem witness_SequencerWordsRoundTrip : seqWord (.shli 3 1 2 63) = some 0x5048003F ∧ illegalCause 0x5048003F = 0 := by decide
theorem witness_LegalWordsAreTheDecodedOnes : seqDecode 3 0x5048003F = some (.shli 3 1 2 63) := by decide

/-- Each instruction of a list is issued by a Berth at whose counter its word stands. -/
theorem all_ready {l : List Instr} {s : State} (h : (l.all fun i => issuing i (code i s)) = true) :
    ∀ i ∈ l, Ready 3 (code i s) ∧ Fetches 3 i (code i s) := fun i hi => ready_of (List.all_eq_true.mp h i hi)

/-- The register instructions, whose one hypothesis is that Berth 3 issues them. -/
theorem witness_ThreeRegisterInstructions : ∀ i ∈ [Instr.add 3 1 2 15, .sub 3 0 1 1, .mul 3 15 2 3, .and 3 1 2 3, .or 3 1 2 3, .xor 3 1 2 3,
    .shl 3 1 2 3, .shr 3 1 2 3, .sar 3 1 2 3, .min 3 1 2 3, .max 3 1 2 3], Ready 3 (code i prog) ∧ Fetches 3 i (code i prog) :=
  all_ready (by decide +kernel)
theorem witness_ImmediateInstructions : ∀ i ∈ [Instr.addi 3 1 2 (-1), .andi 3 1 2 0x3FFFF, .ori 3 0 2 1, .xori 3 1 2 1, .movi 3 1 (-1),
    .movhi 3 1 3 0xFFFF, .gmov 3 1 7, .rdtide 3 0], Ready 3 (code i prog) ∧ Fetches 3 i (code i prog) := all_ready (by decide +kernel)
theorem witness_ComparisonsSetTheFlags : ∀ i ∈ [Instr.cmp 3 0 15, .cmpi 3 1 (-1)], Ready 3 (code i prog) ∧ Fetches 3 i (code i prog) :=
  all_ready (by decide +kernel)
theorem witness_AddressRegisterInstructions : ∀ i ∈ [Instr.amov 3 7 15, .aaddi 3 7 0 (-1)], Ready 3 (code i prog) ∧ Fetches 3 i (code i prog) :=
  all_ready (by decide +kernel)
theorem witness_ImmediateShifts : (∀ i ∈ [Instr.shli 3 1 2 63, .shri 3 1 2 63, .sari 3 1 2 63, .shli 3 1 2 64, .shri 3 1 2 64, .sari 3 1 2 64],
    Ready 3 (code i prog) ∧ Fetches 3 i (code i prog)) ∧ (63 : BitVec 18).toNat < 64 ∧ 64 ≤ (64 : BitVec 18).toNat :=
  ⟨all_ready (by decide +kernel), by decide, by decide⟩
theorem witness_BranchesAndCalls : (∀ i ∈ [Instr.b 3 0 (-1), .b 3 10 5, .b 3 1 5, .b 3 11 5, .call 3 7, .ret 3],
      Ready 3 (code i prog) ∧ Fetches 3 i (code i prog)) ∧
    ((fetched 3 (code (.b 3 0 (-1)) prog)).berth 3).cond (0 : BitVec 4).toNat = some true ∧
    ((fetched 3 (code (.b 3 10 5) prog)).berth 3).cond (10 : BitVec 4).toNat = some true ∧
    ((fetched 3 (code (.b 3 1 5) prog)).berth 3).cond (1 : BitVec 4).toNat = some false ∧ 11 ≤ (11 : BitVec 4).toNat :=
  ⟨all_ready (by decide +kernel), by decide +kernel, by decide +kernel, by decide +kernel, by decide⟩

/-- Loop 0 with the body 1 to 10 is active. -/
def looping : State := prog.setBerth 3 { prog.berth 3 with loops := [⟨0, 1, 10⟩], l := [(0, 2)], pc := 2, g := [(1, 7)] }

/-- The bound of each clause: body length 0, an active counter, an end at the first word beyond the program region and at the first word
beyond the active loop; and bodies that end at the last word of each. -/
theorem witness_LoopsStartOrFault :
    (∀ i ∈ [Instr.loop 3 1 1 0, .loopi 3 0 5 8, .loop 3 1 1 9, .loop 3 1 1 8, .loop 3 1 2 8, .loopi 3 1 4095 8, .loopi 3 1 0 8],
      Ready 3 (code i looping) ∧ Fetches 3 i (code i looping)) ∧
    (let f := fetched 3 (code (.loop 3 1 1 8) looping);
      (0 : BitVec 12).toNat = 0 ∧ (∃ p ∈ (f.berth 3).loops, p.ctr = 0) ∧
      (∃ p ∈ (f.berth 3).loops, p.last < (f.berth 3).pc + (9 : BitVec 12).toNat) ∧
      ¬ (∃ p ∈ (f.berth 3).loops, p.ctr = 1 ∨ p.last < (f.berth 3).pc + (8 : BitVec 12).toNat) ∧
      (f.berth 3).pc + (8 : BitVec 12).toNat < f.progWords 3 ∧ (G 3 f 1).toNat % 2 ^ 32 ≠ 0 ∧ (G 3 f 2).toNat % 2 ^ 32 = 0) :=
  ⟨all_ready (by decide +kernel), by decide +kernel⟩
theorem witness_LoopsStartOrFault_region :
    (∀ i ∈ [Instr.loopi 3 3 1 1024, .loopi 3 3 1 1023], Ready 3 (code i prog) ∧ Fetches 3 i (code i prog)) ∧
    (let f := fetched 3 (code (.loopi 3 3 1 1024) prog);
      f.progWords 3 ≤ (f.berth 3).pc + (1024 : BitVec 12).toNat ∧ (f.berth 3).pc + (1023 : BitVec 12).toNat < f.progWords 3 ∧
      (f.berth 3).loops = []) := ⟨all_ready (by decide +kernel), by decide +kernel⟩

/-- A word of zeros is at the counter of `prog`, and it is illegal. -/
theorem ready_prog : Ready 3 prog := ⟨by decide +kernel, by decide +kernel, by decide +kernel⟩
theorem witness_IllegalInstructionStopsSequencer : Ready 3 prog ∧ (0 : U32) = prog.wordAt 3 ∧ illegalCause 0 ≠ 0 ∧
    (1 : U32) ≠ prog.wordAt 3 ∧ illegalCause 1 ≠ 0 := ⟨ready_prog, by decide +kernel, by decide, by decide +kernel, by decide⟩

theorem witness_StartedSequencerIsCleared : base.fld (bslot 3) F.SEQ_CFG_PROG_SIZE 0 = 0 ∧ prog.fld (bslot 3) F.SEQ_CFG_PROG_SIZE 0 ≠ 0 := by
  decide +kernel

/-- A reserved slot has no register (R43). -/
theorem test_reserved_slot_has_no_register : regAt 0x14 0 = none ∧ regAt 0x13 0 = some (.BLK_ID, 0) := by decide +kernel

/-- Berth 3 with G1 = 7 and address registers 1 to 5: the last 8 bytes of its Hold, the first bytes after its program, a misaligned
address, the last 8 bytes of the Basin, the Manifest and Buoy area. -/
def mems : State := progG [(1, 7)] [(1, 0x80003FFFF8), (2, 0x8000301000), (3, 0x8000301004), (4, 0x8100FFFFF8), (5, 0x8000301001)]

theorem no_ecc (s : State) (h : s.ecc = []) (w c : Nat) : s.eccOf w c = 0 := by unfold State.eccOf; rw [h]; rfl

/-- The address register `a` plus an offset after the fetch of `i` names place `p`, aligned for `size` bytes. -/
def reaches (i : Instr) (a : Fin 8) (k : BitVec 18) (size : Nat) (p : Place) : Bool :=
  let f := fetched 3 (code i mems)
  let x : Addr := A 3 f a + k.signExtend 48
  issuing i (code i mems) && f.berthPlace (3 : Fin 32) x == p && x.toNat % size == 0

theorem witness_OwnHoldLoads : reaches (.ld 3 1 1 0) 1 0 8 (.hold 3 0xFFFF8) = true ∧ reaches (.ldw 3 0 1 4) 1 4 4 (.hold 3 0xFFFFC) = true ∧
    (fetched 3 (code (.ld 3 1 1 0) mems)).lineCgs 3 0xFFFF8 8 = [] ∧ (fetched 3 (code (.ldw 3 0 1 4) mems)).lineCgs 3 0xFFFFC 4 = [] := by
  decide +kernel

theorem witness_OwnHoldStores : reaches (.st 3 1 2 0) 2 0 8 (.hold 3 0x1000) = true ∧
    (fetched 3 (code (.st 3 1 2 0) mems)).refusesWrite (.berth 3) (.hold 3 0x1000) 8 = false ∧
    reaches (.stw 3 1 1 (-4)) 1 (-4) 4 (.hold 3 0xFFFF4) = true ∧
    (fetched 3 (code (.stw 3 1 1 (-4)) mems)).refusesWrite (.berth 3) (.hold 3 0xFFFF4) 4 = false := by decide +kernel
theorem witness_OwnHoldStores_ecc : ∀ w c, (fetched 3 (code (.st 3 1 2 0) mems)).eccOf w c = 0 ∧
    (fetched 3 (code (.stw 3 1 1 (-4)) mems)).eccOf w c = 0 :=
  fun w c => ⟨no_ecc _ (by decide +kernel) w c, no_ecc _ (by decide +kernel) w c⟩

theorem witness_MisalignedAccessIsNotPerformed : (∀ i ∈ [Instr.ld 3 1 3 0, .ldw 3 1 5 0, .fadd 3 1 3 2, .cas 3 1 3 2, .st 3 1 3 0, .stw 3 1 5 0],
      Ready 3 (code i mems) ∧ Fetches 3 i (code i mems)) ∧
    (∀ i ∈ [Instr.ld 3 1 3 0, .ldw 3 1 5 0, .fadd 3 1 3 2, .cas 3 1 3 2, .st 3 1 3 0, .stw 3 1 5 0],
      (A 3 (fetched 3 (code i mems)) 3 + (0 : BitVec 18).signExtend 48).toNat % 8 ≠ 0 ∧
      (A 3 (fetched 3 (code i mems)) 5 + (0 : BitVec 18).signExtend 48).toNat % 4 ≠ 0 ∧ (A 3 (fetched 3 (code i mems)) 3).toNat % 8 ≠ 0) :=
  ⟨all_ready (by decide +kernel), by decide +kernel⟩

/-- Berth 3 waits for an FADD whose completion has arrived. -/
def loaded : State := prog.setBerth 3 { prog.berth 3 with seq := .waiting, wait := .load 1 false, loaded := some (.ok, 9) }
theorem witness_AtomicsWaitForTheirCompletion : ∀ i ∈ [Instr.fadd 3 1 4 2, .cas 3 1 4 2], (Ready 3 (code i mems) ∧ Fetches 3 i (code i mems)) ∧
    (A 3 (fetched 3 (code i mems)) 4).toNat % 8 = 0 ∧ ((fetched 3 (code i mems)).berth 3).cgs = [] ∧
    (∃ o, (fetched 3 (code i mems)).berthPlace (3 : Fin 32) (A 3 (fetched 3 (code i mems)) 4) = .basin o ∨
      (fetched 3 (code i mems)).berthPlace (3 : Fin 32) (A 3 (fetched 3 (code i mems)) 4) = .lpddr o) := by
  intro i hi
  have h : ∀ i ∈ [Instr.fadd 3 1 4 2, .cas 3 1 4 2], (A 3 (fetched 3 (code i mems)) 4).toNat % 8 = 0 ∧
      ((fetched 3 (code i mems)).berth 3).cgs = [] ∧
      (fetched 3 (code i mems)).berthPlace (3 : Fin 32) (A 3 (fetched 3 (code i mems)) 4) = .basin 0xFFFFF8 := by decide +kernel
  exact ⟨all_ready (by decide +kernel) i hi, (h i hi).1, (h i hi).2.1, 0xFFFFF8, Or.inl (h i hi).2.2⟩
theorem witness_AtomicsWaitForTheirCompletion_end : loaded.runs 3 = true ∧ (loaded.berth 3).wait = .load 1 false ∧
    (loaded.berth 3).loaded = some (.ok, 9) := by decide +kernel

/-- Berth 3 has one Crane request outstanding under tag 255 with epoch 3, sent at time 0 or not. -/
def asked (sent : Bool) (now : Nat) : State :=
  let s := prog.setBerth 3 { prog.berth 3 with tags := [(255, ⟨3, 0, 0, 0x8100000000, .read 8, .load, sent⟩)] }
  { s with clk := { s.clk with now := now }, resps := [⟨.berth 3, 255, 3, .ok, [1]⟩, ⟨.berth 3, 0, 0, .ok, [1]⟩] }
theorem witness_CraneRequestsComplete :
    (asked false 0).awake = true ∧
    ((asked false 0).craneNext 3).craneAsks 3 255 3 0x8100000000 (.read 8) = some ⟨3, 0, 0, 0x8100000000, .read 8, .load, false⟩ ∧
    (asked true 0).respFor 3 255 3 = some ⟨.berth 3, 255, 3, .ok, [1]⟩ ∧
    Tab.find ((asked true 0).berth 3).tags 255 = some ⟨3, 0, 0, 0x8100000000, .read 8, .load, true⟩ ∧
    (asked true 0).respFor 3 0 0 = some ⟨.berth 3, 0, 0, .ok, [1]⟩ ∧ Tab.find ((asked true 0).berth 3).tags 0 = none ∧
    0 + 20000 ≤ (asked true 20000).clk.now := by decide +kernel
theorem witness_CraneRequestsComplete_other : base.awake = true ∧ ∀ m, Requester.lighter ≠ .berth m :=
  ⟨by decide +kernel, fun _ h => by cases h⟩

/-- A Manifest of class D to unit 1 of this chip lies at offset 0x1000; `eg` entries wait in that egress. -/
def sends (eg : List Manifest) : State := (mems.setBerth 3 { mems.berth 3 with egD := eg }).putBytes (holdBase 3 + 0x1000) [0, 0, 1, 2]
/-- Berth 3 issues `i`, and the Manifest of `sends`, with its checks, is accepted or not. -/
def sendsOk (i : Instr) (s : State) (acc : Bool) : Bool :=
  let f := fetched 3 (code i s)
  let r := f.readAt (.berth 3) (.hold 3 0x1000) 32
  let m : Manifest := BitVec.ofNat 256 (leNat r.data)
  issuing i (code i s) && f.manifestAt 3 (A 3 f 2) == some 0x1000 && f.lineCgs 3 0x1000 32 == [] && r.st == .ok && r.s.msgBad 3 m == 0 &&
    !r.s.pointsShadow 3 m && r.s.canAccept 3 m == acc
theorem witness_MessagesAreAcceptedOrWait : ∀ i ∈ [Instr.send 3 1 2, .sendnb 3 1 2],
    sendsOk i (sends []) true = true ∧ sendsOk i (sends [0, 0, 0, 0]) false = true := by decide +kernel
theorem witness_MessagesAreAcceptedOrWait_relq : Ready 3 (code (.relq 3 3) prog) ∧ Fetches 3 (.relq 3 3) (code (.relq 3 3) prog) :=
  ready_of (by decide +kernel)
/-- Berth 3 waits in a SEND whose time is up. -/
def mooring (eg : List Manifest) : State :=
  mems.setBerth 3 { mems.berth 3 with egD := eg, seq := .waiting, wait := .send 1 (BitVec.ofNat 256 0x02010000) 0 }
theorem witness_MessagesAreAcceptedOrWait_waiting :
    ((mooring []).berth 3).wait = .send 1 (BitVec.ofNat 256 0x02010000) 0 ∧ (mooring []).serves 3 = true ∧
    (mooring []).canAccept 3 (BitVec.ofNat 256 0x02010000) = true ∧ (mooring [0, 0, 0, 0]).serves 3 = true ∧
    (mooring [0, 0, 0, 0]).canAccept 3 (BitVec.ofNat 256 0x02010000) = false ∧ 0 ≤ (mooring [0, 0, 0, 0]).clk.now := by decide +kernel

/-- The Buoy at offset 0x1000 counts 5; G1 asks for 5, G2 for 6 and G3 for 5 + 2 ^ 31, which is ahead of it. -/
def polls : State := (progG [(1, 5), (2, 6), (3, 0x80000005)] [(2, 0x8000301000)]).putByte (holdBase 3 + 0x1000) 5
/-- A POLL of that word issued by Berth 3 finds its Buoy at the target of Gb, or does not. -/
def pollOk (b : Fin 16) (u : BitVec 2) (k : BitVec 12) (holds : Bool) : Bool :=
  let s := code (.poll 3 1 2 b u k) polls
  let f := fetched 3 s
  let r := f.pollWord 3 0x1000
  issuing (.poll 3 1 2 b u k) s && f.ownOff 3 (A 3 f 2) == some 0x1000 && r.st == .ok &&
    pollHolds (BitVec.ofNat 64 (leNat r.data)) ((G 3 r.s b).setWidth 32) == holds
theorem witness_PollTestsAndWaits : pollOk 1 0 4095 true = true ∧ pollOk 2 2 0 false = true ∧ pollOk 2 1 50 false = true ∧
    pollOk 3 0 1 false = true ∧ issuing (.poll 3 1 2 1 3 0) (code (.poll 3 1 2 1 3 0) polls) = true := by decide +kernel
/-- Berth 3 waits in a POLL of that word until time 0. -/
def polling (w : U32) : State := polls.setBerth 3 { polls.berth 3 with seq := .waiting, wait := .poll 1 0x1000 w 0 }
theorem witness_PollTestsAndWaits_end : (polling 5).serves 3 = true ∧ ((polling 5).berth 3).wait = .poll 1 0x1000 5 0 ∧
    ((polling 5).pollWord 3 0x1000).st = .ok ∧ pollHolds (BitVec.ofNat 64 (leNat ((polling 5).pollWord 3 0x1000).data)) 5 = true ∧
    pollHolds (BitVec.ofNat 64 (leNat ((polling 6).pollWord 3 0x1000).data)) 6 = false ∧ 0 ≤ (polling 6).tide.toNat := by decide +kernel

/-- Berth 3 in a wait. -/
def waits (w : Wait) : State := prog.setBerth 3 { prog.berth 3 with seq := .waiting, wait := w }
theorem witness_WaitsBeginAndEnd : issuing (.waitt 3 0) (code (.waitt 3 0) mems) = true ∧
    (G 3 (fetched 3 (code (.waitt 3 0) mems)) 0).toNat ≤ (fetched 3 (code (.waitt 3 0) mems)).tide.toNat ∧
    issuing (.waitt 3 1) (code (.waitt 3 1) mems) = true ∧
    (fetched 3 (code (.waitt 3 1) mems)).tide.toNat < (G 3 (fetched 3 (code (.waitt 3 1) mems)) 1).toNat ∧
    (∀ w, issuing (.fence 3 w) (code (.fence 3 w) mems) = true ∧ ((fetched 3 (code (.fence 3 w) mems)).berth 3).tags = [] ∧
      ((fetched 3 (code (.fence 3 w) mems)).berth 3).held = [] ∧ ((fetched 3 (code (.fence 3 w) mems)).berth 3).woq = []) ∧
    issuing (.yield 3) (code (.yield 3) mems) = true ∧ issuing (.halt 3) (code (.halt 3) mems) = true := by decide +kernel
theorem witness_WaitsBeginAndEnd_end :
    (waits (.waitt 0)).serves 3 = true ∧ (0 : U64).toNat ≤ (waits (.waitt 0)).tide.toNat ∧
    ((waits (.yield 1)).berth 3).wait = .yield 1 ∧ 0 ≤ (waits (.yield 0)).clk.now ∧
    ((waits (.fence [] [] 0)).berth 3).fenceDone ((waits (.fence [] [] 0)).berth 3).wait = true := by decide +kernel

/-- The presence window is open. -/
def present (s : State) : State := { s with person := { s.person with winEnd := some 100 } }
theorem witness_SequencerControlNeedsPresence : prog.serves 3 = true ∧ prog.presence = false ∧ (present prog).presence = true ∧
    ((present prog).berth 3).seq = .running ∧ (present base).serves 3 = true ∧ ((present base).berth 3).seq = .stopped ∧
    (present (waits (.load 1 true))).presence = true ∧ ((present (waits (.load 1 true))).berth 3).seq = .waiting ∧
    ((present (waits (.load 1 true))).berth 3).wait = .load 1 true := by decide +kernel

/-- Berth 3 with group 7 in a state, and Lighthouse 63 of partition 0 enabled. -/
def groups (st : CgState) (w : Wait) : State :=
  let s := (mems.setFld 0x12 F.LH_CFG_EN 63 1).setFld 0x12 F.LH_LIM_PERIOD 63 100
  { s.setBerth 3 { s.berth 3 with cgs := [(0, ⟨7, 0, st, []⟩)], wait := w, seq := if w = .none then .running else .waiting } with
    cgOut := [(3, 7, true)], stamps := [(3, 63, 5)] }
def noGroup : State := (mems.setFld 0x12 F.LH_CFG_EN 63 1).setFld 0x12 F.LH_LIM_PERIOD 63 100
/-- The group that G1 names is `c` after the fetch of `i`. -/
def groupAt (i : Instr) (s : State) (c : Option (Nat × Cg)) : Bool :=
  let f := fetched 3 (code i s)
  issuing i (code i s) && (f.berth 3).cg (G 3 f 1).toNat == c
theorem witness_ConfirmationGroupsAndStamps : groupAt (.commit 3 1 1) (groups .pending .none) (some (0, ⟨7, 0, .pending, []⟩)) = true ∧
    groupAt (.squash 3 1) (groups .pending .none) (some (0, ⟨7, 0, .pending, []⟩)) = true ∧ groupAt (.commit 3 1 1) noGroup none = true ∧
    groupAt (.stamp 3 1 63) noGroup none = true ∧ ((fetched 3 (code (.stamp 3 1 63) noGroup)).berth 3).cgs = [] ∧
    (fetched 3 (code (.stamp 3 1 63) noGroup)).lhOfPart ((fetched 3 (code (.stamp 3 1 63) noGroup)).fld (bslot 3) F.BERTH_CFG_PART 0) 63 = true := by
  decide +kernel
theorem witness_ConfirmationGroupsAndStamps_end :
    (groups .confirmed (.commit 1 7)).serves 3 = true ∧ ((groups .confirmed (.commit 1 7)).berth 3).wait = .commit 1 7 ∧
    ((groups .confirmed (.commit 1 7)).berth 3).cgBusy 7 = false ∧
    ((groups .confirmed (.commit 1 7)).berth 3).cg 7 = some (0, ⟨7, 0, .confirmed, []⟩) ∧
    ((groups .failed (.commit 1 7)).berth 3).cg 7 = some (0, ⟨7, 0, .failed, []⟩) ∧
    (3, (7 : BitVec 12).toNat, true) ∈ (groups .pending .none).cgOut ∧ (groups .pending .none).awake = true ∧
    (3, 63, (5 : U64)) ∈ (groups .pending .none).stamps ∧ (groups .pending .none).stampLate 3 63 = false ∧
    (groups .pending .none).lhEnabled 63 = true := by decide +kernel

/-- Berth 3 has work order 1 of an opcode queued, or running and done. -/
def works (op : Nat) (done : Bool) (w : Wait) : State :=
  prog.setBerth 3 { prog.berth 3 with woq := [{ desc := BitVec.ofNat 512 op, seq := 1, running := done, done := done }], wait := w,
                                      seq := if w = .none then .running else .waiting }
theorem witness_WorkOrdersIssueStartAndComplete : issuing (.wo 3 1 2) (code (.wo 3 1 2) (works 1 true .none)) = true ∧
    ((works 1 true (.woEntry 1 2)).berth 3).wait = .woEntry 1 2 ∧
    (works 1 true (.woEntry 1 2)).serves 3 = true ∧ ((works 1 true (.woEntry 1 2)).berth 3).woq.length < 64 ∧
    ((works 1 true .none).berth 3).woq.find? (fun o => o.seq == 1) =
      some { desc := BitVec.ofNat 512 1, seq := 1, running := true, done := true } ∧
    (works 1 true .none).runs 3 = true ∧
    ((works 1 true .none).berth 3).woReady { desc := BitVec.ofNat 512 1, seq := 1, running := true, done := true } = true := by decide +kernel
/-- A work order of every opcode can be the one that starts. -/
theorem witness_WorkOrdersIssueStartAndComplete_start : ∀ op : Fin 14, (works (op.val + 1) false .none).serves 3 = true ∧
    (works (op.val + 1) false .none).firstStart ((works (op.val + 1) false .none).berth 3) []
      ((works (op.val + 1) false .none).berth 3).woq = some { desc := BitVec.ofNat 512 (op.val + 1), seq := 1 } ∧
    woOp (BitVec.ofNat 512 (op.val + 1)) = op.val + 1 := by decide +kernel

theorem witness_CounterClearsChangeOneRegister : base.serves 31 = true ∧ base.serves 39 = true ∧ base.serves 40 = true ∧ base.serves 32 = true ∧
    base.serves 33 = true ∧ base.serves 34 = true ∧ base.serves 37 = true ∧ base.awake = true ∧ base.serves 43 = true := by decide +kernel

theorem witness_RegisterWritesScrubAndTraining : base.awake = true ∧ base.place 0xF0003F0108 = .regs 0x3F 0x108 ∧
    (8 = 8 ∧ 0x108 % 8 = 0) ∧ ¬ (4 = 8 ∧ 0x108 % 8 = 0) ∧ ¬ (8 = 8 ∧ 0x104 % 8 = 0) := by decide +kernel
theorem witness_RegisterWritesScrubAndTraining_scrub :
    ({ base.setFld 0x0C F.BASIN_SCRUB_INTERVAL 0 1 with clk := { base.clk with now := 1000 } } : State).scrubDue = true := by decide +kernel
theorem witness_RegisterWritesScrubAndTraining_training : ({ base with dev := .startCheck } : State).hm.wakeCheck = false ∧
    ({ base with dev := .startCheck } : State).hm.trained = false ∧ (({ base with dev := .startCheck } : State).dom 39).power = .on ∧
    (4 : BitVec 3).toNat ≤ 4 := by decide +kernel

theorem witness_PairDifferencesFaultThePair : (base.dom 0).power = .on ∧ (3 : BitVec 2) ≠ 0 := by decide +kernel
theorem witness_HarbourmasterDifferences : ({ base with dev := .sleep } : State).dev ≠ .off ∧ base.compares .wharfinger = true ∧
    base.compares .dredger = true := by decide +kernel

theorem witness_RecordingSetsTheBitAndItsReaction : nbit (sourceMask 0x3F) 18 = true ∧ nbit (base.faults 0x3F) 18 = false ∧ 0x3F < 64 := by
  decide +kernel
theorem witness_FurtherRecordsChangeNothing : nbit ((base.record 0x3F 18).faults 0x3F) 18 = true ∧ nbit (sourceMask 0x3F) 7 = false := by
  decide +kernel
/-- The Logbook's queue is full. -/
def fullLog : State := { base with log := { base.log with ingress := List.replicate 64 ⟨0, 0, 0, 0, 0⟩ } }
theorem witness_FaultEntriesAreQueued : nbit (sourceMask 0) 15 = true ∧ nbit (base.faults 0) 15 = false ∧ base.log.ingress.length < 64 ∧
    64 ≤ fullLog.log.ingress.length ∧ nbit (fullLog.faults 0) 15 = false := by decide +kernel

/-- Output 0 is enabled and commanded active. -/
def active : State := (base.setFld 0x13 F.SO_CFG_EN 0 1).setFld 0x13 F.SO_CMD_ACT 0 1
theorem witness_OutputsAreActiveOnlyInRun : active.outLevel 0 ≠ active.safeLevel ∧
    nbit (active.fld 0x13 F.SO_CFG_EN 0) 0 = true ∧ nbit (active.fld 0x13 F.SO_CMD_ACT 0) 0 = true ∧ active.dev = .run ∧ active.anyLine = false ∧
    active.pins.factory = false ∧ active.host.tapIr ≠ 3 ∧ active.host.tapIr ≠ 4 := by decide +kernel
theorem witness_EnteringSafeClearsTheOutputs : active.dev ≠ .safe := by decide

theorem witness_HeaderWritesAndGrace : (0x3F : BitVec 6).toNat ∈ allSlots ∧ (0 : BitVec 6).toNat ∈ allSlots ∧ base.awake = true ∧
    base.hasReaction 0x3F 2 = false ∧ ((base.setReg 0x21 .BLK_REACT 0 0x20).record 0x21 2).hasReaction 0x21 2 = true ∧
    base.graceDue 0x3F = false ∧ (base.setHdr 0x3F { graceEnd := some 0 }).graceDue 0x3F = true ∧
    ((base.setHdr 0x3F { graceEnd := some 0 }).hdr 0x3F).graceEnd = some 0 ∧ 0 ≤ (base.setHdr 0x3F { graceEnd := some 0 }).clk.now := by
  decide +kernel

theorem witness_SafeOutputCommands : (base.setFld 0x13 F.SO_CFG_HOST_OK 0 1).soCmdOk (.host .pcie) = true ∧
    base.soCmdOk (.host .pcie) = false ∧ 50 ≤ 50 ∧ (base.setFld 0x13 F.SO_CFG_FOLLOW_N 0 1).fld 0x13 F.SO_CFG_FOLLOW_N 0 = 1 ∧
    base.dev ≠ .off ∧ nbit base.pins.safeFb.toNat 3 ≠ true ∧
    ({ active.setFld 0x13 F.SO_CFG_FB_EN 0 1 with clk := { active.clk with now := 8000 } } : State).rbDue 0 = true ∧
    ({ base with dev := .safe } : State).awake = true ∧ ({ base with dev := .safe } : State).exitRefusal = 0 ∧
    ({ base with dev := .safe } : State).log.ingress.length < 63 := by decide +kernel

/-- A mirror runs with its segment granted. -/
def mirroring : State :=
  { base with log := { base.log with mirror := some { copy := 0 }, since := 1 },
              hm := { base.hm with granted := some { user := .logbook, bytes := 65536 } },
              clk := { base.clk with now := 1000000000, ticks := 1024 } }
theorem witness_LogbookCommands : mirroring.awake = true ∧ (present base).presence = true ∧ base.presence = false ∧
    (mirroring.setFld 3 F.LOG_MIR_PERIOD_S 0 1).fld 3 F.LOG_MIR_PERIOD_S 0 = 1 ∧ mirroring.log.since ≠ 0 ∧
    mirroring.log.lastEnd + 1 * 1000000000 ≤ mirroring.clk.now ∧
    (mirroring.setFld 3 F.LOG_MIR_THRESH 0 1).fld 3 F.LOG_MIR_THRESH 0 = 1 ∧ 1 ≤ mirroring.log.since ∧
    mirroring.log.mirror = some { copy := 0 } ∧ mirroring.hm.granted = some { user := .logbook, bytes := 65536 } ∧
    mirroring.dev ≠ .off ∧ mirroring.clk.ticks % 1024 = 0 ∧ 0 < mirroring.clk.ticks := by decide +kernel

/-- Lighthouse 63 with both limits at 1 µs at tide time `t`, armed or in its first watch. -/
def light (t : U64) (x : Lh) : State :=
  let s := (((base.setFld 0x12 F.LH_CFG_EN 63 1).setFld 0x12 F.LH_LIM_MAXAGE 63 1).setFld 0x12 F.LH_LIM_PERIOD 63 1).setLh 63 x
  { s with clk := { s.clk with tide := t, ticks := 1024 } }
theorem witness_LighthousesAndClockMonitors : (light 1001 { armed := true }).ageDue 63 = true ∧
    (light 1001 { armed := true }).injDue 0x12 9 63 = false ∧ (light 1000 { armed := true }).injDue 0x12 8 63 = false ∧
    outOf5 474999 rcExpected = true ∧ outOf5 475000 rcExpected = false ∧ outOf5 525000 rcExpected = false ∧ outOf5 525001 rcExpected = true ∧
    (light 1000 { armed := true }).periodDue 63 = true ∧ (light 1000 { armed := true }).ageDue 63 = false ∧
    (light 1000 { watch := some 0 }).firstDue 63 = true ∧ base.awake = true ∧
    outOf5 94 100 = true ∧ outOf5 106 100 = true ∧ outOf5 95 100 = false ∧ outOf5 105 100 = false ∧ outOf5 0 0 = false ∧ outOf5 0 1 = true ∧
    Tab.get 0 ({ base with clk := { base.clk with badWindows := [(4, 1)] } } : State).clk.badWindows 4 ≠ 0 ∧
    (light 0 {}).dev ≠ .off ∧ nbit (light 0 {}).strap 11 = false ∧ (light 0 {}).clk.ticks = 1024 * 1 ∧ 0 < 1 := by
  decide +kernel

theorem witness_PowerOnReset : 10000 ≤ 10000 ∧ 999 < 1000 ∧ ({ State.reset with pins := { State.reset.pins with rails := true } } : State).dev = .off ∧
    ({ State.reset with pins := { State.reset.pins with rails := true } } : State).pins.porLow = true ∧
    ({ State.reset with pins := { State.reset.pins with rails := true } } : State).pins.rails = true := by decide

/-- A device that has entered sleep far enough, or sleeps, with the domains that switch off in Sleep off. -/
def sleepy (d : DevState) : State := { State.reset with dev := d, pins := { State.reset.pins with porLow := false } }
theorem witness_SleepWakeServiceAndWarmReset : base.awake = true ∧ (sleepy .entering).sleepReady = true ∧
    (sleepy .entering).hm.wakeSeen ||| (sleepy .entering).wakeEnabled (sleepy .entering).levelSources = 0 ∧
    (sleepy .entering).hm.safeDue = false ∧ (sleepy .sleep).dev = .sleep ∧ (sleepy .sleep).hm.safeDue = false ∧
    ((sleepy .sleep).reg 2 .TIDE_ALARM 0).toNat ≤ (sleepy .sleep).tide.toNat ∧ (sleepy .entering).dev = .entering ∧
    (sleepy .startCheck).dev = .startCheck := by decide +kernel

/-- Domain 5 in a state of its own, the clock at 50 µs. -/
def domain (x : Dom) : State := { base.setDom 5 x with clk := { base.clk with now := 50000 } }
theorem witness_DomainsSwitchDrainAndReset :
    ({ base with hm := { base.hm with switchQ := [5] } } : State).hm.switchQ ≠ [] ∧ ({ base with hm := { base.hm with switchQ := [5] } } : State).hm.switchAt ≤ base.clk.now ∧
    (domain { power := .ramping }).awake = true ∧ ((domain { power := .ramping }).dom 5).power = .ramping ∧ ((domain { power := .ramping }).dom 5).draining = false ∧
    ((domain { power := .on, draining := true }).dom 5).draining = true ∧ (domain { power := .on, draining := true }).outstanding 5 = false ∧
    ((domain { power := .on, draining := true }).setBerth 5 { egD := [0] }).outstanding 5 = true ∧
    ((domain { power := .on, draining := true }).dom 5).drainT + 50000 ≤ (domain { power := .on, draining := true }).clk.now ∧
    ((domain { holdEnd := some 50000 }).dom 5).holdEnd = some 50000 ∧ 50000 ≤ (domain { holdEnd := some 50000 }).clk.now ∧
    base.dev ≠ .startCheck ∧ base.mayRwl (.host .spi) (pwrSlot 5) = true ∧ (domain {}).wanted 5 = false ∧ base.wanted 43 = true ∧
    ({ base with chartOn := true } : State).mayRwl (.host .spi) (pwrSlot 5) = false := by decide +kernel

/-- A device in Start-check. -/
def checking (c : Option Check) (now : Nat) : State :=
  { (base.setFld 0 F.HM_CLK_LOCKED 0 15).setFld 0 F.HM_SC_STAT_PHASE 0 0 with
    dev := .startCheck, hm := { base.hm with check := c, xoAt := some 0, pllStart := [(3, 0)], pllTried := [3] },
    clk := { base.clk with now := now } }
theorem witness_StartCheckAndHoldUp : (checking none 2000).dev = .startCheck ∧ (checking none 2000).hm.check = none ∧
    (checking none 2000).hm.wakeCheck = false ∧ (checking none 2000).hm.xoAt = some 0 ∧ 0 + 2000 ≤ (checking none 2000).clk.now ∧
    Tab.find (checking none 20000).hm.pllStart 3 = some 0 ∧ (checking none 20000).clk.now ≤ 0 + 20000 ∧
    0 + 20000 ≤ (checking none 20000).clk.now ∧ (checking none 20000).hm.pllTried.contains 3 = true ∧
    ({ checking none 20000 with hm := { (checking none 0).hm with pllTried := [] } } : State).hm.pllTried.contains 3 = false := by decide +kernel
/-- A check of a kind in progress. -/
def check (k : ScKind) : Check := { kind := k, start := 0, begun := true }
theorem witness_StartCheckAndHoldUp_check :
    (checking (some (check .wake)) 0).scRuns (check .wake) ⟨5, 31, 0, 8⟩ = true ∧
    (checking (some (check .wake)) 0).scRuns (check .wake) ⟨11, 0x3F, 0, 0⟩ = true ∧
    (checking (some (check .wake)) 0).phaseWaits (check .wake) (scPhase 11) = false ∧
    (checking (some (check .full)) 0).scRuns (check .full) ⟨6, 15, 0, 0⟩ = true ∧
    ((checking (some (check .full)) 0).setFld 0 F.HM_STRAP_GPIO 0 0x2000).phaseWaits (check .full) (scPhase 6) = true ∧
    (checking (some (check .wake)) 0).domsUp = true ∧ (checking (some (check .wake)) 0).trainingOver (check .wake) = true ∧
    base.awake = true ∧ assigned (0x3F : BitVec 6).toNat = true := by decide +kernel
/-- An xSPI program waits for its hold-up check, and a deferred segment for its retry. -/
def holdup : State := { base with field := { base.field with xspi := [⟨3, 0, 0, 4096, 0, true⟩] } }
def deferred : State := { base with hm := { base.hm with deferred := [{ user := .xspiCmd, bytes := 65536 }] } }
theorem witness_StartCheckAndHoldUp_segment : holdup.wantsSegment .xspiCmd = some (0, 4096, none) ∧ segBytes none 4096 4096 = true ∧
    segBytes (some 256) 256 256 = true ∧ holdup.awake = true ∧ holdup.hm.granted = none ∧
    holdup.hm.deferred = [] ∧ holdup.hm.broken = false ∧
    deferred.hm.deferred.find? (fun g => decide (g.nextAt ≤ deferred.clk.now)) = some { user := .xspiCmd, bytes := 65536 } ∧ deferred.awake = true ∧ deferred.hm.granted = none ∧ deferred.hm.broken = false := by decide +kernel

/-- A chip at position (1, 0) of a 2 × 2 board, whose parent is on its West Quay, with a running clock at `now`. -/
def board (now : Nat) (c : Clock) : State :=
  let s := ((base.setFld 0 F.HM_STRAP_GPIO 0 0x104).setFld 2 F.TIDE_STAT_PARENT 0 4).setQstate 3 7
  { s with clk := { c with now := now, running := true } }
theorem witness_TideAndTicks_parent : (board 10000 {}).tideParent = some 3 ∧ (board 10000 {}).awake = true ∧ (board 10000 {}).clk.running = true ∧
    (board 10000 {}).tideMaster = false ∧ (board 10000 {}).syncTarget = 3 ∧ (board 10000 {}).qstate 3 = 7 ∧ (board 10000 {}).clk.syncAt + 10000 ≤ (board 10000 {}).clk.now ∧
    (2 : BitVec 2) ≠ 3 ∧ (board 30000 { lastSync := some 0 }).clk.lastSync = some 0 ∧ (board 30000 { lastSync := some 0 }).clk.lostAt = none ∧
    0 + 30000 ≤ (board 30000 { lastSync := some 0 }).clk.now ∧ (board 30000 { lastSync := some 0 }).otherParent = none := by decide +kernel
theorem witness_TideAndTicks_claim : (board 10000 { lostAt := some 0 }).clk.lostAt = some 0 ∧
    0 + 10000 * (board 10000 { lostAt := some 0 }).claimDist (board 10000 { lostAt := some 0 }).clk.lost (board 10000 { lostAt := some 0 }).chip
      ≤ (board 10000 { lostAt := some 0 }).clk.now ∧
    (board 0 { lostAt := some 0 }).inside64 (9 : BitVec 6).toNat = true ∧ (9 : BitVec 6).toNat ≠ (board 0 { lostAt := some 0 }).chip ∧
    (board 0 { lostAt := some 0 }).clk.lostAt.isSome = true ∧ (board 0 { lostAt := some 0 }).clk.claimK = none ∧
    (board 0 { lostAt := some 0 }).tideMaster = false := by decide +kernel
theorem witness_TideAndTicks : ((board 0 {}).setFld 2 F.TIDE_STAT_IS_MASTER 0 1).tideMaster = true ∧
    (((board 0 {}).setFld 2 F.TIDE_STAT_IS_MASTER 0 1).setFld 2 F.TIDE_CFG_PPS_EN 0 1).fld 2 F.TIDE_CFG_PPS_EN 0 = 1 ∧
    (board 0 {}).clk.ppsAt = none ∧ base.alive = true ∧ nbit base.strap 11 = false ∧ base.clk.xtal = false ∧ base.clk.now < 2000000000 ∧
    2000000000 ≤ (board 2000000000 {}).clk.now := by decide +kernel

/-- An awake device at a tick with one input and a person's state. -/
def person (tick : Nat) (i : Nat) (x : Input) (p : Person) : State :=
  ({ base with person := p, clk := { base.clk with ticks := tick } } : State).setInput i x
theorem witness_PersonAtTheDevice : (person 0 0 { diff := 66 } {}).alive = true ∧ 66 ≤ ((person 0 0 { diff := 66 } {}).input 0).diff ∧
    ((person 0 0 { diff := 66 } {}).input 0).chatter = false ∧
    ((person 32768 4 { run := some 0, still := 65 } {}).input 4).run = some 0 ∧ ((person 32768 4 { run := some 0, still := 65 } {}).input 4).still < 66 ∧
    0 + 32768 ≤ (person 32768 4 { run := some 0, still := 65 } {}).clk.ticks ∧ 66 ≤ ((person 0 4 { run := some 0, still := 66 } {}).input 4).still := by
  decide +kernel
theorem witness_PersonAtTheDevice_stuck :
    (((person 32768 3 { filt := true } {}).setReg 0 .WAKE_STUCK 0 0x0001000000000000).input 3).filt = true ∧
    ((person 32768 3 { filt := true } {}).setReg 0 .WAKE_STUCK 0 0x0001000000000000).stuckLimit 3 = 32768 ∧
    (((person 32768 3 { filt := true } {}).setReg 0 .WAKE_STUCK 0 0x0001000000000000).input 3).since + 32768 < (person 32769 3 { filt := true } {}).clk.ticks ∧
    ((person 983041 4 { filt := true } { svcStart := false }).input 4).filt = true ∧ (person 983041 4 { filt := true } { svcStart := false }).svcIgnored = false ∧
    (person 983041 4 { filt := true } { svcStart := false }).person.pressVoid = false ∧
    ((person 983041 4 { filt := true } { svcStart := false }).input 4).since + 983041 ≤ (person 983041 4 { filt := true } { svcStart := false }).clk.ticks ∧
    (person 0 4 { stuck := true } { svcHigh := 32768 }).svcIgnored = true ∧ 32768 ≤ (person 0 4 { stuck := true } { svcHigh := 32768 }).person.svcHigh := by
  decide +kernel
theorem witness_PersonAtTheDevice_window : (person 5 0 {} { winEnd := some 5 }).person.winEnd = some 5 ∧ 5 ≤ (person 5 0 {} { winEnd := some 5 }).clk.ticks ∧
    (person 5 0 {} { winEnd := some 5 }).dev ≠ .service ∧ (person 5 0 {} { winEnd := some 5 }).pins.factory = false ∧
    (person 8 0 {} {}).clk.ticks % 8 = 0 ∧ (person 8 0 {} {}).person.sealAt < (person 8 0 {} {}).clk.ticks := by decide +kernel
theorem witness_PersonAtTheDevice_estop : (person 0 0 {} {}).person.aLow = false ∧ (person 0 0 {} { bLow := true }).person.bLow = true ∧ 50 ≤ 50 ∧
    1639 ≤ (person 0 0 {} { discTicks := 1639 }).person.discTicks ∧ (person 0 0 {} { discTicks := 1639 }).fld 0 F.ESTOP_STAT_DISC 0 = 0 ∧
    (person 1639 0 {} { stableAt := some 0 }).person.stableAt = some 0 ∧ 0 + 1639 ≤ (person 1639 0 {} { stableAt := some 0 }).clk.ticks ∧
    (person 1639 0 {} { stableAt := some 0 }).estopLine = false ∧
    ((person 0 0 {} { pads := [(7, { touched := true, held := 3000 })] }).pad 7).touched = true ∧
    3000 ≤ ((person 0 0 {} { pads := [(7, { touched := true, held := 3000 })] }).pad 7).held := by decide +kernel

/-! ## Charts and sensors -/

/-- A Manifest of class A from a Pilot. -/
def pilotM (tag ptr len sx sy : Nat) : Manifest :=
  mPut (mPut (mPut (mPut (mPut (mPut (mPut 0 3 1 1) 8 1 34) 4 2 tag) 12 6 ptr) 20 4 len) 6 1 sx) 7 1 sy

/-- A chip that is not the domain Pilot, idle, with a Manifest in the Pilot's queue. -/
def member (m : Manifest) : State := { board 0 {} with dev := .idle, blockQ := [(34, [(m, false)])], reactDone := true }
theorem witness_ChartCommands_batch : (member (pilotM 8 0x8100F00000 0xF8000 0 0)).takesBatches = true ∧
    ((member (pilotM 8 0x8100F00000 0xF8000 0 0)).blockTake 34).map (·.1) = some (pilotM 8 0x8100F00000 0xF8000 0 0) ∧
    pilotMsg (pilotM 8 0x8100F00000 0xF8000 0 0) = true ∧ mTag (pilotM 8 0x8100F00000 0xF8000 0 0) = (8 : BitVec 8).toNat ∧
    mPointer (pilotM 8 0x8100F00000 0xF8000 0 0) = (0x8100F00000 : Addr).toNat ∧ mLength (pilotM 8 0x8100F00000 0xF8000 0 0) = 0xF8000 ∧
    mNum (pilotM 8 0x8100F00000 0xF8000 0 0) 6 1 = (0 : BitVec 8).toNat ∧ mNum (pilotM 8 0x8100F00000 0xF8000 0 0) 7 1 = (0 : BitVec 8).toNat := by
  decide +kernel
theorem witness_ChartCommands_start : (member (pilotM 0xFF 0 0 0 0)).takesBatches = true ∧ pilotMsg (pilotM 0xFF 0 0 0 0) = true ∧
    mTag (pilotM 0xFF 0 0 0 0) = 0xFF ∧ ((member (pilotM 0xFF 0 0 0 0)).blockTake 34).map (fun r => r.2.reactDone) = some true := by decide +kernel
theorem witness_ChartCommands_answer : base.domainPilot = true ∧ base.awake = true ∧
    ((({ base with blockQ := [(34, [(pilotM 0x108 0 0 7 7, false)])] } : State).blockTake 34).map (·.1)) = some (pilotM 0x108 0 0 7 7) ∧
    pilotMsg (pilotM 0x108 0 0 7 7) = true ∧ mTag (pilotM 0x108 0 0 7 7) = 0x100 + statusCode .chartFit ∧
    mNum (pilotM 0x108 0 0 7 7) 6 1 = (base.fld 9 F.MESH_ORIGIN_OX 0 + (63 : Fin 64).val % 8) % 256 ∧
    mNum (pilotM 0x108 0 0 7 7) 7 1 = (base.fld 9 F.MESH_ORIGIN_OY 0 + (63 : Fin 64).val / 8) % 128 := by decide +kernel
/-- A load in progress. -/
def loading (now : Nat) (l : Load) : State :=
  { base with clk := { base.clk with now := now }, pilot := { base.pilot with load := some l } }
theorem witness_ChartCommands : ({ base with dev := .idle, pilot := { base.pilot with due := 1 } } : State).loadsDue 1 = true ∧
    ({ base with dev := .safe, pilot := { base.pilot with due := 2 } } : State).loadsDue 2 = true ∧
    (loading 20000000 { src := .stream, start := 0 }).domainPilot = true ∧ (loading 20000000 { src := .stream, start := 0 }).dev ≠ .startCheck ∧
    (loading 20000000 { src := .stream, start := 0 }).pilot.load = some { src := .stream, start := 0 } ∧
    0 + 20000000 ≤ (loading 20000000 { src := .stream, start := 0 }).clk.now ∧
    Tab.find [((63 : Nat), (5 : Nat))] (63 : Fin 64).val = some 5 ∧ 5 ≤ (loading 5 { src := .stream, start := 0, waits := [(63, 5)] }).clk.now ∧
    Tab.find [((31 : Nat), (0 : Nat))] (31 : Fin 32).val = some 0 ∧
    0 + 1000000 ≤ (loading 1000000 { src := .stream, start := 0, powered := [(31, 0)] }).clk.now ∧
    ((loading 1000000 { src := .stream, start := 0, powered := [(31, 0)] }).setDom 31 {}).serves 31 = false ∧ base.awake = true := by decide +kernel

/-- Receiver 7 on virtual channel 15 feeds stream 15, which has a frame in slot 14. -/
def camera (fr : Frame) (w : List RingWrite) (c : Nat) : State :=
  ((((((base.setFld 0x0D F.RX_CFG_EN 7 1).setFld 0x0D F.STREAM_CFG_UNIT 15 7).setFld 0x0D F.STREAM_CFG_VC 15 15).setFld 0x0D F.STREAM_CFG_DT 15 63).setFld
    0x0D F.STREAM_CONS_BERTHS 15 c).setFld 0x0D F.STREAM_RING_DEPTH 15 16).setStream 15 { active := true, slots := [(14, fr)], writes := w }
theorem witness_SensorPackets : (camera { seq := 0, ord := 0 } [] 0).receives 7 = true ∧
    (camera { seq := 0, ord := 0 } [] 0).onChannel 7 (15 : BitVec 4).toNat = [15] ∧
    ((camera { seq := 0, ord := 0 } [] 0).onChannel 7 (15 : BitVec 4).toNat).filter
      (fun j => (camera { seq := 0, ord := 0 } [] 0).fld 0x0D F.STREAM_CFG_DT j == (63 : BitVec 6).toNat) = [15] ∧
    ((camera { seq := 0, ord := 0 } [] 0).onChannel 7 (15 : BitVec 4).toNat).filter
      (fun j => (camera { seq := 0, ord := 0 } [] 0).fld 0x0D F.STREAM_CFG_DT j == (62 : BitVec 6).toNat) = [] ∧
    (camera { seq := 0, ord := 0 } [] 0).filling 15 = some (14, { seq := 0, ord := 0 }) ∧ (camera { seq := 0, ord := 0 } [] 0).serves 41 = true ∧
    ((({ camera { seq := 0, ord := 0 } [] 0 with clk := { base.clk with tide := 1023000001 } } : State).stream 15).slots.find? (fun c =>
      c.2.st == .pending && decide (c.2.sof.toNat + ({ camera { seq := 0, ord := 0 } [] 0 with clk := { base.clk with tide := 1023000001 } } : State).frameTimeoutNs 15
        < 1023000001))) = some (14, { seq := 0, ord := 0 }) ∧
    ((camera { seq := 0, ord := 0 } [⟨0, 1, some .poison, none⟩] 0).stream 15).writes = [⟨0, 1, some .poison, none⟩] ∧
    ((camera { seq := 0, ord := 0 } [⟨0, 1, none, none⟩] 0).stream 15).writes = [⟨0, 1, none, none⟩] := by decide +kernel
theorem witness_StreamRegistersAndPulses : base.awake = true ∧ base.serves 41 = true ∧
    (base.setDom 41 {}).awake = true ∧ (base.setDom 41 {}).serves 41 = false ∧
    ((camera { seq := 0, ord := 0, st := .confirmed, claimed := 0x80000000 } [] 0x80000000).releaseFrame (.berth 31) 15 14).1 = .ok := by decide +kernel
/-- FSYNC output 7 with the shortest period, at tide time 1. -/
def pulsing (e : Tab U64) : State :=
  { ((base.setFld 0x0D F.FSYNC_PER_EN 7 1).setFld 0x0D F.FSYNC_PER_PERIOD 7 1000).setFld 0x0D F.FSYNC_PER_WIDTH 7 990 with
    clk := { base.clk with tide := 1 }, fsyncEnd := e }
theorem witness_StreamRegistersAndPulses_fsync : (pulsing []).serves 41 = true ∧ (pulsing []).fld 0x0D F.FSYNC_PER_EN 7 = 1 ∧ (pulsing []).fsyncOk 7 = true ∧
    Tab.get 0 (pulsing []).fsyncDone 7 < (pulsing []).fsyncCount 7 true ∧ Tab.find (pulsing [(7, 1)]).fsyncEnd 7 = some 1 ∧
    (1 : U64).toNat ≤ (pulsing [(7, 1)]).tide.toNat := by decide +kernel

/-! ## Wharfinger and Dredger -/

/-- A command in the host command slot of the Wharfinger. -/
def kvHost (w : Nat) : State := { base with wharf := { base.wharf with host := some (BitVec.ofNat 64 w, BitVec.ofNat 64 (w / 2 ^ 64)) } }
theorem witness_WharfingerCommands :
    ((kvHost (cmdWord 1 0 0xFFFF 0 0 0)).kvTake .host (cmdWord 1 (0 : BitVec 8).toNat (0xFFFF : BitVec 16).toNat 0 0 0)).isSome = true ∧
    ((kvHost (cmdWord 2 0 0xFFFF 0 0 0)).kvTake .host (cmdWord 2 (0 : BitVec 8).toNat (0xFFFF : BitVec 16).toNat 0 0 0)).isSome = true ∧
    ((kvHost (cmdWord 3 7 1 2 0 0xFFFFFFFF)).kvTake .host (cmdWord 3 (7 : BitVec 8).toNat 1 2 0 (0xFFFFFFFF : U32).toNat)).isSome = true ∧
    ((kvHost (cmdWord 4 0 1 0 0 7)).kvTake .host (cmdWord 4 0 1 0 0 7)).isSome = true ∧
    ((kvHost (cmdWord 5 0 0 0xFFFF 1 0xFFFFFFFFFFFF)).kvTake .host (cmdWord 5 0 0 (0xFFFF : BitVec 16).toNat 1 (0xFFFFFFFFFFFF : Addr).toNat)).isSome = true ∧
    ((kvHost (cmdWord 6 0 0 3 0 0)).kvTake .host (cmdWord 6 0 0 3 0 0)).isSome = true ∧
    ((kvHost (cmdWord 7 0 1 0 0 0)).kvTake .host (cmdWord 7 0 1 0 0 0)).isSome = true ∧
    base.seqWaits 0xFFFF = false ∧ base.held 0xFFFF = false ∧ (∀ r : Fin 4, base.poolOn r = true → (base.poolSt r).wait = 0) ∧ (base.poolSt 3).wait = 0 := by
  decide +kernel
/-- A command of a Berth in the Wharfinger's queue. -/
theorem witness_WharfingerCommands_manifest :
    (({ base with blockQ := [(32, [(replyManifest 0 0 0 31 0 (cmdWord 7 4 1 0 0 0), false)])] } : State).blockTake 32).isSome = true ∧
    mClass (replyManifest 0 0 0 31 0 (cmdWord 7 4 1 0 0 0)) = 0 ∧ mNum (replyManifest 0 0 0 31 0 (cmdWord 7 4 1 0 0 0)) 12 16 = cmdWord 7 4 1 0 0 0 := by
  decide +kernel
/-- Pool 3 is enabled, waits, and lies in the lost Basin bank 15. -/
def lostPool (w : Nat) : State :=
  (((base.setFld 0x0C F.BASIN_ERR_RET_BANKS 0 0x8000).setFld 0x0E F.KV_POOL_MEM_BASE 3 (basinBase + 0xF00000)).setFld 0x0E
    F.KV_POOL_PAGES_COUNT 3 1).setPool 3 { wait := w }
theorem witness_WharfingerCommands_pool : (lostPool 1).serves 32 = true ∧ ((lostPool 1).poolSt (3 : Fin 4)).wait = 1 ∧
    (lostPool 1).poolLost ((lostPool 1).poolCfg (3 : Fin 4)) = true ∧ (lostPool 1).fld 0x0E F.KV_POOL_CFG_RESTORE (3 : Fin 4) = 0 ∧
    ((lostPool 1).setFld 0x0E F.KV_POOL_CFG_RESTORE 3 1).fld 0x0E F.KV_POOL_CFG_RESTORE (3 : Fin 4) = 1 ∧
    ((lostPool 2).poolSt (3 : Fin 4)).wait = 2 ∧ nvChoose ((lostPool 2).kvNvSeq 3 false) ((lostPool 2).kvNvSeq 3 true) = none := by decide +kernel

/-- A command in the host command slot of the Dredger, and slot 7 in a state. -/
def drgHost (op v st : Nat) : State :=
  { (((base.setFld 0x0F F.DRG_SLOT_CFG_EN 7 1).setFld 0x0F F.DRG_SLOT_CFG_HOST 7 1).setFld 0x0F F.DRG_SLOT_STAT_STATE 7 st) with
    drg := { base.drg with host := some (BitVec.ofNat 64 (drgWord op 4 7 v), BitVec.ofNat 64 v) } }
/-- The command is taken up and slot 7 may be used. -/
def drgTakes (op v st : Nat) : Bool :=
  match (drgHost op v st).drgTake .host op (4 : BitVec 8).toNat (7 : BitVec 8).toNat v with
  | some t => t.fld 0x0F F.DRG_SLOT_CFG_EN 7 != 0 && t.fld 0x0F F.DRG_SLOT_STAT_CFG_ERR 7 != 1 && t.mayUse .host 7 && t.dslot 7 == st && !t.drg.pausing
  | none => false
theorem witness_DredgerCommands : base.serves 33 = true ∧ (drgHost 1 0 0).serves 33 = true ∧ drgTakes 1 0xFFFFFFFFFFFF 0 = true ∧ drgTakes 2 0 1 = true ∧
    drgTakes 3 0 3 = true ∧ drgTakes 4 0 2 = true ∧ drgTakes 5 0 3 = true ∧ drgTakes 5 0 4 = true ∧ drgTakes 5 0 5 = true ∧ drgTakes 6 0 5 = true ∧
    drgTakes 6 0 0 = true ∧ drgTakes 3 0 2 = true ∧ drgTakes 1 7 5 = true := by decide +kernel
theorem witness_DredgerCommands_engine :
    ({ base with drg := { base.drg with queue := [7, 0] } } : State).drg.queue = [7, 0] ∧ ({ base with drg := { base.drg with queue := [7, 0] } } : State).drg.run = none ∧
    ({ base with drg := { base.drg with run := some 7, jobs := [(7, { src := .host, reply := 0 })] } } : State).drg.anneal = none ∧
    Tab.find ({ base with drg := { base.drg with run := some 7, jobs := [(7, { src := .host, reply := 0 })] } } : State).drg.jobs 7 = some { src := .host, reply := 0 } ∧
    (base.readStep 7 { n := 65, next := 0, h := List.replicate 65 0 }).1 = .ok ∧
    ({ n := 65, next := 0, h := List.replicate 65 0 } : Anneal).step.sweepDone = false ∧
    (({ base with drg := { base.drg with varEcc := [(0, 2), (1, 2)] } } : State).readStep 7 { n := 65, next := 0, h := List.replicate 65 0 }).1 = .poison ∧
    ({ base.setFld 0x0F F.DRG_SLOT_CFG_EN 0 1 with drg := { base.drg with queue := [7, 0] } } : State).drg.queue.find?
      (State.slotReady { base.setFld 0x0F F.DRG_SLOT_CFG_EN 0 1 with drg := { base.drg with queue := [7, 0] } }) = some 0 := by decide +kernel

/-! ## Links and the mesh -/

/-- A Manifest of class A for a queue of a Berth of chip (dx, dy) from unit 0. -/
def manifestTo (dx dy cls : Nat) : Manifest := mPut (mPut (mPut (mPut 0 0 1 dx) 1 1 dy) 2 1 31) 3 1 cls

/-- Flow 15 of Berth 31 to this chip's Berth 0 has one credit of 64 out, which is on its way back. -/
def flowing : State :=
  { ((base.setFld (bslot 31) F.MSG_SFLOW_EN 15 1).setFld (bslot 31) F.MSG_SFLOW_CREDITS 15 64).setFld (bslot 31) F.MSG_SFLOW_AVAIL 15 63 with
    credits := [⟨0, 0, 31, 0, 0, 0, 0, 3⟩] }
theorem witness_ManifestsLinksAndMesh_msg : base.awake = true ∧ base.mHere (manifestTo 0 0 1) = true ∧ base.lt.waiting = [] ∧
    ({ base with net := [manifestTo 0 0 1] } : State).arrives (manifestTo 0 0 1) = true ∧
    flowing.flowOn 31 15 = true ∧ (3 : BitVec 2) ≠ 0 ∧ flowing.fld (bslot 31) F.MSG_SFLOW_AVAIL 15 < flowing.fld (bslot 31) F.MSG_SFLOW_CREDITS 15 ∧
    flowing.creditInFlight 31 15 (3 : BitVec 2).toNat = some ⟨0, 0, 31, 0, 0, 0, 0, 3⟩ ∧
    base.mHere (mSeal (mPut (mPut 0 3 1 8) 2 1 32)) = true ∧ mNack (mSeal (mPut (mPut 0 3 1 8) 2 1 32)) = true ∧
    mCrcOk (mSeal (mPut (mPut 0 3 1 8) 2 1 32)) = true ∧ mTarget (mSeal (mPut (mPut 0 3 1 8) 2 1 32)) = 32 := by decide +kernel

/-- Quay 3 in a state with a link, at a time. -/
def link (st now : Nat) (x : Quay) : State :=
  (({ base with clk := { base.clk with now := now } } : State).setQstate 3 st).setQuay 3 x
theorem witness_ManifestsLinksAndMesh_active : (link 7 0 { rxG := 255 }).awake = true ∧ (link 7 0 { rxG := 255 }).qstate (3 : Fin 4) = 7 ∧
    (255 : BitVec 8).toNat = ((link 7 0 { rxG := 255 }).quay (3 : Fin 4)).rxG ∧
    ((link 7 1000 {}).quay (3 : Fin 4)).lastCred + 1000 ≤ (link 7 1000 {}).clk.now ∧ ((link 7 500 {}).quay (3 : Fin 4)).lastAck + 500 ≤ (link 7 500 {}).clk.now ∧
    ((link 7 2000 { replay := [(0, [])] }).quay (3 : Fin 4)).replay ≠ [] ∧
    ((link 7 2000 { replay := [(0, [])] }).quay (3 : Fin 4)).lastProg + 2000 ≤ (link 7 2000 { replay := [(0, [])] }).clk.now ∧
    8 ≤ ((link 7 0 { replays := 8 }).quay (3 : Fin 4)).replays ∧ LossCause.noBlockLock ≠ LossCause.replayLimit := by decide +kernel
theorem witness_ManifestsLinksAndMesh_training : (link 0 0 {}).quayOn 3 = true ∧ (link 0 0 {}).qstate 3 = 0 ∧ (link 10 0 {}).qstate 3 = 10 ∧
    ((link 0 0 {}).quay 3).retrain = false ∧ ((link 0 0 {}).quay 3).stopped = false ∧ ((link 0 0 {}).quay 3).retryAt = none ∧
    (link 1 0 {}).qstate 3 = 1 ∧ (link 8 0 {}).qstate 3 = 8 ∧ (link 9 0 {}).qstate 3 = 9 ∧ 2 ≤ (setBits 8 (0x81 : BitVec 8).toNat).length ∧
    (link 2 0 {}).qstate 3 = 2 ∧ rxWidth (0x80 : BitVec 8).toNat = none ∧ rxWidth (0x81 : BitVec 8).toNat = some (2, 0x81) ∧
    rxWidth (0xF0 : BitVec 8).toNat = some (1, 0xF0) ∧ rxWidth (0xFF : BitVec 8).toNat = some (0, 0xFF) ∧ (link 5 0 {}).qstate 3 = 5 ∧
    (2 : BitVec 2) ≠ 3 ∧ (link 5 0 {}).neighbourOk 3 ⟨1, 0, 0, 0, 0, 2, 255, 0⟩ = true ∧
    ((link 10 5 { retryAt := some 5 }).quay 3).retryAt = some 5 ∧ 5 ≤ (link 10 5 { retryAt := some 5 }).clk.now ∧
    ((link 8 0 { wakeReq := true }).setFld (qslot 3) F.QUAY_CFG_WAKE_TX 0 1).fld (qslot 3) F.QUAY_CFG_WAKE_TX 0 = 1 ∧
    ((link 8 0 { wakeReq := true }).quay 3).wakeReq = true := by decide +kernel

/-- A packet of a kind to chip (dx, dy). -/
def pkt (kind vc dx len addr op : Nat) : Packet := Head.flit { kind := kind, vc := vc, dx := dx, dy := 0, sx := 9, sy := 0, req := 31, op := op, len := len, addr := addr } []
/-- A packet waits to enter the mesh. -/
def sending (now : Nat) : State := { base with clk := { base.clk with now := now }, mesh := { base.mesh with out := [(pkt 2 5 1 256 0 0, 0)] } }
theorem witness_ManifestsLinksAndMesh_route : (pkt 2 5 1 256 0 0, 0) ∈ (sending 1000000).mesh.out ∧ hVc (pkt 2 5 1 256 0 0) = (5 : Fin 6).val ∧
    0 + 1000000 ≤ (sending 1000000).clk.now ∧ (sending 0).presented none (pkt 2 5 1 256 0 0) = true ∧
    ((sending 0).routeHead 0 (pkt 2 5 1 256 0 0)).isSome = true ∧
    (link 7 0 { rxq := [(pkt 2 5 1 256 0 0, 0)] }).presented (some 3) (pkt 2 5 1 256 0 0) = true ∧
    ((link 7 0 { rxq := [(pkt 2 5 1 256 0 0, 0)] }).routeHead ((3 : Fin 4).val + 1) (pkt 2 5 1 256 0 0)).isSome = true := by decide +kernel
theorem witness_ManifestsLinksAndMesh_window : hDestX (pkt 2 2 0 256 0x100 0) = base.gx ∧ hDestY (pkt 2 2 0 256 0x100 0) = base.gy ∧
    hKind (pkt 2 2 0 256 0x100 0) ∈ [2, 3, 4] ∧ hKind (pkt 4 2 0 8 0xF8 2) ∈ [2, 3, 4] ∧
    wellSized (hAddr (pkt 2 2 0 256 0x100 0)) (hLen (pkt 2 2 0 256 0x100 0)) = true ∧
    wellSized (hAddr (pkt 4 2 0 8 0xF8 2)) (hLen (pkt 4 2 0 8 0xF8 2)) = true ∧ base.firstHere (pkt 2 2 0 256 0x100 0) = true ∧
    hKind (pkt 5 4 0 8 0 0) = 5 ∧ base.isAbandoned (pkt 5 4 0 8 0 0) = false ∧ hReq (pkt 5 4 0 8 0 0) < 32 ∧
    (base.dom (hReq (pkt 5 4 0 8 0 0))).power = .on := by decide +kernel

/-- Class 3 of the Lighter has one buffer of 64 KiB in the Basin. -/
def lighter (now : Nat) (l : Lighter) : State :=
  { (((base.setFld 8 F.LT_POOL_BASE_BASE 3 basinBase).setFld 8 F.LT_POOL_GEO_LOG2 3 16).setFld 8 F.LT_POOL_GEO_EN 3 1) with
    lt := l, clk := { base.clk with now := now }, net := [mPut (manifestTo 9 0 1) 20 4 0x10000] }
def lt0 : RxXfer := { x := 9, y := 0, num := 0xFFFFFFFF, m := 0, cls := 3, buf := 0, last := 0 }
theorem witness_ManifestsLinksAndMesh_lighter : (lighter 0 {}).ltServes = true ∧ (lighter 0 {}).ltRuns = true ∧
    (lighter 0 {}).lighterTurn (mPut (manifestTo 9 0 1) 20 4 0x10000) = true ∧
    (lighter 0 {}).outgoing (mPut (manifestTo 9 0 1) 20 4 0x10000) = true ∧
    (lighter 0 {}).inDomain (mNum (mPut (manifestTo 9 0 1) 20 4 0x10000) 0 1) (mNum (mPut (manifestTo 9 0 1) 20 4 0x10000) 1 1) = false ∧
    mInline (mPut (manifestTo 9 0 1) 20 4 0x10000) = false ∧ mClass (mPut (manifestTo 9 0 1) 20 4 0x10000) ≠ 0 ∧ (lighter 0 {}).lt.txq.length < 64 ∧
    (lighter 0 {}).ltClass (mLength (mPut (manifestTo 9 0 1) 20 4 0x10000)) = some 3 ∧ 0 < (lighter 0 {}).ltFree 3 := by decide +kernel
theorem witness_ManifestsLinksAndMesh_transfers :
    ((lighter 0 { rx := [lt0] }).unboxXfer 9 (9 : BitVec 8).toNat (0 : BitVec 8).toNat 0xFFFFFFFF).rxXfer 9 0 0xFFFFFFFF = some lt0 ∧
    (lighter 100000 { rx := [lt0] }).rxXfer 9 0 0xFFFFFFFF = some lt0 ∧ lt0.last + 100000 ≤ (lighter 100000 { rx := [lt0] }).clk.now ∧
    (lighter 100000 { xfers := [⟨7, 9, 0, manifestTo 9 0 1, 0⟩] }).xfer 7 = some ⟨7, 9, 0, manifestTo 9 0 1, 0⟩ ∧
    (lighter 50000 { held := [⟨9, 0, 7, manifestTo 0 0 1, 0⟩] }).lt.held = [⟨9, 0, 7, manifestTo 0 0 1, 0⟩] ∧
    0 + 50000 ≤ (lighter 50000 { held := [⟨9, 0, 7, manifestTo 0 0 1, 0⟩] }).clk.now := by decide +kernel

/-! ## Host paths and field interfaces -/

/-- The host interface with SPI, I3C and the PCIe link on. -/
def hosted (h : HostIf) (now : Nat) : State :=
  { (((base.setFld 0x10 F.HOST_STAT_LINK_UP 0 1).setFld 0x10 F.HOST_CFG_SPI_EN 0 1).setFld 0x10 F.HOST_CFG_I3C_EN 0 1).setFld 0x10 F.HOST_STAT_I3C_DA 0 8 with
    host := h, clk := { base.clk with now := now } }
theorem witness_HostPathCommands_pcie : (hosted {} 0).pcieUp = true ∧ inBar (0 : Fin 3) (64 * 2 ^ 20 - 1) 1 = true ∧ inBar (2 : Fin 3) (2 ^ 32 - 4096) 4096 = true ∧
    inBar (2 : Fin 3) (2 ^ 32 - 8) 8 = true ∧ (2 ^ 32 - 8) % 8 = 0 ∧ atomicKind (.fetchAdd 1) = true ∧ atomicKind (.cas 0 0) = true ∧
    ({ hosted {} 0 with dev := .startCheck } : State).pcieUp = true ∧ (hosted {} 0).dev ≠ .startCheck ∧
    base.awake = true ∧ (base.dom 42).power = .on ∧ (base.dom 42).draining = false ∧ base.fld 0x10 F.HOST_STAT_LINK_UP 0 = 0 := by decide +kernel
theorem witness_HostPathCommands_spi : (hosted {} 0).spiOn = true ∧ (hosted {} 0).hostReady = true ∧
    ([] : List Byte).length = frameWrites 1 (7 : Byte).toNat ∧ (hosted {} 0).frameBad 1 0xF000000000 (7 : Byte).toNat [] = false ∧
    (hosted {} 0).frameBad 1 0xF000000000 (3 : Byte).toNat [] = false ∧
    (List.replicate 8 (0 : Byte)).length = frameWrites 2 (7 : Byte).toNat ∧ (hosted {} 0).frameBad 2 0xF000000000 (7 : Byte).toNat (List.replicate 8 0) = false ∧
    (leBytes 4 (9 : U32).toNat ++ leBytes 2 (10000 : BitVec 16).toNat).length = frameWrites 3 (7 : Byte).toNat ∧
    (hosted {} 0).frameBad 3 0x8000001000 (7 : Byte).toNat (leBytes 4 (9 : U32).toNat ++ leBytes 2 (10000 : BitVec 16).toNat) = false ∧
    (hosted {} 0).frameBad 4 0xFF (255 : Byte).toNat [] = false ∧ (List.replicate 256 (0 : Byte)).length = frameWrites 5 (255 : Byte).toNat ∧
    (hosted {} 0).frameBad 5 0 (255 : Byte).toNat (List.replicate 256 0) = false ∧ (hosted {} 0).frameBad 6 0 7 [] = false := by decide +kernel
theorem witness_HostPathCommands_frames :
    (((hosted {} 0).spiFrame 0).frameDo .spi 1 0xF000000000 7 []).1.isSome = true ∧
    (((hosted {} 0).spiFrame 0).frameDo .spi 2 0xF000000000 7 (List.replicate 8 0)).1.isSome = true ∧
    (((hosted {} 0).spiFrame 0).frameDo .spi 3 0x8000001000 7 (leBytes 4 (0 : U32).toNat ++ leBytes 2 (10000 : BitVec 16).toNat)).1.isSome = true ∧
    (((hosted {} 0).spiFrame 0).frameDo .spi 4 0xFF 255 []).1.isSome = true ∧
    (((hosted {} 0).spiFrame 0).frameDo .spi 5 0 255 (List.replicate 256 0)).1.isSome = true ∧
    (((hosted {} 0).spiFrame 0).frameDo .spi 6 0 7 []).1.isSome = true ∧ (hosted { spi := some [] } 0).host.spi.isSome = true ∧ (1 ≤ 4 ∧ 4 ≤ 4) := by
  decide +kernel
/-- A BUOY_RD of a zero word whose microsecond has passed. -/
def buoying : State := hosted { buoy := [⟨.i3c, 0x8000001000, 0, 10000000, 1000, []⟩] } 1000
theorem witness_HostPathCommands_i3c : buoying.hostOn = true ∧ buoying.host.buoy = [⟨.i3c, 0x8000001000, 0, 10000000, 1000, []⟩] ∧ 1000 ≤ buoying.clk.now ∧
    (buoying.hostAsk .i3c 0x8000001000 (.read 8)).st = .ok ∧ buoyHolds (buoying.hostAsk .i3c 0x8000001000 (.read 8)).data 0 = true ∧
    (hosted {} 0).i3cOn = true ∧ (hosted {} 0).i3cAddr ≠ 0 ∧ (hosted {} 0).host.i3c = none ∧ (hosted {} 0).host.buoy = [] ∧
    10 ≤ (List.replicate 10 (0 : Byte)).length ∧ (List.replicate 268 (0 : Byte)).length ≤ 268 ∧ (hosted { i3c := some [0] } 0).host.i3c = some [0] ∧
    ((hosted {} 0).setFld 0x10 F.HOST_STAT_I3C_DA 0 0).i3cAddr = 0 ∧ ((hosted {} 0).setFld 0x10 F.HOST_STAT_I3C_DA 0 0).i3cOn = true ∧ (127 : BitVec 7) ≠ 0 ∧
    ((hosted {} 0).setFld 0x10 F.HOST_CFG_I3C_SADDR 0 127).fld 0x10 F.HOST_CFG_I3C_SADDR 0 = (127 : BitVec 7).toNat ∧
    cccs.contains (2 : Byte).toNat = false ∧ cccs.contains (0x91 : Byte).toNat = false := by decide +kernel
theorem witness_HostPathCommands_tap : (hosted {} 0).hostOn = true ∧ ({ hosted {} 0 with dev := .idle } : State).hostOn = true ∧
    ({ hosted {} 0 with dev := .idle } : State).dev ≠ .run ∧ (hosted {} 0).dev = .run ∧
    ((hosted {} 0).setFld 0x10 F.HOST_DBG_EN 0 1).fld 0x10 F.HOST_DBG_EN 0 = 1 ∧
    ((hosted {} 0).setFld 0x10 F.HOST_DBG_EN 0 1).windowEnds = false := by decide +kernel

/-- Domain 42 with CAN controller 3 on and its buffer 63 enabled to transmit and pending. -/
def fieldOn : State :=
  ((((base.setFld 0x11 F.CAN_CFG_EN 3 1).setFld 0x11 F.ETH_CFG_EN 1 1).setFld 0x11 F.CAN_CFG_AUTO_RECOVER 3 1).setReg 0x11 .CAN_PEND 3
    0x8000000000000000).canWrite 3 63 4 (leBytes 4 0x300)
theorem witness_FieldInterfaceCommands_can : fieldOn.io = true ∧ fieldOn.canOn 3 = true ∧ fieldOn.fld 0x11 F.CAN_CFG_LISTEN_ONLY 3 = 0 ∧
    fieldOn.canOffer 3 = some 63 ∧ fieldOn.fld 0x11 F.CAN_CFG_EN 3 = 1 ∧ fieldOn.fld 0x11 F.CAN_CFG_AUTO_RECOVER 3 = 1 ∧
    (fieldOn.setFld 0x11 F.CAN_STAT_STATE 3 2).fld 0x11 F.CAN_STAT_STATE 3 = 2 ∧ fieldOn.fld 0x11 F.ETH_CFG_EN 1 = 1 ∧
    (1 : Fin 2).val ∈ (fieldOn.withField fun f => { f with sending := [1] }).field.sending ∧ fieldOn.ioRuns = true ∧
    fieldOn.mayEnd (3 : Fin 4) = true ∧ fieldOn.canSends 3 = true := by decide +kernel
theorem witness_FieldInterfaceCommands : (base.setFld 0x11 F.XSPI_CMD0_OP 0 1).fld 0x11 F.XSPI_CMD0_OP 0 = 1 ∧
    (base.setFld 0x11 F.XSPI_CMD0_OP 0 2).fld 0x11 F.XSPI_CMD0_OP 0 = 2 ∧ (base.setFld 0x11 F.XSPI_CMD0_OP 0 3).fld 0x11 F.XSPI_CMD0_OP 0 = 3 ∧
    (base.setFld 0x11 F.XSPI_CMD0_OP 0 4).fld 0x11 F.XSPI_CMD0_OP 0 = 4 ∧ (base.setFld 0x11 F.XSPI_CMD0_OP 0 4).io = true ∧
    base.xspiReady ⟨1, 1, 0, 4096, 0, false⟩ = true ∧
    ({ base with hm := { base.hm with granted := some { user := .xspiCmd, bytes := 1 } } } : State).xspiReady ⟨4, 0, 0, 65536, 0, false⟩ = true ∧
    ({ base with hm := { base.hm with granted := some { user := .wharfinger, bytes := 1 } } } : State).hm.granted =
      some { user := .wharfinger, bytes := 1 } ∧
    (3 : Fin 4).val ∈ (base.withField fun f => { f with armed := [3] }).field.armed ∧ (base.reg 0x11 .SPIC_TRIG (3 : Fin 4)).toNat ≤ base.tide.toNat ∧
    ((base.setFld 0x11 F.SPIC_STAT_BUSY 3 1).setFld 0x11 F.SPIC_TX_LEN_M1 3 0).fld 0x11 F.SPIC_STAT_BUSY (3 : Fin 4) = 1 ∧
    ([0] : List Byte).length = ((base.setFld 0x11 F.SPIC_STAT_BUSY 3 1).setFld 0x11 F.SPIC_TX_LEN_M1 3 0).spicLen (3 : Fin 4) := by decide +kernel

/-! ## The manual's worked examples -/

/-- Table 4-14: the program of the worked example. -/
theorem test_program : seqDecode 5 0xC0840000 = some (.wo 5 2 1) ∧ seqDecode 5 0x60C00001 = some (.movi 5 3 1) ∧
    seqDecode 5 0xCD08D032 = some (.poll 5 4 2 3 1 50) ∧ seqDecode 5 0xA1C0000C = some (.b 5 7 12) ∧
    seqDecode 5 0xE8140003 = some (.stamp 5 5 3) ∧ seqDecode 5 0xC58C0000 = some (.send 5 6 3) := by decide
/-- Table 5-5: 0.3, -0.3, 500.0 and 0.001 in E4M3; 3.0 × 10⁻⁶ in FP16 by CVT. -/
theorem test_e4m3 : fE4M3.encode (ofF32 0x3E99999A) = (0x2A, false) ∧ fE4M3.encode (ofF32 0xBE99999A) = (0xAA, false) ∧
    fE4M3.encode (ofF32 0x43FA0000) = (0x7E, true) ∧ fE4M3.encode (ofF32 0x3A83126F) = (0x01, false) ∧
    fFP16.encode (ofF32 0x3649539C) = (0x0032, false) := by decide +kernel
/-- Table 5-6: the Q4S block of 2.6, -1.3, 0.25, 0.75: scale 0xFF, bytes 0xD5 and 0x20. -/
theorem test_q4s : (encodeRow 9 [ofF32 0x40266666, ofF32 0xBFA66666, ofF32 0x3E800000, ofF32 0x3F400000]).1.take 10 =
    [0xFF, 0, 0, 0, 0, 0, 0, 0, 0xD5, 0x20] := by decide +kernel
/-- Table 10-5: the first values of a compressed block, 2:1 and 4:1. -/
theorem test_fmcomp : (fmBlock 11 ([10, 31, -20, 45, 0] ++ List.replicate 59 (-20))).take 5 = [0xEC, 0x07, 0, 0, 0xB3] ∧
    (fmBlock 3 ([10, 31, -20, 45, 0] ++ List.replicate 59 (-20))).take 3 = [0xEC, 0x21, 0x8E] := by decide +kernel
/-- Table 13-10: the Manifest of the worked example. -/
def tile : Manifest := BitVec.ofNat 256 (0x0000004201460001 + 0x0020000001070002 * 2 ^ 64 + 0x0000100000008100 * 2 ^ 128)
theorem test_manifest : mTarget tile = 6 ∧ mQueue tile = 1 ∧ mClass tile = 1 ∧ mTag tile = 0x42 ∧ mSrcUnit tile = 2 ∧ mPointer tile = 0x810000200000 ∧
    mLength tile = 4096 := by decide
/-- FIPS 180-4's example: SHA-256 of the three bytes "abc". -/
theorem test_sha256 : sha256 [0x61, 0x62, 0x63] = [0xBA, 0x78, 0x16, 0xBF, 0x8F, 0x01, 0xCF, 0xEA, 0x41, 0x41, 0x40, 0xDE, 0x5D, 0xAE, 0x22, 0x23,
    0xB0, 0x03, 0x61, 0xA3, 0x96, 0x17, 0x7A, 0x9C, 0xB4, 0x10, 0xFF, 0x61, 0xF2, 0x00, 0x15, 0xAD] := by decide +kernel
/-- Table 16-9: the GRACE_EXPIRED entry's words. -/
theorem test_entry :
    let v := entryImage { base with log := { base.log with boot := 3 } } ⟨1002000000, 0x0D, 0xFF, 2, 0x000007D000000000⟩ 0x215 0
    entryWord v 0 = 0x000000003BB94E80 ∧ entryWord v 1 = 0x000007D000000000 ∧ entryWord v 2 = 0xFF0D000300000215 ∧
    (entryWord v 3).toNat % 2 ^ 48 = 2 := by decide +kernel
/-- Table 7-11: the hold-up checks of the worked example. -/
def packCard : State :=
  (((((base.setFld 0 F.HM_HU_CFG0_C_UF 0 2200).setFld 0 F.HM_HU_CFG0_RATIO 0 (12 * 256)).setFld 0 F.HM_HU_CFG0_VMIN_MV 0 4500).setFld 0
    F.HM_HU_CFG1_FIXED 0 1500).setFld 0 F.HM_HU_CFG1_PER_BYTE 0 30000)
theorem test_holdup : packCard.huGrants 1422 65536 = true ∧ packCard.energy 1422 = 5216 ∧ packCard.huGrants 1329 36864 = false ∧
    packCard.energy 1329 = 1738 := by decide +kernel
/-- The Dredger's worked example: Tq of the first sweep and the accepted candidate; at T of about 0.491 no draw accepts it. -/
theorem test_accepts : ({ t := 0x43480000, k := 0x4007FAD3 } : Anneal).tq / 10 = 10878 ∧ lq 40000 = 126 ∧ accepts 150 108784 40000 = true ∧
    accepts 150 267 0 = false := by decide +kernel
/-- R371: page size and TSIZE of the worked example's pool. -/
def pool0 : Pool :=
  { fmt := 10, dec := 4, dim := 32, layers := 6, heads := 4, part := 0, base := 0x8100400000, first := 0, count := 1536, seqFirst := 0,
    seqCount := 4, maxp := 32, mapBase := 0, khead := 0, floor := 0, smscale := 0 }
theorem test_pool : pool0.stride = 1728 ∧ pool0.tsize = 40960 := by decide
/-- The address space's worked example: the window of chip 9 of a 2 × 2 domain, and chip 2, which does not exist. -/
theorem test_window : (board 0 {}).place 0x890020000000 = .remote 9 0x0020000000 ∧ (board 0 {}).place 0x820020000000 = .hole := by decide +kernel

/-! ## Single steps -/

/-- The state that an answer gives. -/
def got (o : Out) : State := match o with
  | .next t => t
  | _ => State.reset
/-- R123: ADD wraps at 64 bits. -/
theorem test_add_wraps : G 3 (got (exec (.add 3 1 1 2) (code (.add 3 1 1 2) (progG [(1, 0xFFFFFFFFFFFFFFFF), (2, 2)] [])))) 1 = 1 := by
  decide +kernel
/-- R122: a write to G0 is ignored. -/
theorem test_g0 : G 3 (got (exec (.movi 3 0 5) (code (.movi 3 0 5) prog))) 0 = 0 := by decide +kernel
/-- MOVI extends its sign. -/
theorem test_movi : G 3 (got (exec (.movi 3 7 (-1)) (code (.movi 3 7 (-1)) prog))) 7 = 0xFFFFFFFFFFFFFFFF := by decide +kernel
/-- R123: what a sequencer runs is the word at its counter; another instruction's command changes nothing. -/
theorem test_word_at_counter : got (exec (.movi 3 7 (-1)) (code (.movi 3 7 5) prog)) = code (.movi 3 7 5) prog := by decide +kernel
/-- SUB with the destination as its second source. -/
theorem test_sub : G 3 (got (exec (.sub 3 2 1 2) (code (.sub 3 2 1 2) (progG [(1, 5), (2, 7)] [])))) 2 = 0xFFFFFFFFFFFFFFFE := by decide +kernel
/-- A branch that is taken counts from its own index. -/
theorem test_b : ((got (exec (.b 3 0 3) (code (.b 3 0 3) prog))).berth 3).pc = 3 := by decide +kernel
/-- A work order's step: one command at the front, the rest waits. -/
theorem test_step : (got (step { prog with pending := [.movi 3 1 9, .halt 3] })).pending = [.halt 3] := by decide +kernel
/-- R243: POR_N rising samples the straps and starts the start check. -/
theorem test_por : (got (exec (.porNRise 0x104 false true true) { State.reset with pins := { State.reset.pins with rails := true } })).dev = .startCheck := by
  decide +kernel

end Sys2Proof.Tests
end

section
/-! SUPPORT. O8: recording a fault clears no fault bit of any slot, and sets the bit it records; a register access that R44 does
not allow records the requester's hole. -/

namespace Sys2Proof.Machine

/-! ## Bits of BLK_FAULT -/

theorem nbit_eq_testBit (n i : Nat) : nbit n i = n.testBit i := by
  unfold nbit
  rw [Nat.testBit_eq_decide_div_mod_eq]
  rfl

theorem nbit_mod_two_pow (n w i : Nat) : nbit (n % 2 ^ w) i = (decide (i < w) && nbit n i) := by
  rw [nbit_eq_testBit, nbit_eq_testBit, Nat.testBit_mod_two_pow]

theorem State.faults_lt (s : State) (slot : Nat) : s.faults slot < 2 ^ 32 := Nat.mod_lt _ (Nat.two_pow_pos _)

theorem State.lt_32_of_nbit_faults {s : State} {slot g : Nat} (h : nbit (s.faults slot) g = true) : g < 32 := by
  rw [← Nat.mod_eq_of_lt (s.faults_lt slot), nbit_mod_two_pow, Bool.and_eq_true, decide_eq_true_eq] at h
  exact h.1

theorem State.faults_congr {s t : State} (h : t.regs = s.regs) (slot : Nat) : t.faults slot = s.faults slot := by
  unfold State.faults State.fld State.reg
  rw [h]

/-- BLK_FAULT stands alone at offset 0x10 of its slot (Table 19-4). -/
theorem regKey_blkFault_ne {slot : Nat} {r : Reg} {i : Nat} (hr : r.info.off + i * r.info.stride < 0x10000)
    (hne : r.info.off + i * r.info.stride ≠ 0x10) (sl : Nat) : regKey sl .BLK_FAULT 0 ≠ regKey slot r i := by
  show sl * 0x10000 + 0x10 + 0 * 8 ≠ slot * 0x10000 + r.info.off + i * r.info.stride
  omega

/-! ## Updates that clear no fault bit -/

/-- Every fault bit that `s` has set, in any slot, is set in `t`. -/
def State.KeepsFaults (s t : State) : Prop := ∀ slot g, nbit (s.faults slot) g = true → nbit (t.faults slot) g = true

theorem State.KeepsFaults.refl (s : State) : s.KeepsFaults s := fun _ _ h => h

theorem State.KeepsFaults.trans {s t u : State} (h : s.KeepsFaults t) (k : t.KeepsFaults u) : s.KeepsFaults u :=
  fun slot g hg => k slot g (h slot g hg)

theorem State.keepsFaults_of_regs {s t : State} (h : t.regs = s.regs) : s.KeepsFaults t :=
  fun slot _ hg => (State.faults_congr h slot).symm ▸ hg

theorem State.setReg_keepsFaults (s : State) (slot : Nat) (r : Reg) (i : Nat) (v : U64)
    (hr : r.info.off + i * r.info.stride < 0x10000) (hne : r.info.off + i * r.info.stride ≠ 0x10) :
    s.KeepsFaults (s.setReg slot r i v) := fun sl g hg => by
  have h : (s.setReg slot r i v).faults sl = s.faults sl :=
    State.fld_setReg_other s slot sl r F.BLK_FAULT_BITS i 0 v (regKey_blkFault_ne hr hne sl)
  rwa [h]

theorem State.setFld_keepsFaults (s : State) (slot : Nat) (f : Fld) (i x : Nat)
    (hr : f.reg.info.off + i * f.reg.info.stride < 0x10000) (hne : f.reg.info.off + i * f.reg.info.stride ≠ 0x10) :
    s.KeepsFaults (s.setFld slot f i x) := s.setReg_keepsFaults slot f.reg i _ hr hne

theorem State.push_keepsFaults (s : State) (slot group code detail : Nat) : s.KeepsFaults (s.push slot group code detail) :=
  State.keepsFaults_of_regs (by unfold State.push; split <;> rfl)

theorem State.faults_setFault_same (s : State) (slot g : Nat) :
    (s.setFault slot g).faults slot = (s.faults slot ||| 2 ^ g) % 2 ^ 32 :=
  State.fld_setFld_same s slot F.BLK_FAULT_BITS 0 _ (by decide) (by decide)

theorem State.faults_setFault_other (s : State) {slot sl : Nat} (g : Nat) (h : sl ≠ slot) :
    (s.setFault slot g).faults sl = s.faults sl := by
  refine State.fld_setFld_other s slot sl F.BLK_FAULT_BITS F.BLK_FAULT_BITS 0 0 _ ?_
  show sl * 0x10000 + 0x10 + 0 * 8 ≠ slot * 0x10000 + 0x10 + 0 * 8
  omega

theorem State.nbit_faults_setFault (s : State) (slot g j : Nat) :
    nbit ((s.setFault slot g).faults slot) j = (decide (j < 32) && (nbit (s.faults slot) j || decide (g = j))) := by
  rw [State.faults_setFault_same, nbit_mod_two_pow, nbit_or, nbit_pow]

theorem State.setFault_keepsFaults (s : State) (slot g : Nat) : s.KeepsFaults (s.setFault slot g) := fun sl j hj => by
  by_cases h : sl = slot
  · subst h
    simp [State.nbit_faults_setFault, hj, State.lt_32_of_nbit_faults hj]
  · rwa [State.faults_setFault_other s g h]

theorem State.regs_sendVector (s : State) (slot : Nat) : (s.sendVector slot).regs = s.regs := by
  unfold State.sendVector
  split <;> rfl

theorem State.regs_notify (s old : State) (slots : List Nat) : (s.notify old slots).regs = s.regs := by
  have fold (l : List Nat) (t : State) :
      (l.foldl (fun t sl => if s.irqPend sl && !old.irqPend sl then t.sendVector sl else t) t).regs = t.regs := by
    induction l generalizing t with
    | nil => rfl
    | cons sl l ih =>
      rw [List.foldl_cons, ih]
      split
      exacts [State.regs_sendVector t sl, rfl]
  unfold State.notify
  dsimp only
  split <;> exact fold slots s

theorem State.notify_keepsFaults (s old : State) (slots : List Nat) : s.KeepsFaults (s.notify old slots) :=
  State.keepsFaults_of_regs (State.regs_notify s old slots)

theorem State.append_keepsFaults (s : State) (slot group code detail : Nat) :
    s.KeepsFaults (s.append slot group code detail) := by
  unfold State.append
  dsimp only
  split
  · exact (State.push_keepsFaults s _ _ _ _).trans ((State.setFault_keepsFaults _ 3 4).trans
      ((State.push_keepsFaults _ _ _ _ _).trans (State.notify_keepsFaults _ _ _)))
  · exact State.push_keepsFaults s _ _ _ _

theorem State.markOut_keepsFaults (s old : State) : s.KeepsFaults (s.markOut old) := State.keepsFaults_of_regs rfl

theorem State.withHm_keepsFaults (s : State) (hm : Hm) : s.KeepsFaults { s with hm := hm } := State.keepsFaults_of_regs rfl

theorem State.setDev_keepsFaults (s : State) (new : DevState) (cause : Nat) : s.KeepsFaults (s.setDev new cause) := by
  have entry (v : U64) (x : Nat) :
      s.KeepsFaults ((({ s with dev := new } : State).setReg 0 .HM_STATE 0 v).append 0 0xFF 0x0006 x) :=
    (State.keepsFaults_of_regs rfl).trans
      ((State.setReg_keepsFaults { s with dev := new } 0 .HM_STATE 0 v (by decide) (by decide)).trans
        (State.append_keepsFaults _ _ _ _ _))
  have actOff (t : State) : t.KeepsFaults (t.setFld 0x13 F.SO_CMD_ACT 0 0) :=
    State.setFld_keepsFaults t 0x13 F.SO_CMD_ACT 0 0 (by decide) (by decide)
  unfold State.setDev
  cases new
  case safe | service | startCheck => exact (entry _ _).trans ((actOff _).trans (State.markOut_keepsFaults _ _))
  all_goals exact (entry _ _).trans (State.markOut_keepsFaults _ _)

theorem State.enterSafe_keepsFaults (s : State) (cause : Nat) : s.KeepsFaults (s.enterSafe cause) := by
  have entered : s.KeepsFaults (((s.setDev .safe cause).setFld 0 F.HM_SAFE_STAT_IN_SAFE 0 1).setFld 0 F.HM_SAFE_STAT_PENDING 0 0) :=
    (State.setDev_keepsFaults s .safe cause).trans
      ((State.setFld_keepsFaults _ 0 F.HM_SAFE_STAT_IN_SAFE 0 1 (by decide) (by decide)).trans
        (State.setFld_keepsFaults _ 0 F.HM_SAFE_STAT_PENDING 0 0 (by decide) (by decide)))
  have timed (t : State) (hm : Hm) : t.KeepsFaults { t.setReg 0 .HM_SAFE_T 0 s.tide with hm := hm } :=
    (State.setReg_keepsFaults t 0 .HM_SAFE_T 0 s.tide (by decide) (by decide)).trans (State.withHm_keepsFaults _ hm)
  unfold State.enterSafe
  dsimp only
  split
  · exact State.KeepsFaults.refl s
  · refine entered.trans (State.KeepsFaults.trans ?_ (timed _ _))
    split
    · exact State.KeepsFaults.refl _
    · exact State.setFld_keepsFaults _ 0 F.HM_SAFE_STAT_CAUSE 0 cause (by decide) (by decide)

theorem State.settle_keepsFaults (s : State) (cause : Nat) : s.KeepsFaults (s.settle cause) := by
  unfold State.settle
  dsimp only
  split
  · split
    · exact State.enterSafe_keepsFaults s cause
    · exact State.enterSafe_keepsFaults s cause
    · exact State.withHm_keepsFaults _ _
    · exact (State.setFld_keepsFaults s 0 F.HM_SAFE_STAT_PENDING 0 1 (by decide) (by decide)).trans (State.withHm_keepsFaults _ _)
    · exact (State.setFld_keepsFaults s 0x13 F.SO_STAT_LATCHED 0 1 (by decide) (by decide)).trans (State.withHm_keepsFaults _ _)
    · exact State.withHm_keepsFaults _ _
    · exact State.KeepsFaults.refl s
  · exact State.KeepsFaults.refl s

/-! ## The recorded bit (R560) -/

/-- Recording a fault of a group that has a source leaves its bit set, whether it was set before or not. -/
theorem State.nbit_faults_recordAs (s : State) {slot g : Nat} (cause : Nat) (hs : nbit (sourceMask slot) g = true) (hg : g < 32) :
    nbit ((s.recordAs slot g cause).faults slot) g = true := by
  unfold State.recordAs
  dsimp only
  split
  case isTrue h => simpa [hs] using h
  case isFalse =>
    have isSet : nbit ((s.setFault slot g).faults slot) g = true := by simp [State.nbit_faults_setFault, hg]
    exact State.settle_keepsFaults _ _ slot g (State.notify_keepsFaults _ _ _ slot g (State.append_keepsFaults _ _ _ _ _ slot g isSet))

/-- Every group in which a requester's holes are recorded has a source (R669, Table 19-2). -/
theorem holeGroup_source {who : Requester} {slot g : Nat} (h : holeGroup who = some (slot, g)) :
    nbit (sourceMask slot) g = true ∧ g < 32 := by
  have berths : ∀ n : Fin 32, nbit (sourceMask (bslot n)) 0 = true := by decide
  cases who <;> cases h
  case berth n => exact ⟨berths n, by decide⟩
  all_goals decide

theorem State.nbit_faults_recordHole (s : State) {who : Requester} {slot g : Nat} (h : holeGroup who = some (slot, g)) :
    nbit ((s.recordHole who).faults slot) g = true := by
  obtain ⟨hs, hg⟩ := holeGroup_source h
  unfold State.recordHole
  rw [h]
  exact State.nbit_faults_recordAs s 6 hs hg

/-! ## Register accesses that R44 does not allow -/

theorem regRead44_iff (size off : Nat) : regRead44 size off = true ↔ (size = 4 ∨ size = 8) ∧ off % size = 0 := by
  simp [regRead44]

theorem regWrite44_iff (size off : Nat) : regWrite44 size off = true ↔ size = 8 ∧ off % 8 = 0 := by
  simp [regWrite44]

theorem State.regOp_read_refused (s : State) (who : Requester) (slot : Nat) {off size : Nat} (h : regRead44 size off ≠ true) :
    s.regOp who slot off (.read size) = ⟨.poison, List.replicate size 0, s.recordHole who⟩ := by
  simp [State.regOp, State.regRead, poison, h]

theorem State.regOp_write_refused (s : State) (who : Requester) (slot : Nat) {off : Nat} {d : List Byte}
    (h : regWrite44 d.length off ≠ true) : s.regOp who slot off (.write d) = ⟨.poison, [], s.recordHole who⟩ := by
  simp [State.regOp, h]

/-- Settles O8: R44's test fails exactly on the accesses named, and recording the requester's hole leaves its bit set. -/
theorem registerAccessShape : Obligations.RegisterAccessShape := by
  intro s who slot off
  refine ⟨fun k h => ?_, fun d h => ?_, fun sl g h => State.nbit_faults_recordHole s h⟩
  · exact State.regOp_read_refused s who slot (mt (regRead44_iff k off).mp h)
  · exact State.regOp_write_refused s who slot (mt (regWrite44_iff d.length off).mp h)

end Sys2Proof.Machine
end

section
/-! SUPPORT. O22: the Berth whose sequencer has just started (R121). -/

namespace Sys2Proof.Machine

/-- Berth `b` as the start of its sequencer at instruction `entry` leaves it (R121). -/
def Berth.started (b : Berth) (entry : Nat) : Berth :=
  { b with g := [], a := [], l := [], z := false, nf := false, c := false, e := false, loops := [], wait := .none, loaded := none,
           stopReq := false, seq := .running, pc := entry }

@[simp] theorem Berth.gr_started (b : Berth) (entry i : Nat) : (b.started entry).gr i = 0 := ite_self 0
@[simp] theorem Berth.ar_started (b : Berth) (entry i : Nat) : (b.started entry).ar i = 0 := rfl
@[simp] theorem Berth.lr_started (b : Berth) (entry i : Nat) : (b.started entry).lr i = 0 := rfl

/-- A Berth without a program is not started. -/
theorem State.seqStart_of_noProgram {s : State} {n : Nat} (h : s.fld (bslot n) F.SEQ_CFG_PROG_SIZE 0 = 0) : s.seqStart n = s :=
  if_pos h

theorem State.seqStart_of_program {s : State} {n : Nat} (h : s.fld (bslot n) F.SEQ_CFG_PROG_SIZE 0 ≠ 0) :
    s.seqStart n = s.setBerth n ((s.berth n).started (s.fld (bslot n) F.SEQ_CFG_ENTRY 0)) := if_neg h

end Sys2Proof.Machine

namespace Sys2Proof.Claims
open Sys2Proof.Machine

/-- Setting Berth `n` differs from the state before in Berth `n` alone. -/
theorem onlyBerth_setBerth (n : Fin 32) (s : State) (b : Berth) : OnlyBerth n s (s.setBerth n b) := by
  unfold OnlyBerth
  rw [State.berth_setBerth_same]

/-- Settles O22: without a program nothing happens; with one, the only change is that Berth `n` becomes `Berth.started`. -/
theorem startedSequencerIsCleared : Obligations.StartedSequencerIsCleared := by
  intro s n
  refine ⟨State.seqStart_of_noProgram, fun h => ?_⟩
  have started : s.seqStart n = s.setBerth n ((s.berth n).started (s.fld (bslot n) F.SEQ_CFG_ENTRY 0)) :=
    State.seqStart_of_program h
  simp only [started, G, A, State.berth_setBerth_same]
  exact ⟨onlyBerth_setBerth n s _, rfl, rfl, fun r => Berth.gr_started _ _ r, fun r => Berth.ar_started _ _ r,
    fun l => Berth.lr_started _ _ l, rfl, rfl, rfl, rfl⟩

end Sys2Proof.Claims
end

section
/-! SUPPORT. O25: SEQ_ACCESS, how a load, an atomic or a store goes on after it, and the misaligned access of each instruction
(R131, R134). -/

namespace Sys2Proof.Machine

theorem State.Recorded.berth {s t : State} (h : s.Recorded t) (n : Nat) : t.berth n = s.berth n := by
  unfold State.berth
  rw [h.berths]

/-! ## SEQ_ACCESS -/

theorem State.seqAccess_recorded (s : State) (n : Nat) (st : Status) (word : U32) : s.Recorded (s.seqAccess n st word) :=
  (State.seqFlt_recorded s n 15 _ _ word).trans (State.record_recorded _ _ 15)

/-- SEQ_ACCESS has a source in every Berth's block (Table 19-2), so that recording it leaves its bit set. -/
theorem State.nbit_faults_seqAccess (s : State) (n : Fin 32) (st : Status) (word : U32) :
    nbit ((s.seqAccess n st word).faults (bslot n)) 15 = true := by
  have source : ∀ m : Fin 32, nbit (sourceMask (bslot m)) 15 = true := by decide
  exact State.nbit_faults_recordAs _ 6 (source n) (by decide)

/-! ## The end of a load or an atomic -/

theorem State.gr_loadDone (s : State) (n d : Nat) (cas : Bool) (st : Status) (v : U64) (i : Nat) :
    ((s.loadDone n d cas st v).berth n).gr i = ((s.berth n).setG d (if st = .ok then v else 0)).gr i := by
  cases cas <;> exact (congrArg (Berth.gr · i) (State.berth_setBerth_same _ n _)).trans rfl

theorem State.loadDone_e (s : State) (n d : Nat) (cas : Bool) (st : Status) (v : U64) :
    ((s.loadDone n d cas st v).berth n).e = (st != .ok) := by
  cases cas <;> exact (congrArg Berth.e (State.berth_setBerth_same _ n _)).trans rfl

theorem State.loadDone_mem (s : State) (n d : Nat) (cas : Bool) (st : Status) (v : U64) :
    (s.loadDone n d cas st v).mem = s.mem := by
  cases cas <;> rfl

theorem State.loadDone_regs (s : State) (n d : Nat) (cas : Bool) (st : Status) (v : U64) :
    (s.loadDone n d cas st v).regs = s.regs := by
  cases cas <;> rfl

end Sys2Proof.Machine

namespace Sys2Proof.Claims
open Sys2Proof.Machine

/-! ## What the misaligned access of an instruction answers -/

section
variable (n : Fin 32) (d b : Fin 16) (a : Fin 8) (imm : BitVec 18) (s : State)

theorem exec_ld : exec (.ld n d a imm) s = loadInstr (.ld n d a imm) n d a imm 8 s := rfl
theorem exec_ldw : exec (.ldw n d a imm) s = loadInstr (.ldw n d a imm) n d a imm 4 s := rfl
theorem exec_st : exec (.st n d a imm) s = storeInstr (.st n d a imm) n d a imm 8 s := rfl
theorem exec_stw : exec (.stw n d a imm) s = storeInstr (.stw n d a imm) n d a imm 4 s := rfl
theorem exec_fadd : exec (.fadd n d a b) s = atomicInstr (.fadd n d a b) n d a false (fun x => .fetchAdd (x.gr b)) s := rfl
theorem exec_cas : exec (.cas n d a b) s = atomicInstr (.cas n d a b) n d a true (fun x => .cas (x.gr d) (x.gr b)) s := rfl

end

theorem issue_of_fetches {i : Instr} {n : Fin 32} {s : State} (k : U32 → State → State) (hr : Ready n s) (hf : Fetches n i s) :
    s.issue i n k = .next (k (s.wordAt n) (fetched n s)) := by
  obtain ⟨issues, inProgram, fetchOk⟩ := hr
  exact State.issue_ready s i n k issues inProgram fetchOk hf

section
variable {i : Instr} {n : Fin 32} {d : Fin 16} {a : Fin 8} {s : State} (hr : Ready n s) (hf : Fetches n i s)
include hr hf

theorem loadInstr_misaligned {imm : BitVec 18} {size : Nat} (hx : (A n (fetched n s) a + imm.signExtend 48).toNat % size ≠ 0) :
    loadInstr i n d a imm size s = .next (((fetched n s).misaligned n (s.wordAt n)).loadDone n d false .poison 0) := by
  unfold loadInstr
  rw [issue_of_fetches _ hr hf]
  exact congrArg Host.Outcome.next (if_pos hx)

theorem atomicInstr_misaligned {cas : Bool} {op : Berth → MemOp} (hx : (A n (fetched n s) a).toNat % 8 ≠ 0) :
    atomicInstr i n d a cas op s = .next (((fetched n s).misaligned n (s.wordAt n)).loadDone n d cas .poison 0) := by
  unfold atomicInstr
  rw [issue_of_fetches _ hr hf]
  exact congrArg Host.Outcome.next (if_pos hx)

theorem storeInstr_misaligned {imm : BitVec 18} {size : Nat} (hx : (A n (fetched n s) a + imm.signExtend 48).toNat % size ≠ 0) :
    storeInstr i n d a imm size s = .next (((fetched n s).misaligned n (s.wordAt n)).setBerth n
      (((fetched n s).misaligned n (s.wordAt n)).berth n).next) := by
  unfold storeInstr
  rw [issue_of_fetches _ hr hf]
  exact congrArg Host.Outcome.next (if_pos hx)

end

/-! ## What that answer holds -/

/-- A load or an atomic that is not performed: Gd and E take the completion POISON, SEQ_ACCESS is set, the rest stays. -/
theorem loadDone_of_misaligned (f : State) (n : Fin 32) (d : Fin 16) (cas : Bool) (word : U32) :
    let t := (f.misaligned n word).loadDone n d cas .poison 0
    G n t d = 0 ∧ (t.berth n).e = true ∧ SameG n [d] f t ∧ t.mem = f.mem ∧ nbit (t.faults (bslot n)) 15 = true := by
  have recorded : f.Recorded (f.misaligned n word) := State.seqAccess_recorded f n .poison word
  have gr (r : Nat) : (((f.misaligned n word).loadDone n d cas .poison 0).berth n).gr r = ((f.berth n).setG d 0).gr r := by
    rw [State.gr_loadDone, recorded.berth, if_neg (by decide)]
  refine ⟨?_, State.loadDone_e _ n d cas .poison 0, fun r hr => ?_, ?_, ?_⟩
  · exact (gr d).trans ((Berth.gr_setG_same _ _ _).trans (ite_self 0))
  · have apart : r.val ≠ d.val := fun h => hr (List.mem_singleton.mpr (Fin.ext h))
    exact (gr r).trans (Berth.gr_setG_other _ _ _ _ apart)
  · exact (State.loadDone_mem _ _ _ _ _ _).trans recorded.mem
  · rw [State.faults_congr (State.loadDone_regs _ _ _ _ _ _)]
    exact State.nbit_faults_seqAccess f n .poison word

/-- A store that is not performed: SEQ_ACCESS is set, the sequencer goes on, registers, flags and memory stay. -/
theorem setBerth_next_of_misaligned (f : State) (n : Fin 32) (word : U32) :
    let t := (f.misaligned n word).setBerth n ((f.misaligned n word).berth n).next
    SameG n [] f t ∧ SameFlags n f t ∧ t.mem = f.mem ∧ nbit (t.faults (bslot n)) 15 = true := by
  have recorded : f.Recorded (f.misaligned n word) := State.seqAccess_recorded f n .poison word
  have berth : ((f.misaligned n word).setBerth n ((f.misaligned n word).berth n).next).berth n = (f.berth n).next := by
    rw [State.berth_setBerth_same, recorded.berth]
  refine ⟨fun r _ => ?_, ?_, recorded.mem, ?_⟩
  · exact (congrArg (Berth.gr · r) berth).trans (Berth.gr_next _ _)
  · simp [SameFlags, berth]
  · rw [State.faults_congr (State.setBerth_regs _ _ _)]
    exact State.nbit_faults_seqAccess f n .poison word

/-- Settles O25: each instruction answers a misaligned address with SEQ_ACCESS; a load or atomic then completes with POISON, a
store goes on. -/
theorem misalignedAccessIsNotPerformed : Obligations.MisalignedAccessIsNotPerformed := by
  intro n d b a i s hr f x c hf
  constructor
  · rintro (⟨rfl, hx⟩ | ⟨rfl, hx⟩ | ⟨rfl, hx⟩ | ⟨rfl, hx⟩)
    · exact ⟨_, (exec_ld n d a i s).trans (loadInstr_misaligned hr hf hx), loadDone_of_misaligned f n d false _⟩
    · exact ⟨_, (exec_ldw n d a i s).trans (loadInstr_misaligned hr hf hx), loadDone_of_misaligned f n d false _⟩
    · exact ⟨_, (exec_fadd n d b a s).trans (atomicInstr_misaligned hr hf hx), loadDone_of_misaligned f n d false _⟩
    · exact ⟨_, (exec_cas n d b a s).trans (atomicInstr_misaligned hr hf hx), loadDone_of_misaligned f n d true _⟩
  · rintro (⟨rfl, hx⟩ | ⟨rfl, hx⟩)
    · exact ⟨_, (exec_st n d a i s).trans (storeInstr_misaligned hr hf hx), setBerth_next_of_misaligned f n _⟩
    · exact ⟨_, (exec_stw n d a i s).trans (storeInstr_misaligned hr hf hx), setBerth_next_of_misaligned f n _⟩

end Sys2Proof.Claims
end

section
/-! SUPPORT. O41: when the safe output stage drives an output at its active level (R572, R657), and the level that follows. -/

namespace Sys2Proof.Machine

/-- R572's five conditions, and no hold of the boundary cells at the safe level by EXTEST or CLAMP (R657). -/
theorem State.outActive_eq_true_iff (s : State) (k : Nat) :
    s.outActive k = true ↔
      (nbit (s.fld 0x13 F.SO_CFG_EN 0) k = true ∧ nbit (s.fld 0x13 F.SO_CMD_ACT 0) k = true ∧ s.dev = .run ∧ s.anyLine = false ∧
        s.pins.factory = false) ∧ s.host.tapIr ≠ 3 ∧ s.host.tapIr ≠ 4 := by
  simp [State.outActive, and_assoc]

/-- The two levels of an output differ, so the commanded level tells whether the output is active. -/
theorem State.outLevel_ne_safeLevel_iff (s : State) (k : Nat) : s.outLevel k ≠ s.safeLevel ↔ s.outActive k = true := by
  cases h : s.outActive k <;> simp [State.outLevel, h]

end Sys2Proof.Machine

namespace Sys2Proof.Claims
open Sys2Proof.Machine

/-- Settles O41: the level is the active one exactly when `outActive` holds, which is R572's conditions without the hold of R657;
the safe level and the ball are the stage's definitions. -/
theorem outputsAreActiveOnlyInRun : Obligations.OutputsAreActiveOnlyInRun := by
  intro s k on
  refine ⟨fun differs => ?_, fun conditions noExtest noClamp => ?_, rfl, rfl⟩
  · exact ((s.outActive_eq_true_iff k).mp ((s.outLevel_ne_safeLevel_iff k).mp differs)).1
  · have active : s.outActive k = true := (s.outActive_eq_true_iff k).mpr ⟨conditions, noExtest, noClamp⟩
    exact Bool.eq_not_iff.mpr ((s.outLevel_ne_safeLevel_iff k).mpr active)

end Sys2Proof.Claims
end

section
/-! SUPPORT. O11, O12, O13: the fields of an instruction word (R123), read from the word of each format and put together to it
again, and the opcodes that decode. -/

namespace Sys2Proof

/-! ## The fields of each format's word -/

section
variable {w : U32}

theorem fields_of_wordR {op d a b x : Nat} (hw : some (wordR op d a b x) = some w) (hop : op < 64) (hd : d < 16) (ha : a < 16)
    (hb : b < 16) (hx : x < 2 ^ 14) :
    wordOp w = op ∧ wordBits w 25 22 = d ∧ wordBits w 24 22 = d % 8 ∧ wordBits w 21 18 = a ∧ wordBits w 20 18 = a % 8 ∧
      wordBits w 17 14 = b ∧ wordBits w 13 12 = x / 4096 ∧ wordBits w 11 0 = x % 4096 ∧ wordBits w 5 0 = x % 64 ∧
      wordBits w 0 0 = x % 2 := by
  obtain rfl := Option.some.inj hw
  simp only [wordOp, wordBits, wordR, BitVec.toNat_ofNat]
  omega

theorem fields_of_wordI {op d a : Nat} {i : BitVec 18} (hw : some (wordI op d a i) = some w) (hop : op < 64) (hd : d < 16)
    (ha : a < 16) :
    wordOp w = op ∧ wordBits w 25 22 = d ∧ wordBits w 24 22 = d % 8 ∧ wordBits w 21 18 = a ∧ wordBits w 20 18 = a % 8 ∧
      wordBits w 17 0 = i.toNat := by
  obtain rfl := Option.some.inj hw
  simp only [wordOp, wordBits, wordI, BitVec.toNat_ofNat]
  omega

theorem fields_of_wordW {op d : Nat} {i : BitVec 22} (hw : some (wordW op d i) = some w) (hop : op < 64) (hd : d < 16) :
    wordOp w = op ∧ wordBits w 25 22 = d ∧ wordBits w 21 0 = i.toNat := by
  obtain rfl := Option.some.inj hw
  simp only [wordOp, wordBits, wordW, BitVec.toNat_ofNat]
  omega

theorem fields_of_movhi {n : Fin 32} {d : Fin 16} {h : Fin 4} {i : BitVec 16} (hw : seqWord (.movhi n d h i) = some w) :
    wordOp w = 0x19 ∧ wordBits w 25 22 = d ∧ wordBits w 21 20 = h ∧ wordBits w 15 0 = i.toNat := by
  obtain rfl := Option.some.inj hw
  simp only [wordOp, wordBits, BitVec.toNat_ofNat]
  omega

theorem fields_of_loop {n : Fin 32} {l : Fin 4} {c : Fin 16} {len : BitVec 12} (hw : seqWord (.loop n l c len) = some w) :
    wordOp w = 0x2C ∧ wordBits w 25 24 = l ∧ wordBits w 21 18 = c ∧ wordBits w 11 0 = len.toNat := by
  obtain rfl := Option.some.inj hw
  simp only [wordOp, wordBits, BitVec.toNat_ofNat]
  omega

theorem fields_of_loopi {n : Fin 32} {l : Fin 4} {count len : BitVec 12} (hw : seqWord (.loopi n l count len) = some w) :
    wordOp w = 0x2D ∧ wordBits w 25 24 = l ∧ wordBits w 23 12 = count.toNat ∧ wordBits w 11 0 = len.toNat := by
  obtain rfl := Option.some.inj hw
  simp only [wordOp, wordBits, BitVec.toNat_ofNat]
  omega

theorem fields_of_relq {n : Fin 32} {q : Fin 4} (hw : seqWord (.relq n q) = some w) :
    wordOp w = 0x34 ∧ wordBits w 25 24 = q := by
  obtain rfl := Option.some.inj hw
  simp only [wordOp, wordBits, BitVec.toNat_ofNat]
  omega

end

/-- A legal word decodes to the command it is the word of, in the program of that command's Berth. -/
theorem seqDecode_seqWord {i : Instr} {w : U32} (hw : seqWord i = some w) (hl : illegalCause w = 0) : ∃ n, seqDecode n w = some i := by
  cases i with
  | add n _ _ _ | sub n _ _ _ | and n _ _ _ | or n _ _ _ | xor n _ _ _ | shl n _ _ _ | shr n _ _ _ | sar n _ _ _ | mul n _ _ _
  | min n _ _ _ | max n _ _ _ | cmp n _ _ | amov n _ _ | gmov n _ _ | fadd n _ _ _ | cas n _ _ _ | ret n | wo n _ _ | send n _ _
  | sendnb n _ _ | waitt n _ | rdtide n _ | commit n _ _ | squash n _ | yield n | halt n | stamp n _ _ =>
    have fields := fields_of_wordR hw (by omega) (by omega) (by omega) (by omega) (by omega)
    exact ⟨n, by simp (disch := omega) [seqDecode, hl, fields, wordFin, Nat.mod_eq_of_lt]⟩
  | poll n _ _ _ unit count =>
    have fields := fields_of_wordR hw (by omega) (by omega) (by omega) (by omega) (by omega)
    have high : (unit.toNat * 4096 + count.toNat) / 4096 = unit.toNat := by omega
    exact ⟨n, by simp (disch := omega) [seqDecode, hl, fields, high, wordFin, Nat.mod_eq_of_lt]⟩
  | addi n _ _ _ | andi n _ _ _ | ori n _ _ _ | xori n _ _ _ | shli n _ _ _ | shri n _ _ _ | sari n _ _ _ | cmpi n _ _ | aaddi n _ _ _
  | ld n _ _ _ | ldw n _ _ _ | st n _ _ _ | stw n _ _ _ =>
    have fields := fields_of_wordI hw (by omega) (by omega) (by omega)
    exact ⟨n, by simp (disch := omega) [seqDecode, hl, fields, wordFin, Nat.mod_eq_of_lt]⟩
  | movi n _ _ | b n _ _ | call n _ =>
    have fields := fields_of_wordW hw (by omega) (by omega)
    exact ⟨n, by simp (disch := omega) [seqDecode, hl, fields, wordFin, Nat.mod_eq_of_lt]⟩
  | fence n w =>
    have fields := fields_of_wordR hw (by omega) (by omega) (by omega) (by omega) (by split <;> omega)
    exact ⟨n, by cases w <;> simp [seqDecode, hl, fields]⟩
  | movhi n _ _ _ => exact ⟨n, by simp (disch := omega) [seqDecode, hl, fields_of_movhi hw, wordFin, Nat.mod_eq_of_lt]⟩
  | loop n _ _ _ => exact ⟨n, by simp (disch := omega) [seqDecode, hl, fields_of_loop hw, wordFin, Nat.mod_eq_of_lt]⟩
  | loopi n _ _ _ => exact ⟨n, by simp (disch := omega) [seqDecode, hl, fields_of_loopi hw, wordFin, Nat.mod_eq_of_lt]⟩
  | relq n _ => exact ⟨n, by simp (disch := omega) [seqDecode, hl, fields_of_relq hw, wordFin, Nat.mod_eq_of_lt]⟩
  | _ => cases hw

/-- Settles O11: the decoder reads back the fields that the word of the command holds. -/
theorem sequencerWordsRoundTrip : Obligations.SequencerWordsRoundTrip := fun _ _ hw hl => seqDecode_seqWord hw hl

/-! ## Parts of fields -/

/-- A field is its part above a bit and its part up to it. -/
theorem wordBits_split (w : U32) {hi lo : Nat} (mid : Nat) (h1 : lo ≤ mid) (h2 : mid ≤ hi) :
    wordBits w hi lo = wordBits w hi (mid + 1) * 2 ^ (mid + 1 - lo) + wordBits w mid lo := by
  obtain ⟨m, rfl⟩ := Nat.exists_eq_add_of_le h1
  obtain ⟨k, rfl⟩ := Nat.exists_eq_add_of_le h2
  have whole : lo + m + k + 1 - lo = m + 1 + k := by omega
  have upper : lo + m + k + 1 - (lo + m + 1) = k := by omega
  have lower : lo + m + 1 - lo = m + 1 := by omega
  simp only [wordBits, whole, upper, lower]
  rw [add_assoc lo m 1, pow_add 2 lo, pow_add 2 (m + 1), Nat.mod_mul, ← Nat.div_div_eq_div_mul]
  ring

theorem wordBits_low_eq_zero {w : U32} {hi lo : Nat} (h : wordBits w hi lo = 0) (mid : Nat) (h1 : lo ≤ mid) (h2 : mid ≤ hi) :
    wordBits w mid lo = 0 := by
  have parts := wordBits_split w mid h1 h2
  omega

theorem wordBits_high_eq_zero {w : U32} {hi lo : Nat} (h : wordBits w hi lo = 0) (mid : Nat) (h1 : lo ≤ mid) (h2 : mid ≤ hi) :
    wordBits w hi (mid + 1) = 0 := by
  have parts := wordBits_split w mid h1 h2
  have pos : 0 < 2 ^ (mid + 1 - lo) := Nat.two_pow_pos _
  rw [h] at parts
  exact (Nat.mul_eq_zero.mp (by omega)).resolve_right pos.ne'

/-- A legal word has a listed opcode; its fields of Tables 4-1 and 4-2 that shall be zero are zero. -/
theorem zeroFields_of_legal {w : U32} (hl : illegalCause w = 0) : ∃ z, zeroFields (wordOp w) = some z ∧
    (∀ f ∈ z, wordBits w f.1 f.2 = 0) ∧ ∀ f ∈ addrFields (wordOp w), wordBits w f.1 f.2 = 0 := by
  unfold illegalCause at hl
  split at hl
  case h_1 => cases hl
  case h_2 z listed =>
    split_ifs at hl with hz ha
    exact ⟨z, listed, by simpa using hz, by simpa using ha⟩

/-- The fields of Tables 4-1 and 4-2 that shall be zero in a legal word of opcode `op`. -/
theorem zeroFields_of_op {w : U32} {op : Nat} (hl : illegalCause w = 0) (h : wordOp w = op) {z : List (Nat × Nat)}
   (hz : zeroFields op = some z) : (∀ f ∈ z, wordBits w f.1 f.2 = 0) ∧ ∀ f ∈ addrFields op, wordBits w f.1 f.2 = 0 := by
  obtain ⟨z', hz', a, b⟩ := zeroFields_of_legal hl
  rw [h] at hz' b
  rw [hz] at hz'
  cases hz'
  exact ⟨a, b⟩

theorem wordFin_val {k : Nat} (w : U32) {hi lo : Nat} (h : 2 ^ (hi + 1 - lo) = k + 1) : (wordFin k w hi lo).val = wordBits w hi lo := by
  simp [wordFin, ← h, wordBits]

theorem toNat_ofNat_wordBits {k : Nat} (w : U32) {hi lo : Nat} (h : hi + 1 - lo = k) :
    (BitVec.ofNat k (wordBits w hi lo)).toNat = wordBits w hi lo := by
  simp [← h, wordBits]

theorem ite_wordBits_bit (w : U32) : (if wordBits w 0 0 == 1 then 1 else 0) = wordBits w 0 0 := by
  unfold wordBits
  split <;> simp_all



/-! ## The word of the fields -/

theorem wordR_eq {w : U32} {op d a b x : Nat} (hop : wordOp w = op) (hd : d = wordBits w 25 22) (ha : a = wordBits w 21 18)
    (hb : b = wordBits w 17 14) (hx : x = wordBits w 13 0) : wordR op d a b x = w := by
  subst hop hd ha hb hx
  apply BitVec.eq_of_toNat_eq
  simp only [wordOp, wordBits, wordR, BitVec.toNat_ofNat]
  omega

/-- Format R with its lower 18 bits zero. -/
theorem wordR_eq_of_low_zero {w : U32} {op d a : Nat} (hop : wordOp w = op) (hd : d = wordBits w 25 22) (ha : a = wordBits w 21 18)
    (hz : wordBits w 17 0 = 0) : wordR op d a 0 0 = w :=
  wordR_eq hop hd ha (wordBits_high_eq_zero hz 13 (by omega) (by omega)).symm (wordBits_low_eq_zero hz 13 (by omega) (by omega)).symm

/-- Format R of an opcode alone. -/
theorem wordR_eq_of_zero {w : U32} {op : Nat} (hop : wordOp w = op) (hz : wordBits w 25 0 = 0) : wordR op 0 0 0 0 = w := by
  have low := wordBits_low_eq_zero hz 21 (by omega) (by omega)
  exact wordR_eq_of_low_zero hop (wordBits_high_eq_zero hz 21 (by omega) (by omega)).symm
    (wordBits_high_eq_zero low 17 (by omega) (by omega)).symm (wordBits_low_eq_zero low 17 (by omega) (by omega))

theorem wordI_eq {w : U32} {op d a : Nat} (hop : wordOp w = op) (hd : d = wordBits w 25 22) (ha : a = wordBits w 21 18) :
    wordI op d a (BitVec.ofNat 18 (wordBits w 17 0)) = w := by
  subst hop hd ha
  apply BitVec.eq_of_toNat_eq
  simp only [wordOp, wordBits, wordI, BitVec.toNat_ofNat]
  omega

theorem wordW_eq {w : U32} {op d : Nat} (hop : wordOp w = op) (hd : d = wordBits w 25 22) :
    wordW op d (BitVec.ofNat 22 (wordBits w 21 0)) = w := by
  subst hop hd
  apply BitVec.eq_of_toNat_eq
  simp only [wordOp, wordBits, wordW, BitVec.toNat_ofNat]
  omega

/-- An address register's field is the whole field of four bits when its top bit is zero (R125). -/
theorem wordFin_aa {w : U32} (h : wordBits w 21 21 = 0) : (wordFin 7 w 20 18).val = wordBits w 21 18 := by
  simp [wordFin_val, wordBits_split w (hi := 21) (lo := 18) 20, h]

theorem wordFin_ad {w : U32} (h : wordBits w 25 25 = 0) : (wordFin 7 w 24 22).val = wordBits w 25 22 := by
  simp [wordFin_val, wordBits_split w (hi := 25) (lo := 22) 24, h]

/-- The word of the command that a word decodes to is that word: its fields, and zero where a field shall be zero (R124, R125). -/
theorem seqWord_of_seqDecode {n : Fin 32} {w : U32} {i : Instr} (h : seqDecode n w = some i) : seqWord i = some w := by
  unfold seqDecode at h
  dsimp only at h
  split at h
  case isTrue => cases h
  case isFalse legal =>
    rw [not_not] at legal
    split at h
    case h_50 => cases h
    all_goals
      cases h
      rename_i op
      have zeros := zeroFields_of_op legal op rfl
      simp only [addrFields, List.forall_mem_cons, List.not_mem_nil, false_imp_iff, forall_true_iff, and_true, true_and] at zeros
      refine congrArg some ?_
      clear legal
    case h_1 | h_2 | h_3 | h_4 | h_5 | h_6 | h_7 | h_8 | h_9 | h_10 | h_11 => -- ADD to MAX
      exact wordR_eq op (wordFin_val w rfl) (wordFin_val w rfl) (wordFin_val w rfl) zeros.symm
    case h_12 => exact wordR_eq op zeros.1.symm (wordFin_val w rfl) (wordFin_val w rfl) zeros.2.symm -- CMP
    case h_13 | h_14 | h_15 | h_16 | h_17 | h_18 | h_19 => -- ADDI to SARI
      exact wordI_eq op (wordFin_val w rfl) (wordFin_val w rfl)
    case h_20 => exact wordI_eq op zeros.symm (wordFin_val w rfl) -- CMPI
    case h_21 => exact wordW_eq op (wordFin_val w rfl) -- MOVI
    case h_23 => exact wordR_eq_of_low_zero op (wordFin_ad zeros.2) (wordFin_val w rfl) zeros.1 -- AMOV
    case h_25 => exact wordI_eq op (wordFin_ad zeros.1) (wordFin_aa zeros.2) -- AADDI
    case h_26 | h_27 | h_28 | h_29 => exact wordI_eq op (wordFin_val w rfl) (wordFin_aa zeros) -- LD, LDW, ST, STW
    case h_30 | h_31 => exact wordR_eq op (wordFin_val w rfl) (wordFin_aa zeros.2) (wordFin_val w rfl) zeros.1.symm -- FADD, CAS
    case h_32 => exact wordW_eq op (toNat_ofNat_wordBits w rfl) -- B
    case h_33 => exact wordW_eq op zeros.symm -- CALL
    case h_34 | h_48 | h_49 => exact wordR_eq_of_zero op zeros -- RET, YIELD, HALT
    case h_24 | h_37 | h_38 | h_39 => exact wordR_eq_of_low_zero op (wordFin_val w rfl) (wordFin_aa zeros.2) zeros.1 -- GMOV, WO, SEND, SENDNB
    case h_42 | h_46 => exact wordR_eq_of_low_zero op zeros.1.symm (wordFin_val w rfl) zeros.2 -- WAITT, SQUASH
    case h_43 => -- RDTIDE
      exact wordR_eq_of_low_zero op (wordFin_val w rfl) (wordBits_high_eq_zero zeros 17 (by omega) (by omega)).symm
        (wordBits_low_eq_zero zeros 17 (by omega) (by omega))
    case h_45 => exact wordR_eq_of_low_zero op (wordFin_val w rfl) (wordFin_val w rfl) zeros -- COMMIT
    case h_22 | h_35 | h_36 | h_40 | h_41 | h_44 | h_47 => -- MOVHI, LOOP, LOOPI, POLL, RELQ, FENCE, STAMP
      apply BitVec.eq_of_toNat_eq
      simp only [wordR, wordFin_val, toNat_ofNat_wordBits, ite_wordBits_bit, Nat.reduceAdd, Nat.reduceSub, Nat.reducePow]
      simp only [wordOp, wordBits, BitVec.toNat_ofNat] at op zeros ⊢
      omega

/-! ## Which words decode -/

/-- The opcodes that Table 4-1 lists are those that decode. -/
theorem isSome_seqDecode_iff (n : Fin 32) (w : U32) : illegalCause w = 0 ↔ (seqDecode n w).isSome = true := by
  constructor
  · intro legal
    obtain ⟨z, listed, -⟩ := zeroFields_of_legal legal
    unfold seqDecode
    dsimp only
    rw [if_neg (not_not.mpr legal)]
    split
    case h_50 =>
      simp only [imp_false] at *
      unfold zeroFields at listed
      rw [if_neg (by omega)] at listed
      split at listed
      case h_39 => cases listed
      all_goals contradiction
    all_goals rfl
  · intro h
    by_contra illegal
    simp [seqDecode, illegal] at h

/-- Settles O12: a listed opcode decodes, and the fields that the decoder reads are all of a legal word. -/
theorem legalWordsAreTheDecodedOnes : Obligations.LegalWordsAreTheDecodedOnes :=
  fun n w => ⟨isSome_seqDecode_iff n w, fun _ h => seqWord_of_seqDecode h⟩

/-- Settles O13: the decoder evaluated on the words. -/
theorem tableWordsDecode : Obligations.TableWordsDecode := ⟨rfl, rfl, rfl, rfl, rfl, rfl, rfl, rfl, rfl⟩

end Sys2Proof
end

section
/-! SUPPORT. O3: every command goes on. -/

namespace Sys2Proof.Machine

/-! ## Operations that go on -/

/-- The answer is a next state. -/
def GoesOn (o : Out) : Prop := ∃ t, o = .next t

theorem goesOn_next (s : State) : GoesOn (.next s) := ⟨s, rfl⟩

theorem goesOn_nothing (s : State) : GoesOn (nothing s) := goesOn_next s

theorem goesOn_when (c : Bool) (s t : State) : GoesOn (when c s t) := by
  cases c
  exacts [goesOn_next s, goesOn_next t]

theorem goesOn_issueWord (s : State) (n : Fin 32) (is : U32 → Bool) (k : U32 → State → State) : GoesOn (s.issueWord n is k) := by
  unfold State.issueWord
  dsimp only
  repeat' split
  all_goals exact goesOn_next _

theorem goesOn_issue (s : State) (i : Instr) (n : Fin 32) (k : U32 → State → State) : GoesOn (s.issue i n k) :=
  goesOn_issueWord _ _ _ _

section
variable (i : Instr) (n : Fin 32) (s : State)

theorem goesOn_aluOp (d : Fin 16) (f : Berth → U64) : GoesOn (aluOp i n d f s) := goesOn_issue s i n _
theorem goesOn_berthOp (f : Berth → Berth) : GoesOn (berthOp i n f s) := goesOn_issue s i n _
theorem goesOn_shiftOp (d a : Fin 16) (imm : BitVec 18) (f : U64 → Nat → U64) : GoesOn (shiftOp i n d a imm f s) := goesOn_issue s i n _
theorem goesOn_loadInstr (d : Fin 16) (a : Fin 8) (imm : BitVec 18) (size : Nat) : GoesOn (loadInstr i n d a imm size s) :=
  goesOn_issue s i n _
theorem goesOn_storeInstr (d : Fin 16) (a : Fin 8) (imm : BitVec 18) (size : Nat) : GoesOn (storeInstr i n d a imm size s) :=
  goesOn_issue s i n _
theorem goesOn_atomicInstr (d : Fin 16) (a : Fin 8) (cas : Bool) (f : Berth → MemOp) : GoesOn (atomicInstr i n d a cas f s) :=
  goesOn_issue s i n _

theorem goesOn_unlessDrain (d : Fin 16) {k : Out} (h : GoesOn k) : GoesOn (unlessDrain i n d s k) := by
  unfold unlessDrain
  dsimp only
  split
  · split <;> exact goesOn_next _
  · exact h

theorem goesOn_woStart (op : Nat) (k : Wo → State → State) : GoesOn (woStart n op k s) := by
  unfold woStart
  repeat' split
  all_goals exact goesOn_next _

end

theorem goesOn_kvCmd (s : State) (src : CmdSrc) (word : Nat) (waits : Bool) (k : State → State) : GoesOn (s.kvCmd src word waits k) := by
  unfold State.kvCmd
  split <;> exact goesOn_next _

theorem goesOn_drgCmd (s : State) (src : CmdSrc) (reply op k value : Nat) (states : List Nat) (f : State → State) :
    GoesOn (s.drgCmd src reply op k value states f) := by
  unfold State.drgCmd
  repeat' split
  all_goals exact goesOn_next _

theorem goesOn_spiCommand (cmd : Nat) (a : Addr) (len : Nat) (w : List Byte) (s : State) : GoesOn (spiCommand cmd a len w s) := by
  unfold spiCommand
  dsimp only
  repeat' split
  all_goals exact goesOn_next _

/-! ## Every command -/

/-- Every arm of `exec` is `.next`, or goes through an operation that goes on. -/
theorem goesOn_exec (i : Instr) (s : State) : GoesOn (exec i s) := by
  unfold exec
  cases i with
  | soCmdWrite | logEntryWrite | safeNHigh | aoIoRailsInRange =>
    exact goesOn_next _
  | basinScrub | memoryTrainingDone | lockMismatch | compDiverge | fenceRetire | fmtCntClr | fmcCntClr
  | craneCntClr | holdEccClr | basinEccClr | mcEccClr | kvCntClr | drgCntClr | inCntClr | quayCntClr | bootLoad
  | residentChartLoad | chartBatch | batchAnswer | chartStart | pilotBoot | load | rechart | store | porNRise | wake
  | tideAlarm | pllLock | domainOn | domainPowerOn | domainPowerOff | domainReset | drainOutboundDone | drainTimeout
  | warmReset | serviceEnter | sleepRequest | sleepEntryComplete | aoTick | xtalSwitch | tideSyncTimer | masterClaim
  | timePps | tideSet | startCheck | manualInjection | frameStart | linePacket | frameEnd | intakeLink | streamRel
  | streamCntClr | streamEnable | streamDisable | cgOutcome | fsyncPulse | blockNack | credTimer | ackTimer
  | replayTimeout | sleepNotice | quiesce | linkLoss | quayWake | routeStall | boardWindowRequest | ltRelease
  | hmMismatch | hmDiverge | rcCheck | stampArrival | lhAgeExpiry | lhPeriodExpiry | lhFirstExpiry | blkFaultWrite
  | blkFmaskWrite | blkIrqWrite | blkAck | graceExpiry | soRbMism | safeExit | mirrorNow | mirrorPeriod
  | mirrorThresh | spareVote | logRdRead | inputFilterChange | chatterRunEnd | wakeStuck | serviceStuck
  | serviceStuckRelease | sealSample | estopRise | estopDisc | touchScan | touchStuck | pcieMemWrite | pcieMemRead
  | pcieAtomicOp | perstNLow | flr | hotReset | spiCsNRise | entdaa | setdasa | setnewda | rstdaa | enec | disec
  | getpid | getbcr | getdcr | getstatus | getmwl | getmrl | canBusoffRecovery | ethReceive | ethKick
  | ethTransmitDone | ethMdio | xspiRead | xspiProgram | xspiErase4k | xspiErase64k | spicStart | spicDone
  | uartReceive | uartTransmit | bypass | idcode | samplePreload | extest | clamp | debug | svcLeaveWrite
  | pcieLinkDown | pcieLinkUp | ethLinkDown | safeFbChange | safepolPinChange | xtalStartTimeout | linkDetect
  | domainSwitchGroup | spiBadFrame | i3cOtherCcc | canEnWrite =>
    exact goesOn_when _ _ _
  | add | sub | and | or | xor | shl | shr | sar | mul | min | max | addi | andi | ori | xori | movi | movhi | gmov
  | rdtide =>
    exact goesOn_aluOp _ _ _ _ _
  | cmp | cmpi | amov | aaddi =>
    exact goesOn_berthOp _ _ _ _
  | shli | shri | sari =>
    exact goesOn_shiftOp _ _ _ _ _ _ _
  | ld | ldw =>
    exact goesOn_loadInstr _ _ _ _ _ _ _
  | st | stw =>
    exact goesOn_storeInstr _ _ _ _ _ _ _
  | fadd | cas =>
    exact goesOn_atomicInstr _ _ _ _ _ _ _
  | matmul | conv | dwconv | pool | elem | reduce | s2d | d2s | fmcomp | fmdecomp | attnblk | kvappend | cvt | copy =>
    exact goesOn_woStart _ _ _ _
  | kvOpen | kvClose | kvFork | kvTrunc | kvDispatch | kvStow | kvQuery =>
    exact goesOn_kvCmd _ _ _ _ _
  | submit | pause | resume | stop | collect | drgStatus =>
    exact goesOn_drgCmd _ _ _ _ _ _ _ _
  | regRd | regWr | buoyRd | memRd | memWr | spiStatus =>
    exact goesOn_spiCommand _ _ _ _ _
  | b | call | ret | loop | loopi | poll | relq | waitt | fence | commit | squash | stamp | yield | halt =>
    simp only [execB, execCall, execRet, execLoop, execLoopi, execPoll, execRelq, execWaitt, execFence, execCommit,
      execSquash, execStamp, execYield, execHalt, goesOn_issue]
  | wo | send | sendnb =>
    simp only [execWo, execSend, execSendnb, sendInstr, goesOn_unlessDrain, goesOn_issue]
  | registerWrite | craneTimeout | loadComplete | sendAccept | mooringTimeout | pollSatisfied | pollTimeout
  | waittResume | yieldResume | seqCtlStop | reportTimeout | referenceCheck | domainResetHoldEnd | tideParentTimeout
  | masterElectionTimeout | segmentRequest | holdupRetry | frameTimeout | ringWriteComplete | streamClaim
  | fsyncPulseEnd | cred | ack | nak | trainRetry | bgrantBusyRepeat | bgrantTimeout | bsegTimeout | logClear
  | chatter | presenceWindowExpiry | estopStable | buoyRdPoll | canReceive | canTransmit | memoryRequest
  | craneCompletion | woEntryFree | commitPublish | workOrderComplete | porNFall | pllLockTimeout | kvRestore
  | kvUnstow | drgProblemStart | manifestDelivery | flitGroup | linkTraining | linkActive | resp | lighterEnqueue
  | bopen | bgrant | bseg | clkMonWindow | safeNLow | mirrorSegmentDone | estopLow | i3cPrivateRead
  | pcieConfigRequest | illegalInstruction | seqCtlResume | batchTimeout | berthAvailableTimeout | sync
  | scInjectionWindow | startCheckDone | drgLoadDone | drgStep | creditReturn | headFlitRoute | laneTestEnd
  | i3cPrivateWrite | xspiOpDone =>
    simp only [execRegisterWrite, execCraneTimeout, execLoadComplete, execSendAccept, execMooringTimeout,
      execPollSatisfied, execPollTimeout, execWaittResume, execYieldResume, execSeqCtlStop, execReportTimeout,
      execReferenceCheck, execDomainResetHoldEnd, execTideParentTimeout, execMasterElectionTimeout,
      execSegmentRequest, execHoldupRetry, execFrameTimeout, execRingWriteComplete, execStreamClaim,
      execFsyncPulseEnd, execCred, execAck, execNak, execTrainRetry, execBgrantBusyRepeat, execBgrantTimeout,
      execBsegTimeout, execLogClear, execChatter, execPresenceWindowExpiry, execEstopStable, execBuoyRdPoll,
      execCanReceive, execCanTransmit, execMemoryRequest, execCraneCompletion, execWoEntryFree, execCommitPublish,
      execWorkOrderComplete, execPorNFall, execPllLockTimeout, execKvRestore, execKvUnstow, execDrgProblemStart,
      execManifestDelivery, execFlitGroup, execLinkTraining, execLinkActive, execResp, execLighterEnqueue, execBopen,
      execBgrant, execBseg, execClkMonWindow, execSafeNLow, execMirrorSegmentDone, execEstopLow, execI3cPrivateRead,
      execPcieConfigRequest, execIllegalInstruction, execSeqCtlResume, execBatchTimeout, execBerthAvailableTimeout,
      execSync, execScInjectionWindow, execStartCheckDone, execDrgLoadDone, execDrgStep, execCreditReturn,
      execHeadFlitRoute, execLaneTestEnd, execI3cPrivateWrite, execXspiOpDone]
    repeat' split
    all_goals simp only [goesOn_next, goesOn_nothing, goesOn_when, goesOn_issueWord]

/-- Settles O3: an idle step is a tick, and every command goes on. -/
theorem everyStepGoesOn : Obligations.EveryStepGoesOn := by
  intro s
  unfold step
  split
  · exact goesOn_next _
  · exact goesOn_exec _ _

end Sys2Proof.Machine
end

section
/-! SUPPORT. O1, O2, O4: one step, the tick of an idle device, and the state after reset. -/

namespace Sys2Proof.Machine

/-- Settles O1: the definition of a step on a queue that is not empty. -/
theorem stepRunsFrontCommand : Obligations.StepRunsFrontCommand := fun _ _ _ => rfl

/-! ## The tick of an idle device -/

theorem State.tick_eq (s : State) : s.tick = { s with clk := s.tick.clk } := by
  unfold State.tick
  dsimp only
  split_ifs <;> rfl

theorem State.tick_now (s : State) : s.tick.clk.now = s.clk.now + 1 := by
  unfold State.tick
  dsimp only
  split_ifs <;> rfl

/-- Tide time stands still while its clock does not run. -/
theorem State.tick_tide_stopped {s : State} (h : s.clk.running = false) : s.tick.clk.tide = s.clk.tide := by
  simp [State.tick, h]

/-- A tick of a running clock: slewing back holds the tide time once, slewing forward advances it twice (R267). -/
theorem State.tick_tide_running {s : State} (h : s.clk.running = true) :
    s.tick.clk.tide = s.clk.tide ∨ s.tick.clk.tide = s.clk.tide + 1 ∨ s.tick.clk.tide = s.clk.tide + 2 := by
  simp only [State.tick, h, Bool.not_true, Bool.false_eq_true, if_false]
  split_ifs
  · exact .inl rfl
  · exact .inr (.inr rfl)
  · exact .inr (.inl rfl)

/-- Settles O2: an idle step is the tick. -/
theorem idleStepIsOneNanosecond : Obligations.IdleStepIsOneNanosecond := by
  intro s idle
  have isTick : step s = .next s.tick := by rw [step, idle]
  exact ⟨s.tick, isTick, s.tick_eq, s.tick_now, State.tick_tide_stopped, State.tick_tide_running⟩

/-! ## After reset -/

theorem State.reset_reg (slot : Nat) (r : Reg) (i : Nat) : State.reset.reg slot r i = resetVal slot r := rfl

theorem State.fld_eq_zero {s : State} {slot : Nat} {f : Fld} {i : Nat} (h : s.reg slot f.reg i = 0) : s.fld slot f i = 0 := by
  simp [State.fld, h, Fld.get, bitsOf]

theorem State.reset_faults (slot : Nat) : State.reset.faults slot = 0 := State.fld_eq_zero rfl

theorem State.reset_irqPend (slot : Nat) : State.reset.irqPend slot = false := by
  have noWoIrq : State.reset.fld slot F.SEQ_STAT_WO_IRQ 0 = 0 := State.fld_eq_zero rfl
  have noQirq : State.reset.fld slot F.MSG_STAT_QIRQ 0 = 0 := State.fld_eq_zero rfl
  simp [State.irqPend, State.eventPend, noWoIrq, noQirq, State.reset_faults, setBits, nbit]

/-- Settles O4: the state after reset is the default of every field; no output is active outside Run, and no interrupt is pending
without an event and a fault bit. -/
theorem resetLeavesEverythingCleared : Obligations.ResetLeavesEverythingCleared := by
  refine ⟨rfl, rfl, rfl, rfl, fun _ => rfl, State.reset_reg, fun k => ?_, State.reset_faults, State.reset_irqPend⟩
  have isOff : (State.reset.dev == DevState.run) = false := rfl
  simp [State.outActive, isOff]

end Sys2Proof.Machine
end

section
/-! SUPPORT. O15, O16, O18, O19, O21: the instructions of the Berth sequencer that read and write registers, and the branches. -/

namespace Sys2Proof.Claims
open Sys2Proof.Machine

/-! ## The state that an instruction works on -/

section
variable {n : Fin 32} {s : State} (hr : Ready n s)
include hr

theorem checked_fetched : s.Checked (fetched n s) := State.fetch_checked s n hr.2.2

theorem berth_fetched (m : Nat) : (fetched n s).berth m = s.berth m := (checked_fetched hr).berth m

theorem fetched_running : ((fetched n s).berth n).seq = .running ∧ ((fetched n s).berth n).wait = .none := by
  rw [berth_fetched hr]
  exact State.issues_running s n hr.1

end

/-! ## What writing a register leaves -/

theorem sameG_setG (n : Fin 32) (x t : State) (d : Fin 16) (v : U64) (h : ∀ r : Nat, (t.berth n).gr r = ((x.berth n).setG d v).gr r) :
    G n t d = (if d = 0 then 0 else v) ∧ SameG n [d] x t := by
  refine ⟨?_, fun r hr => ?_⟩
  · unfold G
    rw [h, Berth.gr_setG_same]
    simp only [Fin.val_eq_zero_iff]
  · have apart : r.val ≠ d.val := fun e => hr (List.mem_singleton.mpr (Fin.ext e))
    exact (h r).trans (Berth.gr_setG_other _ _ _ _ apart)

theorem sameA_setA (n : Fin 32) (x t : State) (d : Fin 8) (v : Addr) (h : ∀ r : Nat, (t.berth n).ar r = ((x.berth n).setA d v).ar r) :
    A n t d = v ∧ SameA n [d] x t := by
  refine ⟨(h d).trans (Berth.ar_setA_same _ _ _), fun r hr => ?_⟩
  have apart : r.val ≠ d.val := fun e => hr (List.mem_singleton.mpr (Fin.ext e))
  exact (h r).trans (Berth.ar_setA_other _ _ _ _ apart)

section
variable {i : Instr} {n : Fin 32} {s : State} (hr : Ready n s)
include hr

theorem advanced_next {b : Berth} (hseq : b.seq = ((fetched n s).berth n).seq) (hwait : b.wait = ((fetched n s).berth n).wait)
    (hloops : b.loops = ((fetched n s).berth n).loops) (hpc : b.pc = ((fetched n s).berth n).pc) :
    Advanced n (fetched n s) ((fetched n s).setBerth n b.next) := by
  obtain ⟨running, noWait⟩ := fetched_running hr
  simp only [Advanced, State.berth_setBerth_same, Berth.next_seq, Berth.next_wait]
  refine ⟨hseq.trans running, hwait.trans noWait, fun noLoop => ?_⟩
  rw [Berth.next_pc b (hloops.trans noLoop), hpc]

theorem wroteG_setBerth (d : Fin 16) (v : U64) :
    WroteG n s ((fetched n s).setBerth n (((fetched n s).berth n).setG d v).next) d v := by
  obtain ⟨written, others⟩ := sameG_setG n (fetched n s) ((fetched n s).setBerth n (((fetched n s).berth n).setG d v).next) d v
    fun r => by simp
  exact ⟨onlyBerth_setBerth n _ _, written, others, fun r _ => by simp [A], by simp [SameFlags],
    advanced_next hr (by simp) (by simp) (by simp) (by simp)⟩

theorem wroteA_setBerth (d : Fin 8) (v : Addr) :
    WroteA n s ((fetched n s).setBerth n (((fetched n s).berth n).setA d v).next) d v := by
  obtain ⟨written, others⟩ := sameA_setA n (fetched n s) ((fetched n s).setBerth n (((fetched n s).berth n).setA d v).next) d v
    fun r => by simp
  exact ⟨onlyBerth_setBerth n _ _, written, others, fun r _ => by simp [G], by simp [SameFlags, Berth.setA],
    advanced_next hr rfl rfl rfl rfl⟩

variable (hf : Fetches n i s)
include hf

/-- An instruction that writes Gd from the registers. -/
theorem aluOp_wroteG {d : Fin 16} {f : Berth → U64} {v : U64} (hv : f ((fetched n s).berth n) = v) :
    ∃ t, aluOp i n d f s = .next t ∧ WroteG n s t d v :=
  ⟨_, issue_of_fetches _ hr hf, hv ▸ wroteG_setBerth hr d _⟩

/-- An instruction that writes Ad from the registers. -/
theorem berthOp_wroteA {d : Fin 8} {f : Berth → Addr} {v : Addr} (hv : f ((fetched n s).berth n) = v) :
    ∃ t, berthOp i n (fun x => x.setA d (f x)) s = .next t ∧ WroteA n s t d v :=
  ⟨_, issue_of_fetches _ hr hf, hv ▸ wroteA_setBerth hr d _⟩

end

/-! ## Results as numbers (Table 4-2) -/

theorem add_signExtend_eq {w v : Nat} (x : BitVec w) (i : BitVec v) : x + i.signExtend w = BitVec.ofInt w (x.toNat + i.toInt) := by
  rw [BitVec.ofInt_add]
  simp [BitVec.signExtend]

theorem toNat_zext18 (i : BitVec 18) : (zext18 i).toNat = i.toNat := by
  simp only [zext18, BitVec.zeroExtend, BitVec.toNat_setWidth]
  omega

theorem eq_ofNat_of_toNat {w : Nat} {x : BitVec w} {k : Nat} (h : x.toNat = k) : x = BitVec.ofNat w k := by
  rw [← h, BitVec.ofNat_toNat, BitVec.setWidth_eq]

theorem zeroExtend_addr_eq_ofNat (x : Addr) : x.zeroExtend 64 = BitVec.ofNat 64 x.toNat :=
  eq_ofNat_of_toNat (by rw [BitVec.zeroExtend, BitVec.toNat_setWidth_of_le (by decide)])

theorem shiftLeft_eq_ofNat {w : Nat} (x : BitVec w) (k : Nat) : x <<< k = BitVec.ofNat w (x.toNat * 2 ^ k) := by
  apply BitVec.eq_of_toNat_eq
  rw [BitVec.toNat_shiftLeft, BitVec.toNat_ofNat, Nat.shiftLeft_eq]

theorem ushiftRight_eq_ofNat {w : Nat} (x : BitVec w) (k : Nat) : x >>> k = BitVec.ofNat w (x.toNat / 2 ^ k) :=
  eq_ofNat_of_toNat (by rw [BitVec.toNat_ushiftRight, Nat.shiftRight_eq_div_pow])

theorem sshiftRight_eq_ofInt {w : Nat} (x : BitVec w) (k : Nat) : x.sshiftRight k = BitVec.ofInt w (x.toInt / 2 ^ k) := by
  rw [BitVec.sshiftRight, Int.shiftRight_eq_div_pow]
  simp

/-- MOVHI replaces one half-word. -/
theorem bitsOf_putHalf (v : U64) (hw m : Fin 4) (h : BitVec 16) :
    bitsOf (putHalf v hw h) (16 * m.val + 15) (16 * m.val) = if m = hw then h.toNat else bitsOf v (16 * m.val + 15) (16 * m.val) := by
  have half : hw.val < 4 := hw.isLt
  unfold putHalf
  rcases lt_trichotomy m hw with below | rfl | above
  · rw [if_neg below.ne, bitsOf_withBits_below _ _ _ _ _ _ (by omega) (by omega) (by omega)]
  · rw [if_pos rfl, bitsOf_withBits_same _ _ _ _ (by omega) (by omega)]
    have width : 16 * m.val + 15 + 1 - 16 * m.val = 16 := by omega
    rw [width, Nat.mod_eq_of_lt h.isLt]
  · rw [if_neg above.ne', bitsOf_withBits_above _ _ _ _ _ _ (by omega) (by omega) (by omega)]

/-! ## Immediate instructions, moves and shifts -/

/-- Settles O15: each writes to Gd the value that its arm computes. -/
theorem immediateInstructions : Obligations.ImmediateInstructions := by
  intro n d a k i j hw h s hr x old
  refine ⟨fun hf => ?_, fun hf => ?_, fun hf => ?_, fun hf => ?_, fun hf => ?_, fun hf => ?_, fun hf => ?_, fun hf => ?_⟩
  · exact aluOp_wroteG hr hf (f := fun b => b.gr a + sext18 i) (add_signExtend_eq _ i)
  · exact aluOp_wroteG hr hf (f := fun b => b.gr a &&& zext18 i) (eq_ofNat_of_toNat (by rw [BitVec.toNat_and, toNat_zext18]; rfl))
  · exact aluOp_wroteG hr hf (f := fun b => b.gr a ||| zext18 i) (eq_ofNat_of_toNat (by rw [BitVec.toNat_or, toNat_zext18]; rfl))
  · exact aluOp_wroteG hr hf (f := fun b => b.gr a ^^^ zext18 i) (eq_ofNat_of_toNat (by rw [BitVec.toNat_xor, toNat_zext18]; rfl))
  · exact aluOp_wroteG hr hf (f := fun _ => sext22 j) rfl
  · obtain ⟨t, ht, wrote⟩ := aluOp_wroteG hr hf (f := fun b => putHalf (b.gr d) hw h) rfl
    refine ⟨t, _, ht, wrote, ?_, fun m hm => ?_⟩
    · rw [bitsOf_putHalf, if_pos rfl]
    · rw [bitsOf_putHalf, if_neg hm]
      rfl
  · exact aluOp_wroteG hr hf (f := fun b => (b.ar k).zeroExtend 64) (zeroExtend_addr_eq_ofNat _)
  · exact aluOp_wroteG hr hf (f := fun _ => s.tide) (congrArg Clock.tide (checked_fetched hr).clk.symm)

section
variable {i : Instr} {n : Fin 32} {s : State} (hr : Ready n s) (hf : Fetches n i s)
include hr hf

theorem shiftOp_wroteG {d a : Fin 16} {imm : BitVec 18} {f : U64 → Nat → U64} {v : U64} (h : imm.toNat < 64)
    (hv : f (G n (fetched n s) a) imm.toNat = v) : ∃ t, shiftOp i n d a imm f s = .next t ∧ WroteG n s t d v :=
  ⟨_, (issue_of_fetches _ hr hf).trans (congrArg Host.Outcome.next (if_pos h)), hv ▸ wroteG_setBerth hr d _⟩

end

/-- A sequencer fault leaves the sequencer faulted at the instruction. -/
theorem stoppedFaulted_seqStop (n : Fin 32) (s : State) (group cause : Nat) (word : U32) :
    StoppedFaulted n s ((fetched n s).seqStop n group cause word) := by
  have berth := State.seqStop_berth (fetched n s) n group cause word
  have mem := State.seqStop_mem (fetched n s) n group cause word
  refine ⟨by rw [berth], by rw [berth], fun r _ => ?_, fun r _ => ?_, by simp [SameFlags, berth], mem⟩
  · unfold G; rw [berth]; rfl
  · unfold A; rw [berth]; rfl

theorem shiftOp_stopped {i : Instr} {n : Fin 32} {s : State} (hr : Ready n s) (hf : Fetches n i s) {d a : Fin 16} {imm : BitVec 18}
    {f : U64 → Nat → U64} (h : 64 ≤ imm.toNat) : ∃ t, shiftOp i n d a imm f s = .next t ∧ StoppedFaulted n s t :=
  ⟨_, (issue_of_fetches _ hr hf).trans (congrArg Host.Outcome.next (if_neg (by omega))), stoppedFaulted_seqStop n s _ _ _⟩

/-- Settles O16. -/
theorem immediateShifts : Obligations.ImmediateShifts := by
  intro n d a i s hr x
  refine ⟨fun h => ⟨fun hf => ?_, fun hf => ?_, fun hf => ?_⟩, fun h c hc hf => ?_⟩
  · exact shiftOp_wroteG hr hf (f := fun v k => v <<< k) h (shiftLeft_eq_ofNat _ _)
  · exact shiftOp_wroteG hr hf (f := fun v k => v >>> k) h (ushiftRight_eq_ofNat _ _)
  · exact shiftOp_wroteG hr hf (f := fun v k => v.sshiftRight k) h (sshiftRight_eq_ofInt _ _)
  · simp only [List.mem_cons, List.not_mem_nil, or_false] at hc
    obtain rfl | rfl | rfl := hc
    · exact shiftOp_stopped hr hf (f := fun v k => v <<< k) h
    · exact shiftOp_stopped hr hf (f := fun v k => v >>> k) h
    · exact shiftOp_stopped hr hf (f := fun v k => v.sshiftRight k) h

/-- Settles O18. -/
theorem addressRegisterInstructions : Obligations.AddressRegisterInstructions := by
  intro n d b a i s hr
  refine ⟨fun hf => ?_, fun hf => ?_⟩
  · exact berthOp_wroteA hr hf (f := fun x => (x.gr a).setWidth 48) rfl
  · exact berthOp_wroteA hr hf (f := fun x => x.ea b i) (add_signExtend_eq _ i)

/-! ## Branches -/

theorem jump_loops (b : Berth) (p : Nat) : (b.jump p).loops = b.loops.filter (fun l => decide (l.first ≤ p ∧ p ≤ l.last)) := by
  simp [Berth.jump, Bool.decide_and]

section
variable {i : Instr} {n : Fin 32} {s : State} (hr : Ready n s)
include hr

/-- A jump of a Berth `b` that differs from the Berth after the fetch at most in its general registers. -/
theorem jumped_setBerth {b : Berth} (p : Nat) (except_ : List (Fin 16)) (hb : b = { (fetched n s).berth n with g := b.g })
    (hg : ∀ r : Fin 16, r ∉ except_ → b.gr r = ((fetched n s).berth n).gr r) :
    Jumped n s ((fetched n s).setBerth n (b.jump p)) p except_ := by
  obtain ⟨running, -⟩ := fetched_running hr
  simp only [Jumped, SameG, SameA, SameFlags, G, A, State.berth_setBerth_same]
  refine ⟨onlyBerth_setBerth n _ _, rfl, ?_, hg, fun r _ => ?_, ⟨?_, ?_, ?_, ?_⟩, ?_⟩
  · rw [jump_loops, hb]
  · show b.ar r = _; rw [hb]; rfl
  · show b.z = _; rw [hb]
  · show b.nf = _; rw [hb]
  · show b.c = _; rw [hb]
  · show b.e = _; rw [hb]
  · show b.seq = _; rw [hb]; exact running

end

theorem cond_reserved (b : Berth) {c : Nat} (h : 11 ≤ c) : b.cond c = none := by
  unfold Berth.cond
  split
  case h_12 => rfl
  all_goals omega

theorem exec_b (n : Fin 32) (c : BitVec 4) (off : BitVec 22) (s : State) : exec (.b n c off) s = s.issue (.b n c off) n fun word t =>
    match (t.berth n).cond c.toNat with
    | some true => t.setBerth n ((t.berth n).jump ((t.berth n).target off))
    | some false => t.setBerth n (t.berth n).next
    | none => t.seqStop n 8 4 word := rfl

theorem exec_call (n : Fin 32) (off : BitVec 22) (s : State) : exec (.call n off) s = s.issue (.call n off) n fun _ t =>
    t.setBerth n (((t.berth n).setG 15 (BitVec.ofNat 64 ((t.berth n).pc + 1))).jump ((t.berth n).target off)) := rfl

theorem exec_ret (n : Fin 32) (s : State) : exec (.ret n) s = s.issue (.ret n) n fun _ t =>
    t.setBerth n ((t.berth n).jump (((t.berth n).gr 15).toNat % 65536)) := rfl

section
variable {n : Fin 32} {c : BitVec 4} {off : BitVec 22} {s : State} (hr : Ready n s) (hf : Fetches n (.b n c off) s)
include hr hf

theorem exec_b_taken (h : ((fetched n s).berth n).cond c.toNat = some true) : exec (.b n c off) s =
    .next ((fetched n s).setBerth n (((fetched n s).berth n).jump (((fetched n s).berth n).target off))) := by
  rw [exec_b, issue_of_fetches _ hr hf, h]

theorem exec_b_notTaken (h : ((fetched n s).berth n).cond c.toNat = some false) : exec (.b n c off) s =
    .next ((fetched n s).setBerth n ((fetched n s).berth n).next) := by
  rw [exec_b, issue_of_fetches _ hr hf, h]

theorem exec_b_reserved (h : ((fetched n s).berth n).cond c.toNat = none) : exec (.b n c off) s =
    .next ((fetched n s).seqStop n 8 4 (s.wordAt n)) := by
  rw [exec_b, issue_of_fetches _ hr hf, h]

end

/-- Settles O19. -/
theorem branchesAndCalls : Obligations.BranchesAndCalls := by
  intro n c off s hr x target
  refine ⟨fun hf => ⟨fun taken => ?_, fun notTaken => ?_, fun reserved => ?_⟩, fun hf => ?_, fun hf => ?_⟩
  · exact ⟨_, exec_b_taken hr hf taken, jumped_setBerth hr _ [] rfl fun _ _ => rfl⟩
  · refine ⟨_, exec_b_notTaken hr hf notTaken, onlyBerth_setBerth n _ _, fun r _ => ?_, fun r _ => ?_, ?_, ?_⟩
    · simp [G]
    · simp [A]
    · simp [SameFlags]
    · exact advanced_next hr rfl rfl rfl rfl
  · exact ⟨_, exec_b_reserved hr hf (cond_reserved x reserved), stoppedFaulted_seqStop n s _ _ _⟩
  · refine ⟨_, (exec_call n off s).trans (issue_of_fetches _ hr hf), jumped_setBerth hr _ [15] (Berth.setG_eq _ _ _) fun r hr => ?_, ?_⟩
    · have apart : r.val ≠ 15 := fun e => hr (List.mem_singleton.mpr (Fin.ext e))
      exact Berth.gr_setG_other _ _ _ _ apart
    · rw [G, State.berth_setBerth_same]
      exact Berth.gr_setG_same _ 15 _
  · exact ⟨_, (exec_ret n s).trans (issue_of_fetches _ hr hf), jumped_setBerth hr _ [] rfl fun _ _ => rfl⟩

/-! ## Illegal words -/

/-- Settles O21. -/
theorem illegalInstructionStopsSequencer : Obligations.IllegalInstructionStopsSequencer := by
  intro n w s hr illegal
  obtain ⟨issues, inProgram, fetchOk⟩ := hr
  have performs : exec (.illegalInstruction n w) s = _ :=
    (if_neg illegal).trans (State.issueWord_ready s n (fun v => v == w) _ issues inProgram fetchOk)
  refine ⟨fun here => ?_, fun elsewhere => ?_⟩
  · refine ⟨_, performs, ?_⟩
    rw [if_pos (by simp [here])]
    exact stoppedFaulted_seqStop n s _ _ _
  · rw [performs, if_neg (by simpa using Ne.symm elsewhere)]

end Sys2Proof.Claims
end

section
/-! SUPPORT. What requests at memory leave unchanged, and the statements about writes, holes, guards and atomics. -/

namespace Sys2Proof.Machine

/-! ## Bytes that stay but for read holds -/

/-- Every byte of memory but the counts of the read holds (R391) is the same in both states. -/
def State.SameBytes (s t : State) : Prop := ∀ b, (∀ k, b ≠ holdsAt k) → t.byte b = s.byte b

theorem State.SameBytes.trans {s t u : State} (h : s.SameBytes t) (k : t.SameBytes u) : s.SameBytes u := fun b hb =>
  (k b hb).trans (h b hb)

theorem State.sameBytes_of_mem {s t : State} (h : t.mem = s.mem) : s.SameBytes t := fun b _ => by
  unfold State.byte; rw [h]

theorem State.captureMism_mem (s : State) (u : PairUnit) (buses comp diverge : Nat) :
    (s.captureMism u buses comp diverge).mem = s.mem := by
  cases u with
  | berth n =>
    rw [State.captureMism]
    split_ifs
    · rfl
    · exact ((State.setReg_recorded _ _ _ _ _).trans (State.setReg_recorded _ _ _ _ _)).mem
  | wharfinger => rfl
  | dredger => rfl

theorem State.pairFault_mem (s : State) (u : PairUnit) (g : Nat) : (s.pairFault u g).mem = s.mem := by
  cases u with
  | berth n => exact (State.record_recorded s _ _).mem
  | wharfinger => exact (State.kvFault_recorded s _ _ _ _).mem
  | dredger => exact (State.drgFault_recorded s _ _ _ _).mem

/-- A pair that enters FAULTED ends the read holds of its work orders and writes no other byte (R97, R391). -/
theorem State.enterFaulted_sameBytes (s : State) (u : PairUnit) : s.SameBytes (s.enterFaulted u) := by
  cases u with
  | berth n => exact fun b hb => State.byte_endHolds _ _ b hb
  | wharfinger => exact State.sameBytes_of_mem rfl
  | dredger => exact State.sameBytes_of_mem rfl

theorem State.mismatch_sameBytes (s : State) (u : PairUnit) (buses comp : Nat) : s.SameBytes (s.mismatch u buses comp) :=
  ((State.sameBytes_of_mem (State.captureMism_mem s u buses comp 0)).trans (State.enterFaulted_sameBytes _ u)).trans
    (State.sameBytes_of_mem (State.pairFault_mem _ u 4))

theorem State.halvesDiffer_sameBytes (s : State) (p : Place) : s.SameBytes (s.halvesDiffer p) := by
  unfold State.halvesDiffer
  split
  · exact (State.sameBytes_of_mem rfl : s.SameBytes s.freeVal.2).trans (State.mismatch_sameBytes _ _ _ _)
  · exact State.sameBytes_of_mem rfl

/-- Reading words writes no byte but the read holds that a difference of the copies ends. -/
theorem State.readWords_sameBytes (s : State) (p : Place) (ws : List Nat) : s.SameBytes (s.readWords p ws).2 := by
  have hc : s.SameBytes (s.checkWords p ws) := State.sameBytes_of_mem (State.checkWords_checked s p ws).mem
  unfold State.readWords
  dsimp only
  split
  · exact hc.trans (State.halvesDiffer_sameBytes _ _)
  · exact hc.trans (State.sameBytes_of_mem (State.drgFault_recorded _ _ _ _ _).mem)
  · exact hc

/-! ## Refused requests -/

theorem State.recordHole_recorded (s : State) (who : Requester) : s.Recorded (s.recordHole who) := by
  unfold State.recordHole
  split
  exacts [State.record_recorded _ _ _, State.Recorded.refl s]

theorem State.recordGuard_recorded (s : State) (p : Place) : s.Recorded (s.recordGuard p) := by
  unfold State.recordGuard
  cases p with
  | hold n _ => exact State.record_recorded s _ _
  | basin _ => exact State.record_recorded s _ _
  | tables _ => exact State.record_recorded s _ _
  | store _ => exact State.record_recorded s _ _
  | rom _ => exact State.record_recorded s _ _
  | _ => exact State.Recorded.refl s

/-! ## Writes -/

theorem State.pokeAt_mem (s : State) (who : Requester) (p : Place) : (s.pokeAt who p).mem = s.mem := by
  unfold State.pokeAt
  cases p with
  | hold n off => dsimp only; split_ifs <;> rfl
  | _ => rfl

/-- Fresh check bits of words leave every byte of memory. -/
theorem State.freshWords_mem (s : State) (cs ws : List Nat) :
    (ws.foldl (fun t w => cs.foldl (fun u c => u.setEcc w c 0) t) s).mem = s.mem :=
  (State.foldl_checked _ (fun t w => State.foldl_checked _ (fun u c => State.setEcc_checked u w c 0) cs t) ws s).mem

/-- What a write makes of memory: the refusal leaves every byte but the read holds, the performed write puts its bytes too. -/
def State.WriteAns (s : State) (p : Place) (d : List Byte) (r : Ans) : Prop :=
  (r.st ≠ .ok ∧ s.SameBytes r.s) ∨ (r.st = .ok ∧ r.s.mem = (s.putBytes (offsetOf p) d).mem)

/-- Equal memories take equal bytes. -/
theorem State.putBytes_mem_congr (s t : State) (a : Nat) (d : List Byte) (h : t.mem = s.mem) :
    (t.putBytes a d).mem = (s.putBytes a d).mem := by
  induction d generalizing s t a with
  | nil => exact h
  | cons b d ih => exact ih _ _ _ (by simp only [State.putByte, h])

theorem State.writeAt_ans (s : State) (who : Requester) (p : Place) (d : List Byte) : s.WriteAns p d (s.writeAt who p d) := by
  have refused (st : Status) (t : State) (hst : st ≠ .ok) (hm : t.mem = s.mem) : s.WriteAns p d ⟨st, [], t⟩ :=
    Or.inl ⟨hst, State.sameBytes_of_mem hm⟩
  unfold State.writeAt
  split
  · exact refused _ _ nofun (State.recordHole_recorded s who).mem
  · exact refused _ _ nofun rfl
  · exact refused _ _ nofun rfl
  · dsimp only
    split_ifs with _ _ hr
    · exact refused _ _ nofun rfl
    · exact refused _ _ nofun (State.recordGuard_recorded s p).mem
    · exact Or.inl ⟨hr, State.readWords_sameBytes s p _⟩
    · refine Or.inr ⟨rfl, ?_⟩
      rw [State.pokeAt_mem]
      refine State.putBytes_mem_congr _ _ _ _ ?_
      rw [State.freshWords_mem]
      exact (State.readWords_checked s p _ (not_not.mp hr)).mem

/-- Settles O6: what a write answers says which bytes it put, by the cases of the write. -/
theorem writeChangesOnlyItsBytes : Obligations.WriteChangesOnlyItsBytes := by
  intro s who p d r
  obtain ⟨hst, hb⟩ | ⟨hst, hm⟩ := State.writeAt_ans s who p d
  · exact ⟨fun h => absurd h hst, fun b _ hk => hb b hk⟩
  · refine ⟨fun _ => ?_, fun b hb _ => ?_⟩
    · rw [State.bytes_congr _ _ _ _ hm]
      exact State.bytes_putBytes s _ d
    · have hout : b < offsetOf p ∨ offsetOf p + d.length ≤ b := hb.resolve_left (not_not.mpr hst)
      calc r.s.byte b = (s.putBytes (offsetOf p) d).byte b := by unfold State.byte; rw [hm]
        _ = s.byte b := State.byte_putBytes_other s _ b d hout

/-- Settles O7: each operation at a hole is the refusal itself. -/
theorem holeRequestsArePoison : Obligations.HoleRequestsArePoison := by
  intro s who op
  have hm : (s.recordHole who).mem = s.mem := (State.recordHole_recorded s who).mem
  have hz (n : Nat) : ∀ b ∈ List.replicate n (0 : Byte), b = 0 := fun b hb => List.eq_of_mem_replicate hb
  cases op with
  | read n => exact ⟨rfl, rfl, hm, hz n⟩
  | write d => exact ⟨rfl, rfl, hm, nofun⟩
  | fetchAdd v => exact ⟨rfl, rfl, hm, hz 8⟩
  | cas c w => exact ⟨rfl, rfl, hm, hz 8⟩

theorem State.servesAt_of_serves (s : State) (who : Requester) (p : Place) (d : Nat) (hd : s.domainAt p = d) (hne : d ≠ 43)
    (h : s.serves d = true) : s.servesAt who p = true := by
  unfold State.servesAt
  have hb : (d == 43) = false := beq_false_of_ne hne
  rw [hd, h, hb]
  rfl

/-- Settles O9: the block serves, so the write meets its guard first. -/
theorem romAndTablesRefuseWrites : Obligations.RomAndTablesRefuseWrites := by
  intro s who off d
  refine ⟨fun h => ?_, fun h hw hp => ?_, fun h hd hp => ?_⟩
  · have hs : s.servesAt who (.rom off) = true := State.servesAt_of_serves s who _ 0xFF rfl (by decide) h
    simp [State.writeAt, hs, State.refusesWrite, State.recordGuard]
  · have hs : s.servesAt who (.tables off) = true := State.servesAt_of_serves s who _ 32 rfl (by decide) h
    simp [State.writeAt, hs, State.refusesWrite, State.recordGuard, hw, hp]
  · have hs : s.servesAt who (.store off) = true := State.servesAt_of_serves s who _ 33 rfl (by decide) h
    simp [State.writeAt, hs, State.refusesWrite, State.recordGuard, hd, hp]

/-! ## Atomics -/

/-- A word of the Basin without an error is read whole and stays. -/
theorem State.readWords_basin_clean (s : State) (off : Nat) (h : s.eccOf (basinBase + off) 0 = 0) :
    s.readWords (.basin off) [basinBase + off] = (.ok, s) := by
  simp [State.readWords, State.checkWords, State.copiesSay, copiesOf, h]

theorem State.atomicAt_basin (s : State) (who : Requester) (off : Nat) (f : Nat → Nat) (ha : off % 8 = 0) (hs : s.serves 43 = true)
    (hr : s.refusesWrite who (.basin off) 8 = false) (he : s.eccOf (basinBase + off) 0 = 0) :
    s.atomicAt who (.basin off) f =
      ⟨.ok, s.bytes (basinBase + off) 8, s.putNum (basinBase + off) 8 (f (s.num (basinBase + off) 8))⟩ := by
  have hal : (basinBase + off) % 8 = 0 := by unfold basinBase; omega
  have hw := State.readWords_basin_clean s off he
  simp [State.atomicAt, offsetOf, hal, State.domainAt, hs, hr, hw]

/-- Settles O10: both atomics are the one read, update and write of `atomicAt`. -/
theorem atomicsReturnTheOldValue : Obligations.AtomicsReturnTheOldValue := by
  intro s who off ha hs hr he a
  have hat (f : Nat → Nat) := State.atomicAt_basin s who off f ha hs hr he
  refine ⟨fun v => ?_, fun c w => ?_⟩
  · simp only [State.perform, hat]
    exact ⟨trivial, rfl, rfl⟩
  · simp only [State.perform, hat]
    exact ⟨trivial, rfl, rfl⟩

end Sys2Proof.Machine
end

section
/-! SUPPORT. Loads, messages and waits of the Berth sequencer: what an instruction that retires or waits leaves, and O23, O28, O29,
O30, O31, O32. -/

namespace Sys2Proof.Claims
open Sys2Proof.Machine

/-! ## An instruction that retires with a value in Gd, or waits -/

/-- `t` is `x` after an instruction of Berth `n` has retired with `v` in Gd and the flag E. -/
structure RetiredWith (n : Fin 32) (x t : State) (d : Fin 16) (v : U64) (e : Bool) : Prop where
  onlyBerth : OnlyBerth n x t
  written : G n t d = if d = 0 then 0 else v
  sameG : SameG n [d] x t
  sameA : SameA n [] x t
  flagE : (t.berth n).e = e
  retired : Retired n x t

theorem retiredWith_setBerth {n : Fin 32} {x : State} {b : Berth} {d : Fin 16} {v : U64} (hg : b.g = ((x.berth n).setG d v).g)
    (ha : b.a = (x.berth n).a) (hstop : b.stopReq = (x.berth n).stopReq) : RetiredWith n x (x.setBerth n b.resume) d v b.e := by
  have written : ∀ r : Nat, ((x.setBerth n b.resume).berth n).gr r = ((x.berth n).setG d v).gr r := fun r => by
    rw [State.berth_setBerth_same, Berth.gr_resume, Berth.gr, hg]
    rfl
  have address : ∀ r : Nat, ((x.setBerth n b.resume).berth n).ar r = (x.berth n).ar r := fun r => by
    rw [State.berth_setBerth_same, Berth.ar_resume, Berth.ar, ha]
    rfl
  refine ⟨onlyBerth_setBerth n x _, ?_, fun r hr => ?_, fun r _ => address r, ?_, ?_⟩
  · rw [G, written, Berth.gr_setG_same]
    simp only [Fin.val_eq_zero_iff]
  · have apart : r.val ≠ d.val := fun h => hr (List.mem_singleton.mpr (Fin.ext h))
    exact (written r).trans (Berth.gr_setG_other _ _ _ _ apart)
  · rw [State.berth_setBerth_same, Berth.resume_e]
  · simp only [Retired, State.berth_setBerth_same, Berth.resume_seq, Berth.resume_wait, hstop, and_self]

/-- An instruction that answers a status. -/
theorem retiredWith_answer (n : Fin 32) (x : State) (d : Fin 16) (st : Status) :
    RetiredWith n x (x.setBerth n ((x.berth n).answer d st)) d (statusWord st) (st != .ok) :=
  retiredWith_setBerth (b := ((x.berth n).setG d (statusWord st)).setE st) rfl (Berth.setG_a _ _ _) (Berth.setG_stopReq _ _ _)

/-- A POLL that ends. -/
theorem retiredWith_pollEnd (n : Fin 32) (x : State) (d : Fin 16) (v : U64) (late : Bool) :
    RetiredWith n x (x.setBerth n ((x.berth n).pollEnd d v late)) d v late :=
  retiredWith_setBerth (b := { (x.berth n).setG d v with e := late }) rfl (Berth.setG_a _ _ _) (Berth.setG_stopReq _ _ _)

/-- A load that takes its completion. -/
theorem retiredWith_loadDone (n : Fin 32) (x : State) (d : Fin 16) (st : Status) (v : U64) :
    RetiredWith n x (x.loadDone n d false st v) d (if st = .ok then v else 0) (st != .ok) :=
  retiredWith_setBerth (b := ((x.berth n).setG d (if st = .ok then v else 0)).setE st) rfl (Berth.setG_a _ _ _)
    (Berth.setG_stopReq _ _ _)

theorem waitsIn_setBerth (n : Fin 32) (x : State) (w : Wait) :
    WaitsIn n w x (x.setBerth n { x.berth n with seq := .waiting, wait := w }) := by
  have berth := State.berth_setBerth_same x n { x.berth n with seq := .waiting, wait := w }
  refine ⟨onlyBerth_setBerth n x _, ?_, ?_, fun r _ => ?_, fun r _ => ?_⟩
  · rw [berth]
  · rw [berth]
  · rw [G, berth]; rfl
  · rw [A, berth]; rfl

/-- Retiring reads one flag of the Berth before. -/
theorem retired_congr {n : Fin 32} {x y t : State} (h : x.berth n = y.berth n) (hr : Retired n x t) : Retired n y t := by
  unfold Retired at hr ⊢
  rw [← h]
  exact hr

/-- An instruction that goes on without writing a register. -/
theorem advanced_setBerth_next {n : Fin 32} {x : State} {b : Berth} (hseq : b.seq = .running) (hwait : b.wait = .none)
    (hloops : b.loops = (x.berth n).loops) (hpc : b.pc = (x.berth n).pc) : Advanced n x (x.setBerth n b.next) := by
  simp only [Advanced, State.berth_setBerth_same, Berth.next_seq, Berth.next_wait]
  refine ⟨hseq, hwait, fun noLoop => ?_⟩
  rw [Berth.next_pc b (hloops.trans noLoop), hpc]

/-! ## Loads of the own Hold (R132 to R134) -/

section
variable {i : Instr} {n : Fin 32} {d : Fin 16} {a : Fin 8} {s : State} (hr : Ready n s) (hf : Fetches n i s)
include hr hf

theorem loadInstr_ownHold {imm : BitVec 18} {size off : Nat}
    (hp : (fetched n s).berthPlace n (A n (fetched n s) a + imm.signExtend 48) = .hold n off)
    (hx : (A n (fetched n s) a + imm.signExtend 48).toNat % size = 0) (hl : (fetched n s).lineCgs n off size = []) :
    let r := (fetched n s).access (.berth n) (A n (fetched n s) a + imm.signExtend 48) (.read size)
    loadInstr i n d a imm size s = .next (r.s.loadDone n d false r.st (BitVec.ofNat 64 (leNat r.data))) := by
  intro r
  have own : (fetched n s).ownOff n (((fetched n s).berth n).ea a imm) = some off := by
    show (match (fetched n s).berthPlace n (A n (fetched n s) a + imm.signExtend 48) with
      | .hold m off => if m = n then some off else none
      | _ => none) = some off
    rw [hp]
    exact if_pos rfl
  have direct : (fetched n s).direct n (((fetched n s).berth n).ea a imm) = true := by
    show (match (fetched n s).berthPlace n (A n (fetched n s) a + imm.signExtend 48) with
      | .hold m _ => m == n.val
      | .regs _ _ => true
      | _ => false) = true
    rw [hp]
    exact beq_self_eq_true _
  have aligned : (((fetched n s).berth n).ea a imm).toNat % size = 0 := hx
  unfold loadInstr
  rw [issue_of_fetches _ hr hf]
  simp only [aligned, own, hl, State.memLoad, direct, ne_eq, not_true_eq_false, if_false, if_true]
  rfl

end

theorem bne_ok_eq_decide (st : Status) : (st != .ok) = decide (st ≠ .ok) := by
  cases st <;> rfl

/-- Settles O23: the load is performed at once and takes its completion. -/
theorem ownHoldLoads : Obligations.OwnHoldLoads := by
  intro n d a i off s hr f x hp c size hc hf hx hl r
  have taken : RetiredWith n r.s (r.s.loadDone n d false r.st (BitVec.ofNat 64 (leNat r.data))) d _ (r.st != .ok) :=
    retiredWith_loadDone n r.s d r.st _
  have answer : exec c s = .next (r.s.loadDone n d false r.st (BitVec.ofNat 64 (leNat r.data))) := by
    obtain ⟨rfl, rfl⟩ | ⟨rfl, rfl⟩ := hc
    · exact (exec_ld n d a i s).trans (loadInstr_ownHold hr hf hp hx hl)
    · exact (exec_ldw n d a i s).trans (loadInstr_ownHold hr hf hp hx hl)
  exact ⟨_, answer, taken.onlyBerth, taken.written, taken.sameG, taken.sameA, taken.flagE.trans (bne_ok_eq_decide _), taken.retired⟩

/-! ## SEND, SENDNB and RELQ (R147 to R149) -/

/-- A Berth that issues is not draining, so that no instruction of it meets the edge of DRAIN (R148). -/
theorem unlessDrain_of_ready {n : Fin 32} {s : State} (hr : Ready n s) (i : Instr) (d : Fin 16) (k : Out) : unlessDrain i n d s k = k := by
  have serves : s.serves n = true := by
    have issues := hr.1
    simp only [State.issues, Bool.and_eq_true] at issues
    exact issues.1.1
  have notDraining : (s.dom n).draining = false := by
    have off : n.val ≠ 0xFF := by omega
    simp only [State.serves, off, if_false, Bool.and_eq_true, Bool.not_eq_true'] at serves
    exact serves.1.1.2
  simp [unlessDrain, State.drainEdge, notDraining]

section
variable {i : Instr} {n : Fin 32} {d : Fin 16} {a : Fin 8} {nb : Bool} {s : State} (hr : Ready n s) (hf : Fetches n i s)
include hr hf

/-- SEND and SENDNB of a good Manifest of the own Hold that points outside the shadow region. -/
theorem sendInstr_good {off : Nat} (hm : (fetched n s).manifestAt n (A n (fetched n s) a) = some off)
    (hl : (fetched n s).lineCgs n off 32 = []) :
    let r := (fetched n s).readAt (.berth n) (.hold n off) 32
    let m : Manifest := BitVec.ofNat 256 (leNat r.data)
    r.st = .ok → r.s.msgBad n m = 0 → r.s.pointsShadow n m = false → sendInstr i n d a nb s = .next (r.s.sendNow n d m nb) := by
  intro r m ok good outside
  have manifest : (fetched n s).manifestAt n (((fetched n s).berth n).ar a) = some off := hm
  unfold sendInstr
  rw [unlessDrain_of_ready hr, issue_of_fetches _ hr hf]
  simp only [manifest, hl, ok, good, outside, r, m] at *
  rfl

end

theorem exec_send (n : Fin 32) (d : Fin 16) (a : Fin 8) (s : State) : exec (.send n d a) s = sendInstr (.send n d a) n d a false s := rfl
theorem exec_sendnb (n : Fin 32) (d : Fin 16) (a : Fin 8) (s : State) :
    exec (.sendnb n d a) s = sendInstr (.sendnb n d a) n d a true s := rfl

theorem sendNow_accepted {x : State} {n : Fin 32} {m : Manifest} (h : x.canAccept n m = true) (d : Fin 16) (nb : Bool) :
    x.sendNow n d m nb = (x.accept n m).setBerth n (((x.accept n m).berth n).answer d .ok) := if_pos h

theorem sendNow_busy {x : State} {n : Fin 32} {m : Manifest} (h : x.canAccept n m = false) (d : Fin 16) :
    x.sendNow n d m true = x.setBerth n ((x.berth n).answer d .busy) := by simp [State.sendNow, h]

theorem sendNow_waits {x : State} {n : Fin 32} {m : Manifest} (h : x.canAccept n m = false) (d : Fin 16) :
    x.sendNow n d m false = x.setBerth n { x.berth n with seq := .waiting, wait := .send d m (x.after (x.moorNs n)) } := by
  simp [State.sendNow, h]

/-- An answer OK writes zero to Gd. -/
theorem RetiredWith.written_zero {n : Fin 32} {x t : State} {d : Fin 16} {e : Bool} (h : RetiredWith n x t d 0 e) : G n t d = 0 :=
  h.written.trans (ite_self 0)

theorem exec_sendAccept {n : Fin 32} {s : State} {d : Fin 16} {m : Manifest} {k : Nat} (hw : (s.berth n).wait = .send d m k)
    (hs : s.serves n = true) (ha : s.canAccept n m = true) :
    exec (.sendAccept n) s = .next ((s.accept n m).setBerth n (((s.accept n m).berth n).answer d .ok)) := by
  have unfolded : exec (.sendAccept n) s = execSendAccept n s := rfl
  simp [unfolded, execSendAccept, hw, hs, ha, when]

/-- The state in which a SEND has timed out: STALLED is counted and QSTALL recorded. -/
def stalled (n : Fin 32) (s : State) : State := (s.count (bslot n) F.MSG_STAT_STALLED 0 1).record (bslot n) 13

theorem exec_mooringTimeout {n : Fin 32} {s : State} {d : Fin 16} {m : Manifest} {k : Nat} (hw : (s.berth n).wait = .send d m k)
    (hs : s.serves n = true) (ha : s.canAccept n m = false) (hk : k ≤ s.clk.now) :
    exec (.mooringTimeout n) s = .next ((stalled n s).setBerth n (((stalled n s).berth n).answer d .stalled)) := by
  have unfolded : exec (.mooringTimeout n) s = execMooringTimeout n s := rfl
  simp [unfolded, execMooringTimeout, hw, hs, ha, hk, when, stalled]

theorem stalled_recorded (n : Fin 32) (s : State) : s.Recorded (stalled n s) :=
  (State.count_recorded s _ _ _ _).trans (State.record_recorded _ _ _)

theorem nbit_faults_stalled (n : Fin 32) (s : State) : nbit ((stalled n s).faults (bslot n)) 13 = true := by
  have source : ∀ k : Fin 32, nbit (sourceMask (bslot k)) 13 = true := by decide
  exact State.nbit_faults_recordAs _ 6 (source n) (by decide)

theorem exec_relq (n : Fin 32) (q : Fin 4) (s : State) : exec (.relq n q) s =
    s.issue (.relq n q) n fun _ t => (t.release n q).setBerth n ((t.release n q).berth n).next := rfl

theorem Berth.setRx_seq (b : Berth) (q : Nat) (l : List RxEntry) : (b.setRx q l).seq = b.seq ∧ (b.setRx q l).wait = b.wait := by
  unfold Berth.setRx
  split_ifs <;> exact ⟨rfl, rfl⟩

/-- A release leaves the sequencer as it is. -/
theorem release_seq (x : State) (n : Fin 32) (q : Nat) :
    ((x.release n q).berth n).seq = (x.berth n).seq ∧ ((x.release n q).berth n).wait = (x.berth n).wait := by
  unfold State.release
  dsimp only
  split
  · exact ⟨rfl, rfl⟩
  · rename_i e rest _
    have kept := Berth.setRx_seq (x.berth n) q rest
    split_ifs
    · show ((x.setBerth n _).berth n).seq = _ ∧ ((x.setBerth n _).berth n).wait = _
      rw [State.berth_setBerth_same]
      exact kept
    · rw [State.berth_setBerth_same]
      exact kept

/-- Settles O28: each outcome is an answer in Gd or a wait; the waiting SEND and RELQ go on from their events. -/
theorem messagesAreAcceptedOrWait : Obligations.MessagesAreAcceptedOrWait := by
  intro n d a q s
  refine ⟨fun hr => ?_, fun m k hw hs => ?_, fun hr hf => ?_⟩
  · intro f off hm hl r m ok good outside
    refine ⟨fun i hi hf accepts => ?_, fun refuses => ⟨fun hf => ?_, fun hf => ?_⟩⟩
    · have taken := retiredWith_answer n (r.s.accept n m) d .ok
      have sent (nb : Bool) : sendInstr i n d a nb s = .next ((r.s.accept n m).setBerth n (((r.s.accept n m).berth n).answer d .ok)) := by
        rw [← sendNow_accepted accepts d nb]
        exact sendInstr_good hr hf hm hl ok good outside
      have answer : exec i s = .next ((r.s.accept n m).setBerth n (((r.s.accept n m).berth n).answer d .ok)) := by
        simp only [List.mem_cons, List.not_mem_nil, or_false] at hi
        obtain rfl | rfl := hi
        · exact (exec_send n d a s).trans (sent false)
        · exact (exec_sendnb n d a s).trans (sent true)
      exact ⟨_, answer, taken.onlyBerth, RetiredWith.written_zero taken, taken.flagE, taken.retired⟩
    · have taken := retiredWith_answer n r.s d .busy
      refine ⟨_, (exec_sendnb n d a s).trans ((sendInstr_good hr hf hm hl ok good outside).trans ?_), taken.onlyBerth, taken.written,
        taken.flagE, taken.retired⟩
      exact congrArg Host.Outcome.next (sendNow_busy refuses d)
    · refine ⟨_, (exec_send n d a s).trans ((sendInstr_good hr hf hm hl ok good outside).trans ?_), waitsIn_setBerth n r.s _⟩
      exact congrArg Host.Outcome.next (sendNow_waits refuses d)
  · refine ⟨fun accepts => ?_, fun refuses hk => ?_⟩
    · have taken := retiredWith_answer n (s.accept n m) d .ok
      exact ⟨_, exec_sendAccept hw hs accepts, taken.onlyBerth, RetiredWith.written_zero taken, taken.flagE, taken.retired⟩
    · have taken := retiredWith_answer n (stalled n s) d .stalled
      have recorded := stalled_recorded n s
      refine ⟨_, exec_mooringTimeout hw hs refuses hk, taken.written, taken.flagE, retired_congr (recorded.berth n) taken.retired,
        recorded.mem, ?_⟩
      rw [State.faults_congr (State.setBerth_regs _ _ _)]
      exact nbit_faults_stalled n s
  · obtain ⟨running, noWait⟩ := fetched_running hr
    obtain ⟨seqKept, waitKept⟩ := release_seq (fetched n s) n q
    exact ⟨_, (exec_relq n q s).trans (issue_of_fetches _ hr hf), onlyBerth_setBerth n _ _,
      advanced_setBerth_next (seqKept.trans running) (waitKept.trans noWait) rfl rfl⟩

end Sys2Proof.Claims
end

section
/-! SUPPORT. POLL, the waits, the sequencer's control and the confirmation groups: O29, O30, O31, O32. -/

namespace Sys2Proof.Claims
open Sys2Proof.Machine

/-! ## POLL (R139 to R141) -/

theorem exec_poll (n : Fin 32) (d : Fin 16) (a : Fin 8) (b : Fin 16) (u : BitVec 2) (k : BitVec 12) (s : State) :
    exec (.poll n d a b u k) s = execPoll n d a b u k s := rfl

theorem pollHolds_iff (v : U64) (x : U64) :
    pollHolds v (x.setWidth 32) = true ↔ (v.toNat % 2 ^ 32 + 2 ^ 32 - x.toNat % 2 ^ 32) % 2 ^ 32 < 2 ^ 31 := by
  have word : bitsOf v 31 0 = v.toNat % 2 ^ 32 := by simp [bitsOf]
  simp [pollHolds, word, BitVec.toNat_setWidth]

theorem pollUnit_toNat (u : BitVec 2) : pollUnit u.toNat = if u = 0 then 10 else if u = 1 then 1000 else 1000000 := by
  revert u
  decide

section
variable {n : Fin 32} {d b : Fin 16} {a : Fin 8} {u : BitVec 2} {k : BitVec 12} {s : State} (hr : Ready n s)
  (hf : Fetches n (.poll n d a b u k) s)
include hr hf

theorem exec_poll_unit3 (hu : u = 3) : exec (.poll n d a b u k) s = .next ((fetched n s).seqStop n 8 5 (s.wordAt n)) := by
  rw [exec_poll, execPoll, issue_of_fetches _ hr hf]
  exact congrArg Host.Outcome.next (if_pos hu)

/-- A POLL of an aligned word of the own Hold that is read whole. -/
theorem exec_poll_read {off : Nat} (hu : u ≠ 3) (ho : (fetched n s).ownOff n (A n (fetched n s) a) = some off) (ha : off % 8 = 0) :
    let r := (fetched n s).pollWord n off
    let v : U64 := BitVec.ofNat 64 (leNat r.data)
    let target : U32 := (G n r.s b).setWidth 32
    r.st = .ok → exec (.poll n d a b u k) s = .next
      (if pollHolds v target then r.s.setBerth n ((r.s.berth n).pollEnd d v false)
      else if k = 0 then r.s.setBerth n ((r.s.berth n).pollEnd d v true)
      else r.s.setBerth n { r.s.berth n with seq := .waiting,
                                             wait := .poll d off target (r.s.tide.toNat + k.toNat * pollUnit u.toNat) }) := by
  intro r v target ok
  have own : (fetched n s).ownOff n (((fetched n s).berth n).ar a) = some off := ho
  rw [exec_poll, execPoll, issue_of_fetches _ hr hf]
  simp only [hu, if_false, own, ha, ne_eq, not_true_eq_false, ok, r]
  rfl

end

theorem exec_pollSatisfied {n : Fin 32} {s : State} {d : Fin 16} {off : Nat} {w : U32} {k : Nat} (hs : s.serves n = true)
    (hw : (s.berth n).wait = .poll d off w k) (ok : (s.pollWord n off).st = .ok)
    (holds : pollHolds (BitVec.ofNat 64 (leNat (s.pollWord n off).data)) w = true) :
    exec (.pollSatisfied n) s = .next ((s.pollWord n off).s.setBerth n
      (((s.pollWord n off).s.berth n).pollEnd d (BitVec.ofNat 64 (leNat (s.pollWord n off).data)) false)) := by
  have unfolded : exec (.pollSatisfied n) s = execPollSatisfied n s := rfl
  simp [unfolded, execPollSatisfied, hw, hs, ok, holds, when]

theorem exec_pollTimeout {n : Fin 32} {s : State} {d : Fin 16} {off : Nat} {w : U32} {k : Nat} (hs : s.serves n = true)
    (hw : (s.berth n).wait = .poll d off w k)
    (fails : pollHolds (BitVec.ofNat 64 (leNat (s.pollWord n off).data)) w = false) (hk : k ≤ s.tide.toNat) :
    exec (.pollTimeout n) s = .next ((s.pollWord n off).s.setBerth n
      (((s.pollWord n off).s.berth n).pollEnd d (BitVec.ofNat 64 (leNat (s.pollWord n off).data)) true)) := by
  have unfolded : exec (.pollTimeout n) s = execPollTimeout n s := rfl
  simp [unfolded, execPollTimeout, hw, hs, fails, hk, when]

/-- Settles O29: the word satisfies the POLL, or its time is up, or it waits. -/
theorem pollTestsAndWaits : Obligations.PollTestsAndWaits := by
  intro n d b a u k s
  refine ⟨fun hr hf => ⟨fun hu => ?_, ?_⟩, ?_⟩
  · exact ⟨_, exec_poll_unit3 hr hf hu, stoppedFaulted_seqStop n s _ _ _⟩
  · intro hu off ho ha r v holds ok
    have answer := exec_poll_read hr hf hu ho ha ok
    have holdsIff : pollHolds v ((G n r.s b).setWidth 32) = true ↔ holds := pollHolds_iff v (G n r.s b)
    refine ⟨fun ends => ?_, fun fails hk => ?_⟩
    · by_cases satisfied : holds
      · have taken := retiredWith_pollEnd n r.s d v false
        refine ⟨_, answer.trans (congrArg Host.Outcome.next (if_pos (holdsIff.mpr satisfied))), taken.onlyBerth, taken.written, ?_,
          taken.retired⟩
        rw [taken.flagE]
        simp [satisfied]
      · have taken := retiredWith_pollEnd n r.s d v true
        refine ⟨_, answer.trans (congrArg Host.Outcome.next ?_), taken.onlyBerth, taken.written, ?_, taken.retired⟩
        · rw [if_neg (mt holdsIff.mp satisfied), if_pos (ends.resolve_left satisfied)]
        · rw [taken.flagE]
          simp [satisfied]
    · refine ⟨_, answer.trans (congrArg Host.Outcome.next ?_), waitsIn_setBerth n r.s _⟩
      rw [if_neg (mt holdsIff.mp fails), if_neg hk, pollUnit_toNat]
  · intro off w k hs hw ok r v
    refine ⟨fun holds => ?_, fun fails late => ?_⟩
    · have taken := retiredWith_pollEnd n r.s d v false
      exact ⟨_, exec_pollSatisfied hs hw ok holds, taken.onlyBerth, taken.written, taken.flagE, taken.retired⟩
    · have taken := retiredWith_pollEnd n r.s d v true
      exact ⟨_, exec_pollTimeout hs hw fails late, taken.onlyBerth, taken.written, taken.flagE, taken.retired⟩

/-! ## WAITT, FENCE, YIELD and HALT -/

section
variable (n : Fin 32) (a d : Fin 16) (w : Bool) (i : Fin 64) (s : State)

theorem exec_waitt : exec (.waitt n a) s = execWaitt n a s := rfl
theorem exec_fence : exec (.fence n w) s = execFence n w s := rfl
theorem exec_yield : exec (.yield n) s = execYield n s := rfl
theorem exec_halt : exec (.halt n) s = execHalt n s := rfl
theorem exec_commit : exec (.commit n d a) s = execCommit n d a s := rfl
theorem exec_squash : exec (.squash n a) s = execSquash n a s := rfl
theorem exec_stamp : exec (.stamp n a i) s = execStamp n a i s := rfl

end

/-- A FENCE of a Berth with nothing outstanding is done at once. -/
theorem fenceDone_fenceWait_of_idle {b : Berth} (ht : b.tags = []) (hh : b.held = []) (hw : b.woq = []) (w : Bool) :
    b.fenceDone (b.fenceWait w) = true := by
  simp [Berth.fenceWait, Berth.fenceDone, ht, hh, hw]

section
variable {n : Fin 32} {a : Fin 16} {w : Bool} {s : State} (hr : Ready n s)
include hr

theorem exec_waitt_passed (hf : Fetches n (.waitt n a) s) (h : (G n (fetched n s) a).toNat ≤ (fetched n s).tide.toNat) :
    exec (.waitt n a) s = .next ((fetched n s).setBerth n ({ (fetched n s).berth n with e := true } : Berth).next) := by
  rw [exec_waitt, execWaitt, issue_of_fetches _ hr hf]
  exact congrArg Host.Outcome.next (if_pos h)

theorem exec_waitt_waits (hf : Fetches n (.waitt n a) s) (h : (fetched n s).tide.toNat < (G n (fetched n s) a).toNat) :
    exec (.waitt n a) s = .next ((fetched n s).setBerth n
      { (fetched n s).berth n with seq := .waiting, wait := .waitt (G n (fetched n s) a) }) := by
  rw [exec_waitt, execWaitt, issue_of_fetches _ hr hf]
  exact congrArg Host.Outcome.next (if_neg (by simpa [G] using h))

theorem exec_fence_idle (hf : Fetches n (.fence n w) s) (ht : ((fetched n s).berth n).tags = []) (hh : ((fetched n s).berth n).held = [])
    (hw : ((fetched n s).berth n).woq = []) : exec (.fence n w) s = .next ((fetched n s).setBerth n ((fetched n s).berth n).next) := by
  rw [exec_fence, execFence, issue_of_fetches _ hr hf]
  exact congrArg Host.Outcome.next (if_pos (fenceDone_fenceWait_of_idle ht hh hw w))

end

theorem exec_waittResume {n : Fin 32} {s : State} {x : U64} (hs : s.serves n = true) (hw : (s.berth n).wait = .waitt x)
    (h : x.toNat ≤ s.tide.toNat) : exec (.waittResume n) s = .next (s.setBerth n ({ s.berth n with e := false } : Berth).resume) := by
  have unfolded : exec (.waittResume n) s = execWaittResume n s := rfl
  simp [unfolded, execWaittResume, hw, hs, h, when]

theorem exec_yieldResume {n : Fin 32} {s : State} {k : Nat} (hs : s.serves n = true) (hw : (s.berth n).wait = .yield k)
    (h : (s.berth n).poke = true ∨ k ≤ s.clk.now) : exec (.yieldResume n) s = .next (s.setBerth n (s.berth n).resume) := by
  have unfolded : exec (.yieldResume n) s = execYieldResume n s := rfl
  simp [unfolded, execYieldResume, hw, hs, h, when]

theorem exec_fenceRetire {n : Fin 32} {s : State} (hs : s.serves n = true) (h : (s.berth n).fenceDone (s.berth n).wait = true) :
    exec (.fenceRetire n) s = .next (s.setBerth n (s.berth n).resume) := by
  have unfolded : exec (.fenceRetire n) s = execFenceRetire n s := rfl
  simp [unfolded, execFenceRetire, hs, h, when]

/-- Settles O30. -/
theorem waitsBeginAndEnd : Obligations.WaitsBeginAndEnd := by
  intro n a w s
  refine ⟨?_, fun hs => ⟨fun x hw h => exec_waittResume hs hw h, fun k hw h => exec_yieldResume hs hw h,
    fun h => exec_fenceRetire hs h, rfl, rfl, rfl, rfl, rfl⟩⟩
  intro hr f
  obtain ⟨running, noWait⟩ := fetched_running hr
  refine ⟨fun hf => ⟨fun passed => ?_, fun ahead => ?_⟩, fun hf ht hh hw => ?_, fun hf => ?_, fun hf => ?_⟩
  · refine ⟨_, exec_waitt_passed hr hf passed, onlyBerth_setBerth n _ _, ?_, fun r _ => ?_,
      advanced_setBerth_next running noWait rfl rfl⟩
    · simp
    · simp only [G, State.berth_setBerth_same]; rfl
  · refine ⟨_, exec_waitt_waits hr hf ahead, waitsIn_setBerth n _ _, ?_⟩
    simp [SameFlags, f]
  · refine ⟨_, exec_fence_idle hr hf ht hh hw, onlyBerth_setBerth n _ _, fun r _ => ?_, ?_,
      advanced_setBerth_next running noWait rfl rfl⟩
    · simp [G, f]
    · simp [SameFlags, f]
  · refine ⟨_, (exec_yield n s).trans (issue_of_fetches _ hr hf), onlyBerth_setBerth n _ _, ?_, ?_, fun r _ => ?_, ?_⟩
    · simp
    · simp [State.after, f]
    · simp only [G, State.berth_setBerth_same]; rfl
    · simp [SameFlags, f]
  · refine ⟨_, (exec_halt n s).trans (issue_of_fetches _ hr hf), onlyBerth_setBerth n _ _, ?_, ?_, fun r _ => ?_, ?_⟩
    · simp
    · simp [f]
    · simp only [G, State.berth_setBerth_same]; rfl
    · simp [SameFlags, f]

/-! ## SEQ_CTL (R145, R146, R168) -/

theorem exec_seqCtl_absent {n : Fin 32} {s : State} (who : Requester) (hs : s.serves n = true) (hp : s.presence = false) :
    exec (.seqCtlStop who n) s = .next ((s.pokeBerth n).presenceDenied (bslot n) 0x108) ∧
      exec (.seqCtlResume who n) s = .next ((s.pokeBerth n).presenceDenied (bslot n) 0x108) := by
  have stop : exec (.seqCtlStop who n) s = execSeqCtlStop who n s := rfl
  have resume : exec (.seqCtlResume who n) s = execSeqCtlResume who n s := rfl
  simp [stop, resume, execSeqCtlStop, execSeqCtlResume, hs, hp]

theorem exec_seqCtlStop_present {n : Fin 32} {s : State} (who : Requester) (hs : s.serves n = true) (hp : s.presence = true) :
    exec (.seqCtlStop who n) s = .next ((s.pokeBerth n).seqHalt n) := by
  have stop : exec (.seqCtlStop who n) s = execSeqCtlStop who n s := rfl
  simp [stop, execSeqCtlStop, hs, hp]

theorem exec_seqCtlResume_present {n : Fin 32} {s : State} (who : Requester) (hs : s.serves n = true) (hp : s.presence = true)
    (h : (s.berth n).seq = .halted ∨ (s.berth n).seq = .stopped) :
    exec (.seqCtlResume who n) s = .next ((s.pokeBerth n).seqStart n) := by
  have resume : exec (.seqCtlResume who n) s = execSeqCtlResume who n s := rfl
  obtain h | h := h <;> simp [resume, execSeqCtlResume, hs, hp, h]

/-- A Berth is never the unwritten one once it has been poked. -/
theorem setBerth_pokeBerth (s : State) (n : Nat) (b : Berth) : (s.pokeBerth n).setBerth n b = s.setBerth n b :=
  State.setBerth_setBerth s n _ b fun h => Bool.noConfusion (congrArg Berth.poke h : true = false)

/-- A sequencer that runs, yields, or waits for anything but a load or an atomic stops. -/
theorem seqHalt_stopped {s : State} {n : Nat} (h : (s.berth n).seq = .running ∨ (s.berth n).seq = .yielded ∨
    ((s.berth n).seq = .waiting ∧ ∀ d cas, (s.berth n).wait ≠ .load d cas)) :
    s.seqHalt n = s.setBerth n { s.berth n with seq := .stopped, wait := .none } := by
  unfold State.seqHalt
  obtain h | h | ⟨h, noLoad⟩ := h
  · simp only [h]
  · simp only [h]
  · simp only [h]

/-- One that waits for a load or an atomic stops at its completion. -/
theorem seqHalt_load {s : State} {n : Nat} {d : Fin 16} {cas : Bool} (h : (s.berth n).seq = .waiting)
    (hw : (s.berth n).wait = .load d cas) : s.seqHalt n = s.setBerth n { s.berth n with stopReq := true } := by
  simp only [State.seqHalt, h, hw]

theorem berth_pokeBerth (s : State) (n : Nat) : (s.pokeBerth n).berth n = { s.berth n with poke := true } :=
  State.berth_setBerth_same s n _

/-- Settles O31: both writes are answered by presence first, then by the sequencer's state. -/
theorem sequencerControlNeedsPresence : Obligations.SequencerControlNeedsPresence := by
  intro n who s hs
  refine ⟨fun absent => exec_seqCtl_absent who hs absent, fun present => ⟨fun h => ?_, fun d cas h hw => ?_,
    fun h => exec_seqCtlResume_present who hs present h⟩⟩
  · have stops := seqHalt_stopped (s := s.pokeBerth n) (n := n) (by simpa only [berth_pokeBerth] using h)
    refine ⟨_, exec_seqCtlStop_present who hs present, ?_⟩
    rw [stops, setBerth_pokeBerth, berth_pokeBerth]
    refine ⟨onlyBerth_setBerth n _ _, ?_, ?_, fun r _ => ?_, ?_⟩
    · simp
    · simp
    · simp only [G, State.berth_setBerth_same]; rfl
    · simp [SameFlags]
  · have stopsLater := seqHalt_load (s := s.pokeBerth n) (n := n) (d := d) (cas := cas) (by simpa only [berth_pokeBerth] using h)
      (by simpa only [berth_pokeBerth] using hw)
    refine ⟨_, exec_seqCtlStop_present who hs present, ?_⟩
    rw [stopsLater, setBerth_pokeBerth, berth_pokeBerth]
    refine ⟨onlyBerth_setBerth n _ _, ?_, ?_⟩
    · simp
    · simp [hw]

/-! ## Confirmation groups and stamps -/

section
variable {n : Fin 32} {a d : Fin 16} {i : Fin 64} {s : State} (hr : Ready n s)
include hr

theorem exec_commit_waits (hf : Fetches n (.commit n d a) s)
    (h : (((fetched n s).berth n).cg (G n (fetched n s) a).toNat).isSome = true) :
    exec (.commit n d a) s = .next ((fetched n s).setBerth n
      { (fetched n s).berth n with seq := .waiting, wait := .commit d (G n (fetched n s) a).toNat }) := by
  obtain ⟨c, hc⟩ := Option.isSome_iff_exists.mp h
  have group : ((fetched n s).berth n).cg (((fetched n s).berth n).gr a).toNat = some c := hc
  rw [exec_commit, execCommit, issue_of_fetches _ hr hf]
  simp only [group]
  rfl

theorem exec_commit_unknown (hf : Fetches n (.commit n d a) s) (h : ((fetched n s).berth n).cg (G n (fetched n s) a).toNat = none) :
    exec (.commit n d a) s = .next ((fetched n s).setBerth n (((fetched n s).berth n).answer d .poison)) := by
  have noGroup : ((fetched n s).berth n).cg (((fetched n s).berth n).gr a).toNat = none := h
  rw [exec_commit, execCommit, issue_of_fetches _ hr hf]
  simp only [noGroup]

theorem exec_squash_group (hf : Fetches n (.squash n a) s)
    (h : (((fetched n s).berth n).cg (G n (fetched n s) a).toNat).isSome = true) :
    let t := (fetched n s).countStopped n (G n (fetched n s) a).toNat
    exec (.squash n a) s = .next (t.setBerth n
      (((t.berth n).dropWork (G n (fetched n s) a).toNat).discard (G n (fetched n s) a).toNat).next) := by
  intro t
  obtain ⟨c, hc⟩ := Option.isSome_iff_exists.mp h
  have group : ((fetched n s).berth n).cg (((fetched n s).berth n).gr a).toNat = some c := hc
  rw [exec_squash, execSquash, issue_of_fetches _ hr hf]
  simp only [group]
  rfl

theorem exec_stamp_sent (hf : Fetches n (.stamp n a i) s) (hc : ((fetched n s).berth n).cgs = [])
    (hl : (fetched n s).lhOfPart ((fetched n s).fld (bslot n) F.BERTH_CFG_PART 0) i = true) :
    exec (.stamp n a i) s = .next
      (({ fetched n s with stamps := (fetched n s).stamps ++ [(n.val, i.val, G n (fetched n s) a)] } : State).setBerth n
        ((fetched n s).berth n).next) := by
  rw [exec_stamp, execStamp, issue_of_fetches _ hr hf]
  simp only [State.unlessHeld, hc, hl, if_true]
  rfl

end

theorem exec_commitPublish {n : Fin 32} {s : State} {d : Fin 16} {id k : Nat} {c : Cg} (hs : s.serves n = true)
    (hw : (s.berth n).wait = .commit d id) (hb : (s.berth n).cgBusy id = false) (hc : (s.berth n).cg id = some (k, c)) :
    (c.st = .confirmed → c.deps = [] →
      exec (.commitPublish n) s = .next (s.setBerth n (((s.berth n).publish id).answer d .ok))) ∧
    (c.st = .failed → exec (.commitPublish n) s = .next (s.setBerth n (((s.berth n).discard id).answer d .poison))) := by
  have unfolded : exec (.commitPublish n) s = execCommitPublish n s := rfl
  refine ⟨fun confirmed free => ?_, fun failed => ?_⟩
  · simp [unfolded, execCommitPublish, hw, hs, hb, hc, confirmed, free]
  · simp [unfolded, execCommitPublish, hw, hs, hb, hc, failed]

theorem exec_cgOutcome {n : Fin 32} {s : State} {cg : BitVec 12} {ok : Bool} (h : (n.val, cg.toNat, ok) ∈ s.cgOut) :
    exec (.cgOutcome n cg ok) s = .next (({ s with cgOut := s.cgOut.erase (n.val, cg.toNat, ok) } : State).setBerth n
      ((s.berth n).outcome cg.toNat ok)) :=
  if_pos (List.contains_iff_mem.mpr h)

theorem exec_stampArrival {n : Fin 32} {i : Fin 64} {v : U64} {s : State} (ha : s.awake = true) (h : (n.val, i.val, v) ∈ s.stamps)
    (hl : s.stampLate n i = false) (he : s.lhEnabled i = true) :
    exec (.stampArrival n i v) s = .next ((({ s with stamps := s.stamps.erase (n.val, i.val, v) } : State).setLh i
      { s.lh i with last := some (s.clk.now, n.val) }).lhStamp i v) := by
  have unfolded : exec (.stampArrival n i v) s = execStampArrival n i v s := rfl
  have sent : s.stamps.contains (n.val, i.val, v) = true := List.contains_iff_mem.mpr h
  simp only [unfolded, execStampArrival, ha, sent, hl, he, when]
  rfl

/-- Settles O32. -/
theorem confirmationGroupsAndStamps : Obligations.ConfirmationGroupsAndStamps := by
  intro n d a i cg ok v s
  refine ⟨?_, fun id k c hs hw hb hc => exec_commitPublish hs hw hb hc, exec_cgOutcome, exec_stampArrival⟩
  intro hr f id
  obtain ⟨running, noWait⟩ := fetched_running hr
  refine ⟨fun hf => ⟨fun h => ?_, fun h => ?_⟩, fun hf h => exec_squash_group hr hf h, fun hf hc hl => ?_⟩
  · exact ⟨_, exec_commit_waits hr hf h, waitsIn_setBerth n f _⟩
  · have taken := retiredWith_answer n f d .poison
    exact ⟨_, exec_commit_unknown hr hf h, taken.onlyBerth, taken.written, taken.flagE, taken.retired⟩
  · refine ⟨_, exec_stamp_sent hr hf hc hl, rfl, rfl, fun r _ => ?_, advanced_setBerth_next running noWait rfl rfl⟩
    simp [G, f]

end Sys2Proof.Claims
end

section
/-! SUPPORT. Crane requests, work orders and counter clears: O27, O33, O34. -/

namespace Sys2Proof.Claims
open Sys2Proof.Machine

/-! ## Crane requests -/

theorem satAdd_le (top x k : Nat) : satAdd top x k ≤ top := by
  unfold satAdd
  split
  · exact Nat.le_refl top
  · omega

/-- Counting one event adds one to its field, up to the field's top. -/
theorem fld_count (s : State) (slot : Nat) (f : Fld) (i k : Nat) (h1 : f.lo ≤ f.hi) (h2 : f.hi < 64) :
    (s.count slot f i k).fld slot f i = satAdd f.top (s.fld slot f i) k := by
  have below : satAdd f.top (s.fld slot f i) k < 2 ^ (f.hi + 1 - f.lo) :=
    Nat.lt_of_le_pred (Nat.two_pow_pos _) (satAdd_le _ _ _)
  unfold State.count
  rw [State.fld_setFld_same s slot f i _ h1 h2, Nat.mod_eq_of_lt below]

theorem exec_memoryRequest (who : Requester) (tag : Nat) (epoch : BitVec 2) (addr : Addr) (op : MemOp) (s : State) :
    exec (.memoryRequest who tag epoch addr op) s = execMemoryRequest who tag epoch addr op s := rfl

theorem exec_memoryRequest_berth {n : Fin 32} {tag : Nat} {epoch : BitVec 2} {addr : Addr} {op : MemOp} {s : State} {t : Tag}
    (ha : s.awake = true) (ht : (s.craneNext n).craneAsks n tag epoch addr op = some t) :
    exec (.memoryRequest (.berth n) tag epoch addr op) s = .next ((s.craneNext n).craneReaches n tag t) := by
  simp [exec_memoryRequest, execMemoryRequest, ha, ht]

theorem exec_memoryRequest_other {who : Requester} (hw : ∀ m, who ≠ .berth m) (tag : Nat) (epoch : BitVec 2) (addr : Addr) (op : MemOp)
    {s : State} (ha : s.awake = true) : exec (.memoryRequest who tag epoch addr op) s =
      .next ((s.access who addr op).s.respond who tag epoch (s.access who addr op).st (s.access who addr op).data) := by
  cases who with
  | berth m => exact absurd rfl (hw m)
  | _ => simp [exec_memoryRequest, execMemoryRequest, ha]

theorem exec_craneCompletion (n : Fin 32) (tag : BitVec 8) (epoch : BitVec 2) (s : State) :
    exec (.craneCompletion n tag epoch) s = execCraneCompletion n tag epoch s := rfl

theorem exec_craneTimeout (n : Fin 32) (tag : BitVec 8) (s : State) : exec (.craneTimeout n tag) s = execCraneTimeout n tag s := rfl

/-- Settles O27. -/
theorem craneRequestsComplete : Obligations.CraneRequestsComplete := by
  intro n tag epoch addr op s
  refine ⟨fun t ha ht => exec_memoryRequest_berth ha ht, fun who k ha hw => ⟨_, exec_memoryRequest_other hw k epoch addr op ha, rfl⟩,
    fun r hr => ⟨fun t ht he hs => ?_, fun ht => ?_⟩, fun t ht hs hk => ?_⟩
  · simp [exec_craneCompletion, execCraneCompletion, hr, ht, he, hs]
  · refine ⟨({ s with resps := s.resps.erase r } : State).count (bslot n) F.CRANE_CNT_LATE 0 1, ?_, ?_, ?_, ?_⟩
    · simp only [exec_craneCompletion, execCraneCompletion, hr, ht]
    · exact fld_count _ (bslot n) F.CRANE_CNT_LATE 0 1 (by decide) (by decide)
    · rw [State.count_mem]
    · rw [State.count_berths]
  · simp [exec_craneTimeout, execCraneTimeout, ht, hs, hk, when]

/-! ## Work orders -/

theorem exec_wo {n : Fin 32} {d : Fin 16} {a : Fin 8} {s : State} (hr : Ready n s) (hf : Fetches n (.wo n d a) s) :
    exec (.wo n d a) s = .next ((fetched n s).wo n d a) := by
  have unfolded : exec (.wo n d a) s = execWo n d a s := rfl
  rw [unfolded, execWo, unlessDrain_of_ready hr, issue_of_fetches _ hr hf]

theorem exec_woEntryFree {n : Fin 32} {d : Fin 16} {a : Fin 8} {s : State} (hw : (s.berth n).wait = .woEntry d a)
    (hs : s.serves n = true) (room : (s.berth n).woq.length < 64) : exec (.woEntryFree n) s = .next (s.wo n d a) := by
  have unfolded : exec (.woEntryFree n) s = execWoEntryFree n s := rfl
  simp [unfolded, execWoEntryFree, hw, hs, room, when]

/-- The first work order that may start does so when it has the opcode asked for. -/
theorem woStart_first {n : Fin 32} {op : Nat} {k : Wo → State → State} {s : State} {w : Wo} (hs : s.serves n = true)
    (hw : s.firstStart (s.berth n) [] (s.berth n).woq = some w) (ho : woOp w.desc = op) :
    woStart n op k s = .next (k w (s.woMap n w.seq fun x => { x with running := true })) := by
  simp [woStart, hs, hw, ho]

theorem exec_workOrderComplete {n : Fin 32} {q : U32} {w : Wo} {s : State} (hw : (s.berth n).woq.find? (fun o => o.seq == q) = some w)
    (hs : s.runs n = true) (ready : (s.berth n).woReady w = true) : exec (.workOrderComplete n q) s = .next (s.woEnd n w w.status) := by
  have unfolded : exec (.workOrderComplete n q) s = execWorkOrderComplete n q s := rfl
  simp only [unfolded, execWorkOrderComplete, hw, hs, ready, when]
  rfl

/-- Settles O33: every opcode's command is `woStart` with the work of that opcode. -/
theorem workOrdersIssueStartAndComplete : Obligations.WorkOrdersIssueStartAndComplete := by
  intro n d a s
  refine ⟨exec_wo, exec_woEntryFree, fun w hs hw => ?_, fun q w hw hs ready => exec_workOrderComplete hw hs ready⟩
  have starts {op : Nat} (k : Wo → State → State) (ho : woOp w.desc = op) :
      woStart n op k s = .next (k w (s.woMap n w.seq fun x => { x with running := true })) := woStart_first hs hw ho
  exact ⟨starts _, starts _, starts _, starts _, starts _, starts _, starts _, starts _, starts _, starts _, starts _, starts _,
    starts _, starts _⟩

/-! ## Counter clears -/

theorem cleared_clearReg (s : State) (slot : Nat) (r : Reg) : Cleared s (s.clearReg slot r 0) slot r :=
  ⟨State.reg_clearReg_same s slot r 0, rfl, fun k hk => Tab.find_del_other s.regs (regKey slot r 0) k hk⟩

/-- Writing a table leaves what other keys find. -/
theorem find_set_other {α : Type} [DecidableEq α] (d : α) (t : Tab α) (k i : Nat) (v : α) (hi : i ≠ k) :
    Tab.find (Tab.set d t k v) i = Tab.find t i := by
  unfold Tab.set
  split_ifs
  · exact Tab.find_del_other t k i hi
  · exact Tab.find_put_other t k i v hi

theorem cleared_setReg (s : State) {slot : Nat} {r : Reg} {v : U64} (hv : v = resetVal slot r) : Cleared s (s.setReg slot r 0 v) slot r :=
  ⟨(State.reg_setReg_same s slot r 0 v).trans hv, rfl, fun k hk => find_set_other _ s.regs _ k v hk⟩

/-- A command that is performed while a condition holds. -/
theorem cleared_when {c : Bool} {s t : State} {slot : Nat} {r : Reg} (hc : c = true) (ht : Cleared s t slot r) :
    ∃ u, when c s t = .next u ∧ Cleared s u slot r := ⟨t, if_pos hc, ht⟩

theorem domainOf_qslot (q : Fin 4) : domainOf (qslot q) = 34 + q.val := by
  revert q
  decide

theorem basinEccClr_fields (s : State) :
    s.basinEccClr.fld 0x0C F.BASIN_ECC_CE_CNT 0 = 0 ∧ s.basinEccClr.fld 0x0C F.BASIN_ECC_UE_CNT 0 = 0 ∧
      s.basinEccClr = { s with regs := s.basinEccClr.regs } ∧
      ∀ k, k ≠ regKey 0x0C .BASIN_ECC 0 → Tab.find s.basinEccClr.regs k = Tab.find s.regs k := by
  refine ⟨?_, ?_, rfl, fun k hk => ?_⟩
  · have apart : F.BASIN_ECC_CE_CNT.hi < F.BASIN_ECC_UE_CNT.lo := by decide
    rw [State.basinEccClr, State.fld_setFld_apart _ _ F.BASIN_ECC_UE_CNT F.BASIN_ECC_CE_CNT _ _ rfl (by decide) (by decide)
      (Or.inl apart), State.fld_setFld_same _ _ _ _ _ (by decide) (by decide)]
    rfl
  · rw [State.basinEccClr, State.fld_setFld_same _ _ _ _ _ (by decide) (by decide)]
    rfl
  · exact (find_set_other _ _ _ k _ hk).trans (find_set_other _ _ _ k _ hk)

/-- Settles O34: each clear is one register of a block that serves. -/
theorem counterClearsChangeOneRegister : Obligations.CounterClearsChangeOneRegister := by
  intro n c q s
  refine ⟨fun hs => ⟨?_, ?_, ?_, ?_⟩, fun hs => ?_, fun hs => ?_, fun hs => ?_, fun hs => ?_, fun ha => ?_, fun hs => ?_⟩
  · exact cleared_when hs (cleared_clearReg s (bslot n) .FMT_CNT)
  · exact cleared_when hs (cleared_clearReg s (bslot n) .FMC_CNT)
  · exact cleared_when hs (cleared_clearReg s (bslot n) .CRANE_CNT)
  · exact cleared_when hs (cleared_clearReg s (bslot n) .HOLD_ECC)
  · exact cleared_when hs (cleared_clearReg s (0x0A + c.val) .MC_ECC)
  · exact cleared_when hs (cleared_clearReg s 0x0E .KV_CNT)
  · exact cleared_when hs (cleared_clearReg s 0x0F .DRG_CNT)
  · have serves : s.serves (domainOf (qslot q)) = true := by rw [domainOf_qslot]; exact hs
    exact cleared_when serves (cleared_clearReg s (4 + q.val) .QUAY_CNT)
  · exact cleared_when ha (cleared_setReg s (slot := 0) (r := .IN_CNT) (by decide))
  · exact ⟨_, if_pos hs, basinEccClr_fields s⟩

end Sys2Proof.Claims
end

section
/-! SUPPORT. The steps of which recording a fault is made, and what they keep; O38, O39, O40, O42. -/

namespace Sys2Proof.Machine

/-! ## One principle for everything that recording a fault does -/

/-- The registers other than BLK_FAULT that recording a fault can write (R560, R573, R579, R583). -/
def recordRegs : List (Nat × Reg) :=
  [(0, .HM_STATE), (0x13, .SO_CMD), (0, .HM_SAFE_STAT), (0, .HM_SAFE_T), (0x13, .SO_STAT)]

/-- A relation between states that is kept by each step of which appending an entry to the Logbook is made; LOG_DROP is set only
when it is clear (R583). -/
structure AppendStep (R : State → State → Prop) : Prop where
  refl : ∀ s, R s s
  trans : ∀ {s t u}, R s t → R t u → R s u
  push : ∀ s slot group code detail, R s (s.push slot group code detail)
  logDrop : ∀ s, nbit (s.faults 3) 4 = false → R s (s.setFault 3 4)
  notify : ∀ s old slots, R s (s.notify old slots)

/-- A relation between states that is kept by each step of which recording a fault is made. -/
structure RecordStep (R : State → State → Prop) : Prop extends AppendStep R where
  dev : ∀ (s : State) d, R s { s with dev := d }
  reg : ∀ (s : State) c v, c ∈ recordRegs → R s (s.setReg c.1 c.2 0 v)
  markOut : ∀ s old, R s (s.markOut old)
  hm : ∀ (s : State) h, R s { s with hm := h }

theorem AppendStep.append {R : State → State → Prop} (hR : AppendStep R) (s : State) (slot group code detail : Nat) :
    R s (s.append slot group code detail) := by
  have pushed := hR.push s slot group code detail
  unfold State.append
  dsimp only
  split
  next h =>
    have clear : nbit ((s.push slot group code detail).faults 3) 4 = false := by
      have regs : (s.push slot group code detail).regs = s.regs := by unfold State.push; split <;> rfl
      rw [State.faults_congr regs]
      simpa using (Bool.and_eq_true_iff.mp h).2
    exact hR.trans pushed (hR.trans (hR.logDrop _ clear) (hR.trans (hR.push _ _ _ _ _) (hR.notify _ _ _)))
  next => exact pushed

namespace RecordStep
variable {R : State → State → Prop} (hR : RecordStep R)
include hR

theorem setFld (s : State) (slot : Nat) (f : Fld) (x : Nat) (h : (slot, f.reg) ∈ recordRegs) : R s (s.setFld slot f 0 x) :=
  hR.reg s (slot, f.reg) _ h

theorem setDev (s : State) (new : DevState) (cause : Nat) : R s (s.setDev new cause) := by
  have entry (v : U64) (x : Nat) : R s ((({ s with dev := new } : State).setReg 0 .HM_STATE 0 v).append 0 0xFF 0x0006 x) :=
    hR.trans (hR.dev s new) (hR.trans (hR.reg _ (0, .HM_STATE) v (by decide)) (hR.append _ _ _ _ _))
  have actOff (t : State) : R t (t.setFld 0x13 F.SO_CMD_ACT 0 0) := hR.setFld t 0x13 F.SO_CMD_ACT 0 (by decide)
  unfold State.setDev
  cases new
  case safe | service | startCheck => exact hR.trans (entry _ _) (hR.trans (actOff _) (hR.markOut _ _))
  all_goals exact hR.trans (entry _ _) (hR.markOut _ _)

theorem enterSafe (s : State) (cause : Nat) : R s (s.enterSafe cause) := by
  have entered : R s (((s.setDev .safe cause).setFld 0 F.HM_SAFE_STAT_IN_SAFE 0 1).setFld 0 F.HM_SAFE_STAT_PENDING 0 0) :=
    hR.trans (hR.setDev s .safe cause) (hR.trans (hR.setFld _ 0 F.HM_SAFE_STAT_IN_SAFE 1 (by decide))
      (hR.setFld _ 0 F.HM_SAFE_STAT_PENDING 0 (by decide)))
  have timed (t : State) (h : Hm) : R t { t.setReg 0 .HM_SAFE_T 0 s.tide with hm := h } :=
    hR.trans (hR.reg t (0, .HM_SAFE_T) s.tide (by decide)) (hR.hm _ h)
  unfold State.enterSafe
  dsimp only
  split
  · exact hR.refl s
  · refine hR.trans entered (hR.trans ?_ (timed _ _))
    split
    · exact hR.refl _
    · exact hR.setFld _ 0 F.HM_SAFE_STAT_CAUSE cause (by decide)

theorem settle (s : State) (cause : Nat) : R s (s.settle cause) := by
  unfold State.settle
  dsimp only
  split
  · split
    · exact hR.enterSafe s cause
    · exact hR.enterSafe s cause
    · exact hR.hm _ _
    · exact hR.trans (hR.setFld s 0 F.HM_SAFE_STAT_PENDING 1 (by decide)) (hR.hm _ _)
    · exact hR.trans (hR.setFld s 0x13 F.SO_STAT_LATCHED 1 (by decide)) (hR.hm _ _)
    · exact hR.hm _ _
    · exact hR.refl s
  · exact hR.refl s

theorem logEntry (s : State) (slot group code detail : Nat) : R s (s.logEntry slot group code detail) :=
  hR.trans (hR.append s slot group code detail) (hR.settle _ 6)

/-- Everything that recording a fault does after its bit has been set. -/
theorem recordAs_after (s : State) {slot g : Nat} (cause : Nat) (hs : nbit (sourceMask slot) g = true)
    (hc : nbit (s.faults slot) g = false) : ∃ d, R ((s.setFault slot g).append slot g 0x0001 d) (s.recordAs slot g cause) := by
  refine ⟨(s.setFault slot g).faults slot + s.reaction slot g * 2 ^ 32, ?_⟩
  unfold State.recordAs
  rw [if_neg (by simp [hs, hc])]
  exact hR.trans (hR.notify _ _ _) (hR.settle _ _)

theorem recordAs (s : State) (slot g cause : Nat)
    (hset : nbit (sourceMask slot) g = true → nbit (s.faults slot) g = false → R s (s.setFault slot g)) : R s (s.recordAs slot g cause) := by
  by_cases h : nbit (sourceMask slot) g = true ∧ nbit (s.faults slot) g = false
  · obtain ⟨d, hd⟩ := hR.recordAs_after s cause h.1 h.2
    exact hR.trans (hset h.1 h.2) (hR.trans (hR.append _ _ _ _ _) hd)
  · have same : s.recordAs slot g cause = s := by
      refine if_pos ?_
      cases hs : nbit (sourceMask slot) g
      · rfl
      · simpa [hs] using h
    rw [same]
    exact hR.refl s

end RecordStep

/-! ## Set bits keep their reactions -/

/-- Every fault bit that `s` has set is set in `t` and holds the reaction it has taken. -/
def State.KeepsTook (s t : State) : Prop :=
  ∀ slot g, nbit (s.faults slot) g = true → nbit (t.faults slot) g = true ∧ t.took slot g = s.took slot g

theorem State.keepsTook_of_hdrs {s t : State} (h : s.KeepsFaults t) (hh : t.hdrs = s.hdrs) : s.KeepsTook t := fun slot g hg =>
  ⟨h slot g hg, by unfold State.took State.hdr; rw [hh]⟩

theorem State.reaction_lt (s : State) (slot g : Nat) : s.reaction slot g < 4 := by
  have two : 2 * g + 1 + 1 - 2 * g = 2 := by omega
  unfold State.reaction bitsOf
  rw [two]
  split_ifs
  · decide
  · exact Nat.mod_lt _ (by decide)
  · decide

theorem State.latched_setFault (s : State) (slot g : Nat) :
    ((s.setFault slot g).hdr slot).latched = withBits (s.hdr slot).latched (2 * g + 1) (2 * g) (s.reaction slot g) := by
  unfold State.setFault
  rw [State.hdr_setHdr_same]

theorem State.hdr_setFault_other (s : State) {slot sl : Nat} (g : Nat) (h : sl ≠ slot) : (s.setFault slot g).hdr sl = s.hdr sl :=
  Tab.get_set_other _ _ _ _ _ _ h

/-- What a fault bit takes is its own pair of bits. -/
theorem State.took_setFault (s : State) {slot g sl j : Nat} (hg : g < 32) :
    (s.setFault slot g).took sl j = if sl = slot ∧ j = g then s.reaction slot g else s.took sl j := by
  unfold State.took
  by_cases hsl : sl = slot
  · subst hsl
    have two : 2 * g + 1 + 1 - 2 * g = 2 := by omega
    rw [State.latched_setFault]
    rcases lt_trichotomy j g with below | rfl | above
    · rw [if_neg (fun h => below.ne h.2)]
      exact bitsOf_withBits_below _ _ _ _ _ _ (by omega) (by omega) (by omega)
    · rw [if_pos ⟨rfl, rfl⟩, bitsOf_withBits_same _ _ _ _ (by omega) (by omega), two]
      exact Nat.mod_eq_of_lt (s.reaction_lt sl j)
    · rw [if_neg (fun h => above.ne' h.2)]
      exact bitsOf_withBits_above _ _ _ _ _ _ (by omega) (by omega) (by omega)
  · rw [if_neg (fun h => hsl h.1), State.hdr_setFault_other s g hsl]

theorem State.setFault_keepsTook (s : State) {slot g : Nat} (hg : g < 32) (hc : nbit (s.faults slot) g = false) :
    s.KeepsTook (s.setFault slot g) := fun sl j hj => by
  refine ⟨State.setFault_keepsFaults s slot g sl j hj, ?_⟩
  rw [State.took_setFault s hg, if_neg]
  rintro ⟨rfl, rfl⟩
  simp [hj] at hc

/-- `t` differs from `s` at most in vectors and in-band interrupts sent. -/
def State.Notified (s t : State) : Prop := t = { s with msix := t.msix, host := t.host }

theorem State.Notified.trans {s t u : State} (h : s.Notified t) (k : t.Notified u) : s.Notified u := by
  unfold State.Notified at *
  rw [k, h]

theorem State.sendVector_notified (s : State) (slot : Nat) : s.Notified (s.sendVector slot) := by
  unfold State.sendVector
  split <;> rfl

theorem State.notify_notified (s old : State) (slots : List Nat) : s.Notified (s.notify old slots) := by
  have fold (l : List Nat) (t : State) :
      t.Notified (l.foldl (fun t sl => if s.irqPend sl && !old.irqPend sl then t.sendVector sl else t) t) := by
    induction l generalizing t with
    | nil => rfl
    | cons sl l ih =>
      rw [List.foldl_cons]
      refine State.Notified.trans ?_ (ih _)
      split
      exacts [State.sendVector_notified t sl, rfl]
  unfold State.notify
  dsimp only
  split
  · exact (fold slots s).trans rfl
  · exact fold slots s

theorem State.hdrs_notify (s old : State) (slots : List Nat) : (s.notify old slots).hdrs = s.hdrs := by
  rw [State.notify_notified s old slots]

theorem State.log_notify (s old : State) (slots : List Nat) : (s.notify old slots).log = s.log := by
  rw [State.notify_notified s old slots]

theorem State.recordRegs_keepFaults (s : State) (c : Nat × Reg) (v : U64) (h : c ∈ recordRegs) :
    s.KeepsFaults (s.setReg c.1 c.2 0 v) := by
  have offsets : ∀ c ∈ recordRegs, c.2.info.off + 0 * c.2.info.stride < 0x10000 ∧ c.2.info.off + 0 * c.2.info.stride ≠ 0x10 := by
    decide
  obtain ⟨inside, apart⟩ := offsets c h
  exact State.setReg_keepsFaults s c.1 c.2 0 v inside apart

theorem State.recordStep_keepsTook : RecordStep State.KeepsTook where
  refl s := State.keepsTook_of_hdrs (State.KeepsFaults.refl s) rfl
  trans h k slot g hg := ⟨(k slot g (h slot g hg).1).1, (k slot g (h slot g hg).1).2.trans (h slot g hg).2⟩
  push s _ _ _ _ := State.keepsTook_of_hdrs (State.push_keepsFaults s _ _ _ _) (by unfold State.push; split <;> rfl)
  logDrop s h := State.setFault_keepsTook s (by decide) h
  notify s old slots := State.keepsTook_of_hdrs (State.notify_keepsFaults s old slots) (State.hdrs_notify s old slots)
  dev _ _ := State.keepsTook_of_hdrs (State.keepsFaults_of_regs rfl) rfl
  reg s c v h := State.keepsTook_of_hdrs (State.recordRegs_keepFaults s c v h) rfl
  markOut s old := State.keepsTook_of_hdrs (State.markOut_keepsFaults s old) rfl
  hm s h := State.keepsTook_of_hdrs (State.withHm_keepsFaults s h) rfl

/-- The groups of a slot are numbered below 32. -/
theorem lt_32_of_source {slot g : Nat} (h : nbit (sourceMask slot) g = true) : g < 32 := by
  have low : ∀ k : Fin 32, sourceMask k < 2 ^ 32 := by decide
  have small : sourceMask slot < 2 ^ 32 := by
    by_cases berth : 0x20 ≤ slot
    · have same : sourceMask slot = sourceMask 0x20 := by simp [sourceMask, groupsOf, berth]
      rw [same]
      decide
    · exact low ⟨slot, by omega⟩
  rw [← Nat.mod_eq_of_lt small, nbit_mod_two_pow, Bool.and_eq_true, decide_eq_true_eq] at h
  exact h.1

/-- The bit is set with the reaction its group holds, and the rest of recording keeps both. -/
theorem State.took_record (s : State) {slot g : Nat} (hs : nbit (sourceMask slot) g = true) (hc : nbit (s.faults slot) g = false) :
    (s.record slot g).took slot g = s.reaction slot g := by
  have hg : g < 32 := lt_32_of_source hs
  obtain ⟨d, after⟩ := State.recordStep_keepsTook.recordAs_after s 6 hs hc
  have isSet : nbit ((s.setFault slot g).faults slot) g = true := by simp [State.nbit_faults_setFault, hg]
  obtain ⟨appended, tookAppended⟩ := State.recordStep_keepsTook.append _ slot g 0x0001 d slot g isSet
  rw [State.record, (after slot g appended).2, tookAppended, State.took_setFault s hg, if_pos ⟨rfl, rfl⟩]

/-- Settles O38. -/
theorem recordingSetsTheBitAndItsReaction : Obligations.RecordingSetsTheBitAndItsReaction := by
  intro s slot g _ hs t
  have recorded : s.Recorded t := State.record_recorded s slot g
  exact ⟨State.nbit_faults_recordAs s 6 hs (lt_32_of_source hs), fun hc => State.took_record s hs hc, recorded.mem, recorded.berths,
    recorded.doms, recorded.streams, recorded.clk, recorded.pending⟩

/-- Settles O39: both cases are the guard of recording. -/
theorem furtherRecordsChangeNothing : Obligations.FurtherRecordsChangeNothing := by
  rintro s slot g (isSet | noSource)
  · exact if_pos (by simp [isSet])
  · exact if_pos (by simp [noSource])

/-! ## The Logbook's queue (R560, R583) -/

/-- The Logbook's queue keeps its entries and takes further ones behind them. -/
def State.QueueGrows (s t : State) : Prop := ∃ rest, t.log.ingress = s.log.ingress ++ rest

theorem State.queueGrows_of_log {s t : State} (h : t.log = s.log) : s.QueueGrows t := ⟨[], by rw [h, List.append_nil]⟩

theorem State.Recorded.tide {s t : State} (h : s.Recorded t) : t.tide = s.tide := congrArg Clock.tide h.clk

theorem State.push_room {s : State} (h : s.log.ingress.length < 64) (slot group code detail : Nat) :
    (s.push slot group code detail).log.ingress = s.log.ingress ++ [⟨s.tide, slot, group, code, BitVec.ofNat 64 detail⟩] := by
  unfold State.push
  rw [if_pos h]

/-- A full queue drops the entry and counts it. -/
theorem State.push_full {s : State} (h : 64 ≤ s.log.ingress.length) (slot group code detail : Nat) :
    (s.push slot group code detail).log = { s.log with dropped := satAdd 255 s.log.dropped 1, gap := true } := by
  unfold State.push
  rw [if_neg (by omega)]

theorem State.recordStep_queueGrows : RecordStep State.QueueGrows where
  refl _ := State.queueGrows_of_log rfl
  trans := by
    rintro s t u ⟨l, hl⟩ ⟨k, hk⟩
    exact ⟨l ++ k, by rw [hk, hl, List.append_assoc]⟩
  push s slot group code detail := by
    rcases Nat.lt_or_ge s.log.ingress.length 64 with room | full
    · exact ⟨_, State.push_room room slot group code detail⟩
    · exact ⟨[], by rw [State.push_full full, List.append_nil]⟩
  logDrop _ _ := State.queueGrows_of_log rfl
  notify s old slots := State.queueGrows_of_log (State.log_notify s old slots)
  dev _ _ := State.queueGrows_of_log rfl
  reg _ _ _ _ := State.queueGrows_of_log rfl
  markOut _ _ := State.queueGrows_of_log rfl
  hm _ _ := State.queueGrows_of_log rfl

/-- With room in the queue an entry is queued and nothing is dropped. -/
theorem State.append_room {s : State} (h : s.log.ingress.length < 64) (slot group code detail : Nat) :
    s.append slot group code detail = s.push slot group code detail := by
  have notFull : ¬ 64 ≤ s.log.ingress.length := by omega
  simp [State.append, notFull]

/-- With a full queue an entry is dropped, and LOG_DROP recorded where it was clear. -/
theorem State.append_full {s : State} (h : 64 ≤ s.log.ingress.length) (slot group code detail : Nat) :
    (s.append slot group code detail).log.ingress = s.log.ingress ∧ (s.append slot group code detail).log.gap = true ∧
      nbit ((s.append slot group code detail).faults 3) 4 = true := by
  have pushed := State.push_full h slot group code detail
  have full : 64 ≤ ((s.push slot group code detail).setFault 3 4).log.ingress.length := by
    show 64 ≤ (s.push slot group code detail).log.ingress.length
    rw [pushed]
    exact h
  unfold State.append
  dsimp only
  split
  next =>
    refine ⟨?_, ?_, ?_⟩
    · rw [State.log_notify, State.push_full full]
      show (s.push slot group code detail).log.ingress = _
      rw [pushed]
    · rw [State.log_notify, State.push_full full]
    · refine State.notify_keepsFaults _ _ _ 3 4 (State.push_keepsFaults _ _ _ _ _ 3 4 ?_)
      simp [State.nbit_faults_setFault]
  next hset =>
    have isSet : nbit (s.faults 3) 4 = true := by simpa [h] using hset
    exact ⟨by rw [pushed], by rw [pushed], State.push_keepsFaults s _ _ _ _ 3 4 isSet⟩

/-- Settles O40. -/
theorem faultEntriesAreQueued : Obligations.FaultEntriesAreQueued := by
  intro s slot g hs hc
  refine ⟨fun room => ?_, fun sl gr code d full => ?_⟩
  · obtain ⟨d, rest, grows⟩ := State.recordStep_queueGrows.recordAs_after s 6 hs hc
    have room' : (s.setFault slot g).log.ingress.length < 64 := room
    rw [State.append_room room', State.push_room room', List.append_assoc] at grows
    exact ⟨BitVec.ofNat 64 d, rest, grows⟩
  · have pushed := State.push_full full sl gr code d
    obtain ⟨ingress, gap, logDrop⟩ := State.append_full full sl gr code d
    exact ⟨by rw [pushed], by rw [pushed], ingress, gap, logDrop⟩

end Sys2Proof.Machine
end

section
/-! SUPPORT. Entering Safe, the writes of the common header, and the safe output stage: O42, O43, O44. -/

namespace Sys2Proof.Machine

/-! ## What appending and recording keep -/

theorem State.appendStep_dev : AppendStep fun s t => t.dev = s.dev where
  refl _ := rfl
  trans h k := k.trans h
  push s _ _ _ _ := by unfold State.push; split <;> rfl
  logDrop _ _ := rfl
  notify s old slots := by rw [State.notify_notified s old slots]

theorem State.recordStep_safeNLow : RecordStep fun s t => t.pins.safeNLow = s.pins.safeNLow where
  refl _ := rfl
  trans h k := k.trans h
  push s _ _ _ _ := by unfold State.push; split <;> rfl
  logDrop _ _ := rfl
  notify s old slots := by rw [State.notify_notified s old slots]
  dev _ _ := rfl
  reg _ _ _ _ := rfl
  markOut _ _ := rfl
  hm _ _ := rfl

theorem State.safeNLow_record (s : State) (slot g : Nat) : (s.record slot g).pins.safeNLow = s.pins.safeNLow :=
  State.recordStep_safeNLow.recordAs s slot g 6 fun _ _ => rfl

/-! ## Entering a device state -/

theorem State.dev_setDev (s : State) (d : DevState) (cause : Nat) : (s.setDev d cause).dev = d := by
  have entry (v : U64) (x : Nat) : ((({ s with dev := d } : State).setReg 0 .HM_STATE 0 v).append 0 0xFF 0x0006 x).dev = d :=
    State.appendStep_dev.append _ _ _ _ _
  unfold State.setDev
  cases d <;> exact entry _ _

/-- On entry to Safe, Service or the start check the outputs' commands read 0 (R573). -/
theorem State.act_setDev (s : State) {d : DevState} (cause : Nat) (hd : d ∈ [DevState.safe, .service, .startCheck]) :
    (s.setDev d cause).fld 0x13 F.SO_CMD_ACT 0 = 0 := by
  have cleared (t : State) : (t.setFld 0x13 F.SO_CMD_ACT 0 0).fld 0x13 F.SO_CMD_ACT 0 = 0 :=
    State.fld_setFld_same t 0x13 F.SO_CMD_ACT 0 0 (by decide) (by decide)
  unfold State.setDev
  simp only [List.mem_cons, List.not_mem_nil, or_false] at hd
  obtain rfl | rfl | rfl := hd <;> exact cleared _

/-- The state of an entry to Safe before its time is written. -/
def State.enteredSafe (s : State) (cause : Nat) : State :=
  let t := ((s.setDev .safe cause).setFld 0 F.HM_SAFE_STAT_IN_SAFE 0 1).setFld 0 F.HM_SAFE_STAT_PENDING 0 0
  if s.hm.svcFromSafe then t else t.setFld 0 F.HM_SAFE_STAT_CAUSE 0 cause

theorem State.enterSafe_eq {s : State} (h : s.dev ≠ .safe) (cause : Nat) :
    s.enterSafe cause = { (s.enteredSafe cause).setReg 0 .HM_SAFE_T 0 s.tide with
      hm := { ((s.enteredSafe cause).setReg 0 .HM_SAFE_T 0 s.tide).hm with
        safeDue := false, svcFromSafe := false, estopAtSafe := s.estopLine } } := if_neg h

theorem State.dev_enteredSafe (s : State) (cause : Nat) : (s.enteredSafe cause).dev = .safe := by
  unfold State.enteredSafe
  dsimp only
  split <;> simp only [State.setFld_dev, State.dev_setDev]

theorem State.act_enteredSafe (s : State) (cause : Nat) : (s.enteredSafe cause).fld 0x13 F.SO_CMD_ACT 0 = 0 := by
  have kept (t : State) (f : Fld) (x : Nat) (hf : f.reg = .HM_SAFE_STAT) : (t.setFld 0 f 0 x).fld 0x13 F.SO_CMD_ACT 0 = t.fld 0x13 F.SO_CMD_ACT 0 :=
    State.fld_setFld_other t 0 0x13 f F.SO_CMD_ACT 0 0 x (by rw [hf]; decide)
  have base := State.act_setDev s cause (d := .safe) (by decide)
  unfold State.enteredSafe
  dsimp only
  split
  · rw [kept _ F.HM_SAFE_STAT_PENDING _ rfl, kept _ F.HM_SAFE_STAT_IN_SAFE _ rfl, base]
  · rw [kept _ F.HM_SAFE_STAT_CAUSE _ rfl, kept _ F.HM_SAFE_STAT_PENDING _ rfl, kept _ F.HM_SAFE_STAT_IN_SAFE _ rfl, base]

theorem State.inSafe_enteredSafe (s : State) (cause : Nat) : (s.enteredSafe cause).fld 0 F.HM_SAFE_STAT_IN_SAFE 0 = 1 := by
  have kept (t : State) (f : Fld) (x : Nat) (hf : f.reg = .HM_SAFE_STAT) (h1 : f.lo ≤ f.hi) (h2 : f.hi < 64) (h : 0 < f.lo) :
      (t.setFld 0 f 0 x).fld 0 F.HM_SAFE_STAT_IN_SAFE 0 = t.fld 0 F.HM_SAFE_STAT_IN_SAFE 0 :=
    State.fld_setFld_apart t 0 f F.HM_SAFE_STAT_IN_SAFE 0 x hf.symm h1 h2 (Or.inl h)
  have base : ((s.setDev .safe cause).setFld 0 F.HM_SAFE_STAT_IN_SAFE 0 1).fld 0 F.HM_SAFE_STAT_IN_SAFE 0 = 1 :=
    State.fld_setFld_same _ 0 F.HM_SAFE_STAT_IN_SAFE 0 1 (by decide) (by decide)
  have pending (t : State) := kept t F.HM_SAFE_STAT_PENDING 0 rfl (by decide) (by decide) (by decide)
  have causeKept (t : State) := kept t F.HM_SAFE_STAT_CAUSE cause rfl (by decide) (by decide) (by decide)
  unfold State.enteredSafe
  dsimp only
  split
  · rw [pending, base]
  · rw [causeKept, pending, base]

/-- Settles O42. -/
theorem enteringSafeClearsTheOutputs : Obligations.EnteringSafeClearsTheOutputs := by
  intro s cause
  refine ⟨fun d hd => ⟨State.act_setDev s cause hd, State.dev_setDev s d cause⟩, fun h => ?_⟩
  have eq := State.enterSafe_eq h cause
  have entered : (s.enterSafe cause).dev = .safe := by rw [eq]; exact State.dev_enteredSafe s cause
  refine ⟨entered, ?_, ?_, ?_, fun k => ?_⟩
  · rw [eq]
    exact (State.fld_setReg_other _ 0 0x13 .HM_SAFE_T F.SO_CMD_ACT 0 0 _ (by decide)).trans (State.act_enteredSafe s cause)
  · rw [eq]
    exact (State.fld_setReg_other _ 0 0 .HM_SAFE_T F.HM_SAFE_STAT_IN_SAFE 0 0 _ (by decide)).trans (State.inSafe_enteredSafe s cause)
  · rw [eq]
    exact State.reg_setReg_same _ 0 .HM_SAFE_T 0 s.tide
  · simp [State.outActive, entered]

/-! ## Masks -/

theorem nbit_zero (i : Nat) : nbit 0 i = false := by simp [nbit]

theorem nbit_maskOf (l : List Nat) (p : Nat → Bool) (i : Nat) : nbit (maskOf l p) i = (decide (i ∈ l) && p i) := by
  have fold (acc : Nat) : nbit (l.foldl (fun acc j => if p j then acc ||| 2 ^ j else acc) acc) i = (nbit acc i || (decide (i ∈ l) && p i)) := by
    induction l generalizing acc with
    | nil => simp
    | cons j l ih =>
      rw [List.foldl_cons, ih]
      by_cases hj : p j = true
      · rw [if_pos hj, nbit_or, nbit_pow]
        by_cases e : j = i
        · subst e
          simp [hj]
        · simp [e, Ne.symm e]
      · rw [if_neg hj]
        by_cases e : i = j
        · subst e
          simp [hj]
        · simp [e]
  simpa [maskOf, nbit_zero] using fold 0

theorem mem_setBits (n x i : Nat) : i ∈ setBits n x ↔ i < n ∧ nbit x i = true := by
  simp [setBits]

/-! ## Clearing fault bits (R561, R564) -/

/-- `t` holds the same fault bits, bytes and Berths as `s`: a capture register has been cleared. -/
def State.CaptureCleared (s t : State) : Prop := (∀ sl, t.faults sl = s.faults sl) ∧ t.mem = s.mem ∧ t.berths = s.berths

theorem State.CaptureCleared.refl (s : State) : s.CaptureCleared s := ⟨fun _ => rfl, rfl, rfl⟩

theorem State.CaptureCleared.trans {s t u : State} (h : s.CaptureCleared t) (k : t.CaptureCleared u) : s.CaptureCleared u :=
  ⟨fun sl => (k.1 sl).trans (h.1 sl), k.2.1.trans h.2.1, k.2.2.trans h.2.2⟩

theorem State.CaptureCleared.ite {s t u : State} (h : s.CaptureCleared t) (c : Prop) [Decidable c] (k : t.CaptureCleared u) :
    s.CaptureCleared (if c then u else t) := by
  split
  exacts [h.trans k, h]

theorem State.setReg_faults (s : State) (slot : Nat) (r : Reg) (i : Nat) (v : U64)
    (hr : r.info.off + i * r.info.stride < 0x10000) (hne : r.info.off + i * r.info.stride ≠ 0x10) (sl : Nat) :
    (s.setReg slot r i v).faults sl = s.faults sl :=
  State.fld_setReg_other s slot sl r F.BLK_FAULT_BITS i 0 v (regKey_blkFault_ne hr hne sl)

theorem State.clearReg_captureCleared (s : State) (slot : Nat) (r : Reg) (hr : r.info.off + 0 * r.info.stride < 0x10000)
    (hne : r.info.off + 0 * r.info.stride ≠ 0x10) : s.CaptureCleared (s.clearReg slot r 0) := by
  refine ⟨fun sl => ?_, rfl, rfl⟩
  have same : (s.clearReg slot r 0).reg sl .BLK_FAULT 0 = s.reg sl .BLK_FAULT 0 :=
    Tab.get_del_other _ s.regs _ _ (regKey_blkFault_ne hr hne sl)
  exact congrArg F.BLK_FAULT_BITS.get same

theorem State.setFld_captureCleared (s : State) (slot : Nat) (f : Fld) (x : Nat) (hr : f.reg.info.off + 0 * f.reg.info.stride < 0x10000)
    (hne : f.reg.info.off + 0 * f.reg.info.stride ≠ 0x10) : s.CaptureCleared (s.setFld slot f 0 x) :=
  ⟨fun sl => State.setReg_faults s slot f.reg 0 _ hr hne sl, rfl, rfl⟩

theorem State.basinErr_captureCleared (s : State) :
    s.CaptureCleared ((s.setFld 0x0C F.BASIN_ERR_VALID 0 0).setFld 0x0C F.BASIN_ERR_OFFSET 0 0) :=
  (State.setFld_captureCleared s 0x0C F.BASIN_ERR_VALID 0 (by decide) (by decide)).trans
    (State.setFld_captureCleared _ 0x0C F.BASIN_ERR_OFFSET 0 (by decide) (by decide))

/-- Captures that clear with their fault bits leave every fault bit. -/
theorem State.clearCaptures_captureCleared (s : State) (slot mask : Nat) : s.CaptureCleared (s.clearCaptures slot mask) := by
  have base (x : State) : x.CaptureCleared x := State.CaptureCleared.refl x
  have clear (t : State) (sl : Nat) (r : Reg) (h : r.info.off + 0 * r.info.stride < 0x10000 ∧ r.info.off + 0 * r.info.stride ≠ 0x10) :
      t.CaptureCleared (t.clearReg sl r 0) := State.clearReg_captureCleared t sl r h.1 h.2
  unfold State.clearCaptures
  split
  · have mism := (base s).ite (nbit mask 4 || nbit mask 5) ((clear s slot .BERTH_MISM (by decide)).trans (clear _ slot .BERTH_MISM_T (by decide)))
    exact (((mism.ite _ (clear _ slot .HOLD_ERR (by decide))).ite _ (clear _ slot .SEQ_FLT (by decide))).ite _
      (clear _ slot .WO_ERR (by decide))).ite _ (clear _ slot .MSG_ERR (by decide))
  · split
    · exact (((base s).ite _ (clear s 0 .HM_MISM (by decide))).ite _ (clear _ 0 .HM_CLKMON (by decide))).ite _
        (clear _ 0 .HM_REGPAR (by decide))
    · exact (base s).ite _ (clear s 0x0A .MC_ERR (by decide))
    · exact (base s).ite _ (clear s 0x0B .MC_ERR (by decide))
    · refine ((base s).ite _ (State.basinErr_captureCleared s)).ite _ ?_
      have banks (x : State) := State.setFld_captureCleared x 0x0C F.BASIN_ERR_RET_BANKS 0 (by decide) (by decide)
      exact ((banks _).ite _ (State.basinErr_captureCleared _)).trans ⟨fun _ => rfl, rfl, rfl⟩
    · exact (base s).ite _ (clear s 0x0E .KV_ERR (by decide))
    · exact (base s).ite _ (clear s 0x0F .DRG_ERR (by decide))
    · exact (base s).ite _ (clear s 0x10 .HOST_ERR (by decide))
    · exact base s

theorem State.nbit_faults_clearFaults (s : State) (slot mask : Nat) {g : Nat} (hg : g < 32) :
    nbit ((s.clearFaults slot mask).faults slot) g = (nbit (s.faults slot) g && !nbit mask g) := by
  have keep : (s.clearFaults slot mask).faults slot = maskOf (setBits 32 (s.faults slot)) (fun g => !nbit mask g) % 2 ^ 32 :=
    State.fld_setFld_same s slot F.BLK_FAULT_BITS 0 _ (by decide) (by decide)
  rw [keep, nbit_mod_two_pow, nbit_maskOf]
  simp [mem_setBits, hg]

/-- The bits that a W1C clears. -/
theorem State.nbit_faults_faultW1C (s : State) (slot v : Nat) {g : Nat} (hg : g < 32) :
    nbit ((s.faultW1C slot v).faults slot) g = (nbit (s.faults slot) g && !(nbit v g && !nbit (s.standing slot) g)) := by
  unfold State.faultW1C
  rw [(State.clearCaptures_captureCleared _ slot _).1, State.nbit_faults_clearFaults _ _ _ hg, nbit_maskOf]
  have written : decide (g ∈ setBits 32 (v % 2 ^ 32)) = nbit v g := by
    rw [Bool.eq_iff_iff, decide_eq_true_eq, mem_setBits, nbit_mod_two_pow]
    simp [hg]
  rw [written]
  cases nbit (s.faults slot) g <;> simp

end Sys2Proof.Machine
end

section
/-! SUPPORT. The writes of the common header, grace, and the safe output stage's commands: O43, O44. -/

namespace Sys2Proof.Machine

/-! ## A grace timer that has ended (R569) -/

/-- Every slot whose grace has expired in `s` still has it expired, with no timer running, in `t`. -/
def State.KeepsExpired (s t : State) : Prop :=
  ∀ sl, (s.hdr sl).graceEnd = none ∧ (s.hdr sl).graceExp = true → (t.hdr sl).graceEnd = none ∧ (t.hdr sl).graceExp = true

theorem State.keepsExpired_of_hdrs {s t : State} (h : t.hdrs = s.hdrs) : s.KeepsExpired t := fun sl hsl => by
  unfold State.hdr at *
  rwa [h]

/-- Recording a fault starts no timer of a slot whose grace has expired. -/
theorem State.setFault_keepsExpired (s : State) (slot g : Nat) : s.KeepsExpired (s.setFault slot g) := fun sl ⟨noTimer, expired⟩ => by
  by_cases h : sl = slot
  · subst h
    unfold State.setFault
    simp [State.hdr_setHdr_same, expired, noTimer]
  · rw [State.hdr_setFault_other s g h]
    exact ⟨noTimer, expired⟩

theorem State.recordStep_keepsExpired : RecordStep State.KeepsExpired where
  refl _ := State.keepsExpired_of_hdrs rfl
  trans h k sl hsl := k sl (h sl hsl)
  push s _ _ _ _ := State.keepsExpired_of_hdrs (by unfold State.push; split <;> rfl)
  logDrop s _ := State.setFault_keepsExpired s 3 4
  notify s old slots := State.keepsExpired_of_hdrs (State.hdrs_notify s old slots)
  dev _ _ := State.keepsExpired_of_hdrs rfl
  reg _ _ _ _ := State.keepsExpired_of_hdrs rfl
  markOut _ _ := State.keepsExpired_of_hdrs rfl
  hm _ _ := State.keepsExpired_of_hdrs rfl

theorem State.expired_graceExpire (s : State) (slot : Nat) :
    ((s.graceExpire slot).hdr slot).graceEnd = none ∧ ((s.graceExpire slot).hdr slot).graceExp = true := by
  have expired : ((s.setHdr slot { s.hdr slot with graceEnd := none, graceExp := true }).hdr slot).graceEnd = none ∧
      ((s.setHdr slot { s.hdr slot with graceEnd := none, graceExp := true }).hdr slot).graceExp = true := by
    simp [State.hdr_setHdr_same]
  exact State.recordStep_keepsExpired.settle _ 6 slot (State.recordStep_keepsExpired.append _ slot 0xFF 0x0002 _ slot expired)

/-! ## Header writes (R13, R561, R665, R675) -/

section
variable {slot : BitVec 6} {s : State} (hs : slot.toNat ∈ allSlots)
include hs

theorem contains_allSlots : allSlots.contains slot.toNat = true := List.contains_iff_mem.mpr hs

variable (ha : s.awake = true) (who : Requester) (v : U64)
include ha

theorem exec_blkFaultWrite : exec (.blkFaultWrite who slot v) s = .next (s.faultW1C slot.toNat v.toNat) :=
  if_pos (by rw [ha, contains_allSlots hs]; rfl)

theorem exec_blkFmaskWrite : exec (.blkFmaskWrite who slot v) s = .next (s.fmaskWrite slot.toNat v.toNat) :=
  if_pos (by rw [ha, contains_allSlots hs]; rfl)

theorem exec_blkIrqWrite : exec (.blkIrqWrite who slot v) s = .next (s.irqWrite slot.toNat v) :=
  if_pos (by rw [ha, contains_allSlots hs]; rfl)

theorem exec_blkAck : exec (.blkAck who slot) s = .next (s.ack slot.toNat) :=
  if_pos (by rw [ha, contains_allSlots hs]; rfl)

end

theorem exec_graceExpiry {slot : BitVec 6} {s : State} (hs : slot.toNat ∈ allSlots) (h : s.graceDue slot.toNat = true) :
    ∃ t, exec (.graceExpiry slot) s = .next (State.graceExpire t slot.toNat) := by
  have performed : exec (.graceExpiry slot) s = .next (s.graceExpiry slot.toNat) :=
    if_pos (by rw [h, contains_allSlots hs]; rfl)
  have due : s.graceExpiry slot.toNat = State.graceExpire _ slot.toNat := if_pos (by rw [h]; rfl)
  exact ⟨_, performed.trans (congrArg Host.Outcome.next due)⟩

theorem State.faultW1C_frame (s : State) (slot v : Nat) : (s.faultW1C slot v).mem = s.mem ∧ (s.faultW1C slot v).berths = s.berths := by
  obtain ⟨_, mem, berths⟩ := State.clearCaptures_captureCleared (s.clearFaults slot
    (maskOf (setBits 32 (v % 2 ^ 32)) fun g => nbit (s.faults slot) g && !nbit (s.standing slot) g)) slot
    (maskOf (setBits 32 (v % 2 ^ 32)) fun g => nbit (s.faults slot) g && !nbit (s.standing slot) g)
  exact ⟨mem, berths⟩

theorem State.fld_notify (s old : State) (slots : List Nat) (slot : Nat) (f : Fld) (i : Nat) :
    (s.notify old slots).fld slot f i = s.fld slot f i := by
  unfold State.fld State.reg
  rw [State.regs_notify]

theorem State.mem_notify (s old : State) (slots : List Nat) : (s.notify old slots).mem = s.mem := by
  rw [State.notify_notified s old slots]

theorem sourceMask_lt (slot : BitVec 6) : sourceMask slot.toNat < 2 ^ 32 := by
  revert slot
  decide

theorem State.fmaskWrite_bits (s : State) (slot : BitVec 6) (v : Nat) :
    (s.fmaskWrite slot.toNat v).fld slot.toNat F.BLK_FMASK_BITS 0 = v &&& sourceMask slot.toNat := by
  have small : v &&& sourceMask slot.toNat < 2 ^ 32 := Nat.lt_of_le_of_lt Nat.and_le_right (sourceMask_lt slot)
  rw [State.fmaskWrite, State.fld_notify, State.fld_setFld_same _ _ F.BLK_FMASK_BITS _ _ (by decide) (by decide)]
  exact Nat.mod_eq_of_lt small

/-- A field's value fits into the field. -/
theorem Fld.get_mod (f : Fld) (v : U64) : f.get v % 2 ^ (f.hi + 1 - f.lo) = f.get v := Nat.mod_mod _ _

theorem State.irqWrite_fields (s : State) (slot : Nat) (v : U64) :
    (s.irqWrite slot v).fld slot F.BLK_IRQ_PINS 0 = F.BLK_IRQ_PINS.get v ∧
      (s.irqWrite slot v).fld slot F.BLK_IRQ_VECTOR 0 = F.BLK_IRQ_VECTOR.get v := by
  unfold State.irqWrite
  rw [State.fld_notify, State.fld_notify]
  constructor
  · rw [State.fld_setFld_apart _ slot F.BLK_IRQ_VECTOR F.BLK_IRQ_PINS 0 _ rfl (by decide) (by decide) (Or.inr (by decide)),
      State.fld_setFld_same _ _ F.BLK_IRQ_PINS _ _ (by decide) (by decide), Fld.get_mod]
  · rw [State.fld_setFld_same _ _ F.BLK_IRQ_VECTOR _ _ (by decide) (by decide), Fld.get_mod]

/-- Settles O43. -/
theorem headerWritesAndGrace : Obligations.HeaderWritesAndGrace := by
  intro who slot v s hs sl
  refine ⟨fun ha => ⟨?_, ?_, ?_, fun notDue noGrace => ?_, fun notDue grace => ?_, fun due => ?_⟩, fun e he hk => ?_⟩
  · obtain ⟨mem, berths⟩ := State.faultW1C_frame s sl v.toNat
    exact ⟨_, exec_blkFaultWrite hs ha who v, mem, berths, fun g hg => State.nbit_faults_faultW1C s sl v.toNat hg⟩
  · exact ⟨_, exec_blkFmaskWrite hs ha who v, State.fmaskWrite_bits s slot v.toNat, State.mem_notify _ _ _⟩
  · obtain ⟨pins, vector⟩ := State.irqWrite_fields s sl v
    exact ⟨_, exec_blkIrqWrite hs ha who v, pins, vector, State.mem_notify _ _ _⟩
  · simp only [exec_blkAck hs ha who, State.ack, sl] at *
    rw [notDue, noGrace]
    rfl
  · simp only [exec_blkAck hs ha who, State.ack, sl] at *
    rw [notDue, grace]
    rfl
  · simp only [exec_blkAck hs ha who, State.ack, sl] at *
    rw [due]
    rfl
  · have due : s.graceDue sl = true := by simp [State.graceDue, he, hk]
    obtain ⟨t, answer⟩ := exec_graceExpiry hs due
    obtain ⟨noTimer, expired⟩ := State.expired_graceExpire t sl
    exact ⟨_, answer, noTimer, expired, Bool.or_eq_true_iff.mpr (Or.inr expired)⟩

/-! ## SO_CMD, SAFE_N and the readback (R574 to R577) -/

theorem exec_soCmdWrite (who : Requester) (v : U64) (s : State) : exec (.soCmdWrite who v) s = .next (s.soCmd who v) := rfl

theorem exec_safeNLow {lowNs : Nat} (h : 50 ≤ lowNs) (s : State) : exec (.safeNLow lowNs) s = .next s.safeNFall := if_pos h

/-- SO_CMD takes the value in Run with no line asserted, and reads 0 otherwise. -/
theorem State.soCmd_act {s : State} {who : Requester} (h : s.soCmdOk who = true) (v : U64) :
    (s.soCmd who v).fld 0x13 F.SO_CMD_ACT 0 = if s.dev = .run ∧ s.anyLine = false then F.SO_CMD_ACT.get v else 0 := by
  have stored : (s.soCmd who v).fld 0x13 F.SO_CMD_ACT 0 =
      (if s.dev == .run && !s.anyLine then F.SO_CMD_ACT.get v else 0) % 2 ^ (F.SO_CMD_ACT.hi + 1 - F.SO_CMD_ACT.lo) := by
    unfold State.soCmd
    rw [if_neg (by simp [h])]
    exact State.fld_setFld_same s 0x13 F.SO_CMD_ACT 0 _ (by decide) (by decide)
  rw [stored]
  by_cases inRun : s.dev = .run ∧ s.anyLine = false
  · have runs : (s.dev == .run && !s.anyLine) = true := by rw [inRun.1, inRun.2]; rfl
    rw [if_pos inRun, runs, if_pos rfl]
    exact Fld.get_mod F.SO_CMD_ACT v
  · have notRun : ¬ (s.dev == .run && !s.anyLine) = true := by
      rwa [Bool.and_eq_true, beq_iff_eq, Bool.not_eq_true']
    rw [if_neg inRun, if_neg notRun]
    exact Nat.zero_mod _

theorem State.soCmd_frame (s : State) (who : Requester) (v : U64) :
    s.soCmd who v = { s with regs := (s.soCmd who v).regs, pins := (s.soCmd who v).pins } := by
  unfold State.soCmd
  split <;> rfl

theorem State.safeNFall_pins (s : State) : s.safeNFall.pins.safeNLow = true := by
  unfold State.safeNFall
  dsimp only
  split
  · exact State.safeNLow_record _ _ _
  · rfl

theorem State.safeNFall_fault {s : State} (hf : s.fld 0x13 F.SO_CFG_FOLLOW_N 0 = 1) (hd : s.dev ≠ .off) :
    nbit (s.safeNFall.faults 0x13) 1 = true := by
  have follows : ({ s with pins := { s.pins with safeNLow := true } } : State).fld 0x13 F.SO_CFG_FOLLOW_N 0 = 1 := hf
  have recorded : s.safeNFall = ({ s with pins := { s.pins with safeNLow := true } } : State).record 0x13 1 :=
    if_pos (by simp [State.safeNLine, follows, hd])
  rw [recorded]
  exact State.nbit_faults_recordAs _ 6 (by decide) (by decide)

theorem nbit_putBit_same (x i : Nat) (b : Bool) : nbit (putBit x i b) i = b := by
  unfold putBit
  cases b
  · simp only [Bool.false_eq_true, if_false]
    split
    next isSet =>
      have odd : x / 2 ^ i % 2 = 1 := by simpa [nbit] using isSet
      have even : (x - 2 ^ i) / 2 ^ i = x / 2 ^ i - 1 := by simpa using Nat.sub_mul_div x (2 ^ i) 1
      simp only [nbit, even, beq_eq_false_iff_ne]
      omega
    next clear => simpa using clear
  · simp [nbit_or, nbit_pow]

/-- A level that changes on SAFE_FB is taken with its time. -/
theorem exec_safeFbChange {s : State} {k : Fin 4} {lvl : Bool} (h : nbit s.pins.safeFb.toNat k ≠ lvl) :
    exec (.safeFbChange k lvl) s = .next { s with pins := { s.pins with
      safeFb := BitVec.ofNat 4 (putBit s.pins.safeFb.toNat k lvl), fbAt := Tab.put s.pins.fbAt k s.clk.now } } :=
  if_neg (by simpa using h)

theorem exec_soRbMism {s : State} {k : Fin 4} (ha : s.awake = true) (hd : s.rbDue k = true) :
    exec (.soRbMism k) s = .next (s.record 0x13 0) := if_pos (by rw [ha, hd]; rfl)

/-! ## A safe exit (R581) -/

/-- `t` has the same safe-request lines as `s`: the same fault bits, reactions, pin and person. -/
structure State.SameLines (s t : State) : Prop where
  faults : ∀ sl, t.faults sl = s.faults sl
  hdrs : t.hdrs = s.hdrs
  pin : t.pins.safeNLow = s.pins.safeNLow
  follow : t.fld 0x13 F.SO_CFG_FOLLOW_N 0 = s.fld 0x13 F.SO_CFG_FOLLOW_N 0
  person : t.person = s.person

theorem State.SameLines.refl (s : State) : s.SameLines s := ⟨fun _ => rfl, rfl, rfl, rfl, rfl⟩

theorem State.SameLines.trans {s t u : State} (h : s.SameLines t) (k : t.SameLines u) : s.SameLines u :=
  ⟨fun sl => (k.faults sl).trans (h.faults sl), k.hdrs.trans h.hdrs, k.pin.trans h.pin, k.follow.trans h.follow,
    k.person.trans h.person⟩

theorem State.SameLines.anyLine {s t : State} (h : s.SameLines t) : t.anyLine = s.anyLine := by
  have lines : t.safeLine = s.safeLine := by
    funext sl
    unfold State.safeLine State.hasReaction State.took State.hdr
    rw [h.faults, h.hdrs]
  unfold State.anyLine State.safeNLine State.estopLine
  rw [lines, h.pin, h.follow, h.person]

/-- A register of the Harbourmaster's block other than BLK_FAULT asserts no line. -/
theorem State.setReg_sameLines (s : State) (r : Reg) (v : U64) (hr : r.info.off + 0 * r.info.stride < 0x10000)
    (hne : r.info.off + 0 * r.info.stride ≠ 0x10) : s.SameLines (s.setReg 0 r 0 v) := by
  refine ⟨fun sl => State.setReg_faults s 0 r 0 v hr hne sl, rfl, rfl, State.fld_setReg_other s 0 0x13 r _ 0 0 v ?_, rfl⟩
  show 0x13 * 0x10000 + _ + 0 * _ ≠ 0 * 0x10000 + r.info.off + 0 * r.info.stride
  omega

theorem State.push_sameLines (s : State) (slot group code detail : Nat) : s.SameLines (s.push slot group code detail) := by
  unfold State.push
  split <;> exact ⟨fun _ => rfl, rfl, rfl, rfl, rfl⟩

theorem State.settle_of_noLine {s : State} (h : s.anyLine = false) (cause : Nat) : s.settle cause = s := if_neg (by simp [h])

theorem State.lhWatch_eq (s : State) (p : Nat → Bool) : s.lhWatch p = { s with lhs := (s.lhWatch p).lhs } := by
  unfold State.lhWatch
  refine List.foldlRecOn (motive := fun (t : State) => t = { s with lhs := t.lhs }) _ _ rfl fun t ht i _ => ?_
  split
  · rw [ht]; rfl
  · exact ht

theorem State.lhWatch_regs (s : State) (p : Nat → Bool) : (s.lhWatch p).regs = s.regs := by rw [State.lhWatch_eq]

theorem State.lhWatch_dev (s : State) (p : Nat → Bool) : (s.lhWatch p).dev = s.dev := by rw [State.lhWatch_eq]

/-- A field reads the registers only. -/
theorem State.fld_congr {s t : State} (h : t.regs = s.regs) (slot : Nat) (f : Fld) (i : Nat) : t.fld slot f i = s.fld slot f i := by
  unfold State.fld State.reg
  rw [h]

/-- Run or Idle entered with room in the Logbook's queue: one entry, and no line changes. -/
theorem State.setDev_awake {s : State} (room : s.log.ingress.length < 64) {d : DevState} (hd : d = .run ∨ d = .idle) (cause : Nat) :
    s.SameLines (s.setDev d cause) ∧
      (s.setDev d cause).fld 0 F.HM_SAFE_STAT_IN_SAFE 0 = s.fld 0 F.HM_SAFE_STAT_IN_SAFE 0 := by
  have entry (v : U64) (x : Nat) :
      s.SameLines ((({ s with dev := d } : State).setReg 0 .HM_STATE 0 v).append 0 0xFF 0x0006 x) ∧
        ((({ s with dev := d } : State).setReg 0 .HM_STATE 0 v).append 0 0xFF 0x0006 x).fld 0 F.HM_SAFE_STAT_IN_SAFE 0 =
          s.fld 0 F.HM_SAFE_STAT_IN_SAFE 0 := by
    have stored := State.setReg_sameLines { s with dev := d } .HM_STATE v (by decide) (by decide)
    have roomLeft : (({ s with dev := d } : State).setReg 0 .HM_STATE 0 v).log.ingress.length < 64 := room
    rw [State.append_room roomLeft]
    refine ⟨State.SameLines.trans (t := { s with dev := d }) ⟨fun _ => rfl, rfl, rfl, rfl, rfl⟩
      (stored.trans (State.push_sameLines _ _ _ _ _)), ?_⟩
    have kept := State.fld_setReg_other { s with dev := d } 0 0 .HM_STATE F.HM_SAFE_STAT_IN_SAFE 0 0 v (by decide)
    unfold State.push
    rw [if_pos roomLeft]
    exact kept
  have marked (t old : State) : t.SameLines (t.markOut old) := ⟨fun _ => rfl, rfl, rfl, rfl, rfl⟩
  unfold State.setDev
  obtain rfl | rfl := hd <;> exact ⟨(entry _ _).1.trans (marked _ _), (entry _ _).2⟩

/-- The state that a safe exit leaves Safe from: the entry is appended and IN_SAFE cleared. -/
def State.leftSafe (s : State) : State :=
  let t := s.push 0 0xFF 0x0003 (s.reg 0 .HM_SAFE_T 0).toNat
  let u := (t.setFld 0 F.HM_SAFE_STAT_REFUSED 0 0).setFld 0 F.HM_SAFE_STAT_IN_SAFE 0 0
  { u with hm := { u.hm with estopAtSafe := false } }

theorem State.leftSafe_sameLines (s : State) : s.SameLines s.leftSafe := by
  have stored (t : State) (f : Fld) (x : Nat) (hf : f.reg = .HM_SAFE_STAT) : t.SameLines (t.setFld 0 f 0 x) :=
    State.setReg_sameLines t f.reg _ (by rw [hf]; decide) (by rw [hf]; decide)
  exact (State.push_sameLines s _ _ _ _).trans ((stored _ F.HM_SAFE_STAT_REFUSED 0 rfl).trans
    ((stored _ F.HM_SAFE_STAT_IN_SAFE 0 rfl).trans ⟨fun _ => rfl, rfl, rfl, rfl, rfl⟩))

theorem State.leftSafe_inSafe (s : State) : s.leftSafe.fld 0 F.HM_SAFE_STAT_IN_SAFE 0 = 0 :=
  State.fld_setFld_same _ 0 F.HM_SAFE_STAT_IN_SAFE 0 0 (by decide) (by decide)

theorem State.leftSafe_room {s : State} (room : s.log.ingress.length < 63) : s.leftSafe.log.ingress.length < 64 := by
  have queued : s.leftSafe.log.ingress = _ := State.push_room (s := s) (by omega) 0 0xFF 0x0003 (s.reg 0 .HM_SAFE_T 0).toNat
  rw [queued, List.length_append, List.length_singleton]
  omega

theorem State.anyLine_of_exitRefusal {s : State} (h : s.exitRefusal = 0) : s.anyLine = false := by
  unfold State.exitRefusal at h
  split_ifs at h with _ line
  all_goals exact Bool.eq_false_iff.mpr line

/-- A safe exit with no ground for a refusal. -/
theorem State.safeExit_allowed {s : State} (h : s.exitRefusal = 0) (room : s.log.ingress.length < 63) :
    s.safeExit = if s.chartOn then s.leftSafe.enterRun 10 else (s.leftSafe.setDev .idle 10).settle 6 := by
  have appended : s.logEntry 0 0xFF 0x0003 (s.reg 0 .HM_SAFE_T 0).toNat = s.push 0 0xFF 0x0003 (s.reg 0 .HM_SAFE_T 0).toNat := by
    have noLine : (s.push 0 0xFF 0x0003 (s.reg 0 .HM_SAFE_T 0).toNat).anyLine = false :=
      (State.push_sameLines s _ _ _ _).anyLine.trans (State.anyLine_of_exitRefusal h)
    rw [State.logEntry, State.append_room (by omega), State.settle_of_noLine noLine]
  unfold State.safeExit
  rw [h]
  dsimp only
  rw [if_pos rfl, appended, State.leftSafe]

theorem State.safeExit_leaves {s : State} (h : s.exitRefusal = 0) (room : s.log.ingress.length < 63) :
    s.safeExit.fld 0 F.HM_SAFE_STAT_IN_SAFE 0 = 0 ∧ s.safeExit.dev = if s.chartOn then .run else .idle := by
  have noLine {t : State} (ht : s.leftSafe.SameLines t) : t.anyLine = false :=
    ht.anyLine.trans (s.leftSafe_sameLines.anyLine.trans (State.anyLine_of_exitRefusal h))
  rw [State.safeExit_allowed h room]
  split
  · obtain ⟨lines, inSafe⟩ := State.setDev_awake (State.leftSafe_room room) (Or.inl rfl : DevState.run = .run ∨ DevState.run = .idle) 10
    have watching := State.lhWatch_eq (s.leftSafe.setDev .run 10) fun i => !(s.leftSafe.lh i).armed
    have sameLines : s.leftSafe.SameLines ((s.leftSafe.setDev .run 10).lhWatch fun i => !(s.leftSafe.lh i).armed) := by
      rw [watching]
      exact lines.trans ⟨fun _ => rfl, rfl, rfl, rfl, rfl⟩
    unfold State.enterRun
    rw [State.settle_of_noLine (noLine sameLines), State.fld_congr (State.lhWatch_regs _ _), State.lhWatch_dev]
    exact ⟨inSafe.trans s.leftSafe_inSafe, State.dev_setDev s.leftSafe .run 10⟩
  · obtain ⟨lines, inSafe⟩ := State.setDev_awake (State.leftSafe_room room) (Or.inr rfl : DevState.idle = .run ∨ DevState.idle = .idle) 10
    rw [State.settle_of_noLine (noLine lines)]
    exact ⟨inSafe.trans s.leftSafe_inSafe, State.dev_setDev _ _ _⟩

theorem exec_safeExit {s : State} (ha : s.awake = true) (p : HostPath) : exec (.safeExit (.host p)) s = .next s.safeExit :=
  if_pos (by rw [ha]; rfl)

/-- Settles O44. -/
theorem safeOutputCommands : Obligations.SafeOutputCommands := by
  intro who v lowNs k lvl s
  refine ⟨fun ok => ?_, fun notOk => ?_, fun low => ?_, rfl, fun changes => ?_, fun ha due => ?_, fun ha p allowed room => ?_⟩
  · exact ⟨_, exec_soCmdWrite who v s, State.soCmd_act ok v, State.soCmd_frame s who v⟩
  · exact (exec_soCmdWrite who v s).trans (congrArg Host.Outcome.next (if_pos (by simp [notOk])))
  · exact ⟨_, exec_safeNLow low s, State.safeNFall_pins s, fun follows awake => State.safeNFall_fault follows awake⟩
  · refine ⟨_, exec_safeFbChange changes, ?_, Tab.find_put_same _ _ _, rfl⟩
    simp only [BitVec.toNat_ofNat]
    rw [nbit_mod_two_pow, nbit_putBit_same]
    simp
  · exact ⟨_, exec_soRbMism ha due, State.nbit_faults_recordAs s 6 (by decide) (by decide), (State.record_recorded s _ _).mem⟩
  · obtain ⟨inSafe, dev⟩ := State.safeExit_leaves allowed room
    exact ⟨_, exec_safeExit ha p, inSafe, dev⟩

end Sys2Proof.Machine
end

section
/-! SUPPORT. Register writes, differences of the Harbourmaster and the pairs, the Logbook's commands, Lighthouses and clock monitors:
O35, O37, O45, O46. -/

namespace Sys2Proof.Machine

/-! ## Recording a fault clears no fault bit -/

theorem State.record_keepsFaults (s : State) (slot g : Nat) : s.KeepsFaults (s.record slot g) := fun sl j hj =>
  (State.recordStep_keepsTook.recordAs s slot g 6
    (fun source clear => State.setFault_keepsTook s (lt_32_of_source source) clear) sl j hj).1

theorem State.count_keepsFaults (s : State) (slot : Nat) (f : Fld) (i k : Nat) (hr : f.reg.info.off + i * f.reg.info.stride < 0x10000)
    (hne : f.reg.info.off + i * f.reg.info.stride ≠ 0x10) : s.KeepsFaults (s.count slot f i k) :=
  State.setFld_keepsFaults s slot f i _ hr hne

theorem State.kvFault_keepsFaults (s : State) (g q page unit : Nat) : s.KeepsFaults (s.kvFault g q page unit) := by
  unfold State.kvFault
  refine State.KeepsFaults.trans ?_ (State.record_keepsFaults _ _ _)
  split_ifs
  exacts [State.KeepsFaults.refl s, State.setReg_keepsFaults s 0x0E .KV_ERR 0 _ (by decide) (by decide)]

theorem State.drgFault_keepsFaults (s : State) (g k reason addr : Nat) : s.KeepsFaults (s.drgFault g k reason addr) := by
  unfold State.drgFault
  refine State.KeepsFaults.trans ?_ (State.record_keepsFaults _ _ _)
  split_ifs
  exacts [State.KeepsFaults.refl s, State.setReg_keepsFaults s 0x0F .DRG_ERR 0 _ (by decide) (by decide)]

/-! ## Register writes (R44, R535) -/

theorem State.seqFlt_keepsFaults (s : State) (n group cause pc : Nat) (word : U32) : s.KeepsFaults (s.seqFlt n group cause pc word) := by
  unfold State.seqFlt
  split_ifs
  exacts [State.KeepsFaults.refl s, State.setReg_keepsFaults s (bslot n) .SEQ_FLT 0 _ (by decide) (by decide)]

theorem State.storeFlt_keepsFaults (s : State) (n : Nat) (st : Status) (addr : Addr) (pc : Nat) (word : U32) :
    s.KeepsFaults (s.storeFlt n st addr pc word) ∧ (s.storeFlt n st addr pc word).mem = s.mem := by
  have flt := State.seqFlt_keepsFaults s n 15 (statusCode st) pc word
  have mem := (State.seqFlt_recorded s n 15 (statusCode st) pc word).mem
  unfold State.storeFlt
  dsimp only
  split
  · exact ⟨flt, mem⟩
  · exact ⟨flt.trans (State.keepsFaults_of_regs (State.setBerth_regs _ _ _)), mem⟩

theorem State.hostErr_keepsFaults (s : State) (p : HostPath) (st : Status) (a : Nat) : s.KeepsFaults (s.hostErr p st a) := by
  have counted := State.count_keepsFaults s 0x10 F.HOST_CNT_NOT_OK 0 1 (by decide) (by decide)
  unfold State.hostErr
  dsimp only
  split_ifs
  exacts [counted, counted.trans (State.setReg_keepsFaults _ 0x10 .HOST_ERR 0 _ (by decide) (by decide))]

theorem State.hostErr_recorded (s : State) (p : HostPath) (st : Status) (a : Nat) : s.Recorded (s.hostErr p st a) := by
  have counted := State.count_recorded s 0x10 F.HOST_CNT_NOT_OK 0 1
  unfold State.hostErr
  dsimp only
  split_ifs
  exacts [counted, counted.trans (State.setReg_recorded _ _ _ _ _)]

/-- A posted write that is not OK is recorded at its requester: no fault bit clears and no byte changes. -/
theorem State.postedBad_keeps (s : State) (who : Requester) (st : Status) (addr pc : Nat) (word : U32) :
    s.KeepsFaults (s.postedBad who st addr pc word) ∧ (s.postedBad who st addr pc word).mem = s.mem := by
  unfold State.postedBad
  split
  · exact ⟨State.KeepsFaults.refl s, rfl⟩
  · split
    next n =>
      obtain ⟨flt, mem⟩ := State.storeFlt_keepsFaults s n st (BitVec.ofNat 48 addr) pc word
      exact ⟨flt.trans (State.record_keepsFaults _ _ _), (State.record_recorded _ _ _).mem.trans mem⟩
    next p => exact ⟨State.hostErr_keepsFaults s p st addr, (State.hostErr_recorded s p st addr).mem⟩
    next => exact ⟨State.KeepsFaults.refl s, rfl⟩

theorem State.regParity_recorded (s : State) (slot dir : Nat) : s.Recorded (s.regParity slot dir) := by
  unfold State.regParity
  refine State.Recorded.trans ?_ (State.record_recorded _ _ _)
  split
  exacts [State.Recorded.refl s, State.setReg_recorded _ _ _ _ _]

theorem State.nbit_faults_regParity (s : State) (slot dir : Nat) : nbit ((s.regParity slot dir).faults 0) 8 = true :=
  State.nbit_faults_recordAs _ 6 (by decide) (by decide)

theorem exec_registerWrite {s : State} {addr : Addr} {slot off : Nat} (ha : s.awake = true) (hp : s.place addr = .regs slot off)
    (who : Requester) (size : Nat) (v : U64) (parityOk : Bool) : exec (.registerWrite who addr size v parityOk) s =
      .next ((s.regCommand who slot off size v parityOk).2.postedBad who (s.regCommand who slot off size v parityOk).1 addr.toNat
        (s.pcOf who) 0) := by
  have unfolded : exec (.registerWrite who addr size v parityOk) s = execRegisterWrite who addr size v parityOk s := rfl
  rw [unfolded, execRegisterWrite, hp]
  exact if_pos ha

/-- Settles O35. -/
theorem registerWritesScrubAndTraining : Obligations.RegisterWritesScrubAndTraining := by
  intro who addr size slot off v busy c0 c1 s
  refine ⟨fun ha hp => ⟨fun shape => ?_, fun badShape => ?_, ?_⟩, fun due => if_pos due, fun hd hw ht hon h0 h1 => ?_⟩
  · have stored : s.regCommand who slot off size v true = s.regStore who slot off v := by
      simp [State.regCommand, (regWrite44_iff size off).mpr shape]
    rw [exec_registerWrite ha hp, stored]
  · have refused : s.regCommand who slot off size v true = (.poison, s.recordHole who) := by
      simp [State.regCommand, mt (regWrite44_iff size off).mp badShape]
    rw [exec_registerWrite ha hp, refused]
  · obtain ⟨faults, mem⟩ := State.postedBad_keeps (s.regParity slot 0) who .poison addr.toNat (s.pcOf who) 0
    exact ⟨_, exec_registerWrite ha hp who size v false, rfl, mem.trans (State.regParity_recorded s slot 0).mem,
      faults 0 8 (State.nbit_faults_regParity s slot 0)⟩
  · have unfolded : exec (.memoryTrainingDone c0 c1) s = execMemoryTrainingDone c0 c1 s := rfl
    have fitted : (c1 == 0 || c1 == c0) = true := by simpa using h1
    simp only [unfolded, execMemoryTrainingDone, hd, hw, ht, hon, h0, fitted, when]
    rfl

/-! ## Differences of the Wharfinger, the Dredger and the Harbourmaster (R97, R532, R533) -/

theorem comp_toNat_ne_three {comp : BitVec 2} (h : comp = 1 ∨ comp = 2) : comp.toNat ≠ 3 := by
  obtain rfl | rfl := h <;> decide

theorem oneComparator {comp : BitVec 2} (h : comp = 1 ∨ comp = 2) : (comp == 1 || comp == 2) = true := by
  obtain rfl | rfl := h <;> rfl

theorem State.captureMism_of_notBerth (s : State) {u : PairUnit} (hu : ∀ n, u ≠ .berth n) (buses comp diverge : Nat) :
    s.captureMism u buses comp diverge = s := by
  cases u with
  | berth n => exact absurd rfl (hu n)
  | wharfinger => rfl
  | dredger => rfl

theorem State.pairFault_recorded (s : State) (u : PairUnit) (g : Nat) : s.Recorded (s.pairFault u g) := by
  cases u with
  | berth n => exact State.record_recorded s _ _
  | wharfinger => exact State.kvFault_recorded s _ _ _ _
  | dredger => exact State.drgFault_recorded s _ _ _ _

theorem State.pairFault_keepsFaults (s : State) (u : PairUnit) (g : Nat) : s.KeepsFaults (s.pairFault u g) := by
  cases u with
  | berth n => exact State.record_keepsFaults s _ _
  | wharfinger => exact State.kvFault_keepsFaults s _ _ _ _
  | dredger => exact State.drgFault_keepsFaults s _ _ _ _

/-- LOCK_MISMATCH and COMP_DIVERGE have a source in every pair's slot. -/
theorem State.nbit_faults_pairFault (s : State) (u : PairUnit) {g : Nat} (hg : g = 4 ∨ g = 5) :
    nbit ((s.pairFault u g).faults (pairSlot u)) g = true := by
  have berths : ∀ n : Fin 32, nbit (sourceMask (bslot n)) 4 = true ∧ nbit (sourceMask (bslot n)) 5 = true := by decide
  have small : g < 32 := by omega
  cases u with
  | berth n =>
    refine State.nbit_faults_recordAs s 6 ?_ small
    obtain rfl | rfl := hg
    exacts [(berths n).1, (berths n).2]
  | wharfinger => exact State.nbit_faults_recordAs _ 6 (by obtain rfl | rfl := hg <;> decide) small
  | dredger => exact State.nbit_faults_recordAs _ 6 (by obtain rfl | rfl := hg <;> decide) small

theorem State.endHolds_doms (s : State) (ws : List Wo) : (s.endHolds ws).doms = s.doms := by rw [State.endHolds_eq]

theorem State.dom_enterFaulted (s : State) (u : PairUnit) : ((s.enterFaulted u).dom (domainOf (pairSlot u))).faulted = true := by
  have marked : ((s.setDom (domainOf (pairSlot u)) { s.dom (domainOf (pairSlot u)) with faulted := true }).dom
      (domainOf (pairSlot u))).faulted = true := by rw [State.dom_setDom_same]
  cases u with
  | berth n =>
    have kept (x : State) (ws : List Wo) (b : Berth) : ((x.endHolds ws).setBerth n b).dom (domainOf (pairSlot (.berth n))) =
        x.dom (domainOf (pairSlot (.berth n))) := by
      unfold State.dom
      rw [State.setBerth_doms, State.endHolds_doms]
    unfold State.enterFaulted
    dsimp only
    rw [kept]
    exact marked
  | wharfinger => exact marked
  | dredger => exact marked

theorem State.dom_of_recorded {s t : State} (h : s.Recorded t) (d : Nat) : t.dom d = s.dom d := by
  unfold State.dom
  rw [h.doms]

/-- A difference makes the pair FAULTED and is recorded in its slot; COMP_DIVERGE too when the comparators disagree. -/
theorem State.pairEvent_facts (s : State) (u : PairUnit) (buses comp : Nat) :
    ((s.pairEvent u buses comp).dom (domainOf (pairSlot u))).faulted = true ∧ nbit ((s.pairEvent u buses comp).faults (pairSlot u)) 4 = true ∧
      (comp ≠ 3 → nbit ((s.pairEvent u buses comp).faults (pairSlot u)) 5 = true) := by
  have faulted := State.dom_enterFaulted (s.captureMism u buses comp (b2n (comp != 3))) u
  have first := State.pairFault_recorded ((s.captureMism u buses comp (b2n (comp != 3))).enterFaulted u) u 4
  have bit := State.nbit_faults_pairFault ((s.captureMism u buses comp (b2n (comp != 3))).enterFaulted u) u (Or.inl rfl : (4 : Nat) = 4 ∨ 4 = 5)
  unfold State.pairEvent
  dsimp only
  split
  next both => exact ⟨by rw [State.dom_of_recorded first]; exact faulted, bit, fun h => absurd both h⟩
  next =>
    have second := State.pairFault_recorded (((s.captureMism u buses comp (b2n (comp != 3))).enterFaulted u).pairFault u 4) u 5
    refine ⟨?_, State.pairFault_keepsFaults _ u 5 _ 4 bit, fun _ => State.nbit_faults_pairFault _ u (Or.inr rfl)⟩
    rw [State.dom_of_recorded second, State.dom_of_recorded first]
    exact faulted

/-- A difference of the Wharfinger or the Dredger writes no byte. -/
theorem State.pairEvent_mem (s : State) {u : PairUnit} (hu : ∀ n, u ≠ .berth n) (buses comp : Nat) : (s.pairEvent u buses comp).mem = s.mem := by
  have entered : ((s.captureMism u buses comp (b2n (comp != 3))).enterFaulted u).mem = s.mem := by
    rw [State.captureMism_of_notBerth s hu]
    cases u with
    | berth n => exact absurd rfl (hu n)
    | wharfinger => rfl
    | dredger => rfl
  unfold State.pairEvent
  dsimp only
  split
  · rw [State.pairFault_mem, entered]
  · rw [State.pairFault_mem, State.pairFault_mem, entered]

theorem exec_lockMismatch {u : PairUnit} {groups : BitVec 6} {comp : BitVec 2} {s : State} (hs : s.compares u = true) (hc : comp ≠ 0) :
    exec (.lockMismatch u groups comp) s = .next (s.pairEvent u groups.toNat comp.toNat) :=
  if_pos (Bool.and_eq_true_iff.mpr ⟨hs, bne_iff_ne.mpr hc⟩)

theorem exec_compDiverge {u : PairUnit} {groups : BitVec 6} {comp : BitVec 2} {s : State} (hs : s.compares u = true)
    (hc : comp = 1 ∨ comp = 2) : exec (.compDiverge u groups comp) s = .next (s.pairEvent u groups.toNat comp.toNat) :=
  if_pos (Bool.and_eq_true_iff.mpr ⟨hs, oneComparator hc⟩)

/-- Settles O37. -/
theorem harbourmasterDifferences : Obligations.HarbourmasterDifferences := by
  intro groups comp s
  refine ⟨fun u sl hu hs => ?_, fun awake =>
    ⟨fun hc => if_pos (Bool.and_eq_true_iff.mpr ⟨bne_iff_ne.mpr awake, bne_iff_ne.mpr hc⟩),
      fun hc => if_pos (Bool.and_eq_true_iff.mpr ⟨bne_iff_ne.mpr awake, oneComparator hc⟩)⟩⟩
  have slot : pairSlot u = sl := by obtain ⟨rfl, rfl⟩ | ⟨rfl, rfl⟩ := hu <;> rfl
  have notBerth : ∀ n, u ≠ .berth n := by
    intro n
    obtain ⟨rfl, -⟩ | ⟨rfl, -⟩ := hu <;> simp
  obtain ⟨faulted, bit4, bit5⟩ := State.pairEvent_facts s u groups.toNat comp.toNat
  rw [slot] at faulted bit4 bit5
  have mem := State.pairEvent_mem s notBerth groups.toNat comp.toNat
  exact ⟨fun hc => ⟨_, exec_lockMismatch hs hc, faulted, bit4, mem⟩,
    fun hc => ⟨_, exec_compDiverge hs hc, faulted, bit4, bit5 (comp_toNat_ne_three hc), mem⟩⟩

/-! ## The Logbook (R583 to R592) -/

theorem exec_logClear {s : State} (ha : s.awake = true) (who : Requester) : exec (.logClear who) s =
    .next (if s.presence then s.logClear else s.logEntry 0 0xFF 0x0030 (3 + 0x0C8 * 256)) := by
  have unfolded : exec (.logClear who) s = execLogClear who s := rfl
  rw [unfolded, execLogClear, ha]
  cases s.presence <;> rfl

/-- Settles O45. -/
theorem logbookCommands : Obligations.LogbookCommands := by
  intro who u st w s
  refine ⟨rfl, fun ha => ⟨if_pos ha, fun present => ?_, fun absent => ?_, fun hp hn hk => ?_, fun ht hk => ?_, ?_⟩, fun m g hm hg hu => ?_,
    fun awake whole some => ?_⟩
  · rw [exec_logClear ha, present]; rfl
  · rw [exec_logClear ha, absent]; rfl
  · exact if_pos (by simp [ha, hp, hn, hk])
  · exact if_pos (by simp [ha, ht, hk])
  · exact ⟨_, if_pos ha, rfl⟩
  · have unfolded : exec (.mirrorSegmentDone st u) s = execMirrorSegmentDone st u s := rfl
    simp [unfolded, execMirrorSegmentDone, hm, hg, hu]
  · exact if_pos (by simp [awake, whole, some])

/-! ## Lighthouses and clock monitors -/

/-- Settles O46: an injected expiry that is not due leaves the genuine one. -/
theorem lighthousesAndClockMonitors : Obligations.LighthousesAndClockMonitors := by
  intro i k c e w rc s
  refine ⟨fun due notInjected => ?_, fun due notAge notInjected => ?_, fun due => if_pos due, fun ha bad again => ?_, fun ha good hc => ?_,
    fun hd hx ht hw => ⟨fun bad => ?_, fun good => ?_⟩⟩
  · have unfolded : exec (.lhAgeExpiry i) s = execLhAgeExpiry i s := rfl
    simp [unfolded, execLhAgeExpiry, State.lhInjected, State.lhAgeFire, due, notInjected, when]
  · have unfolded : exec (.lhPeriodExpiry i) s = execLhPeriodExpiry i s := rfl
    simp [unfolded, execLhPeriodExpiry, State.lhInjected, State.lhPeriodFire, due, notAge, notInjected, when]
  · have twice : 2 ≤ Tab.get 0 s.clk.badWindows k + 1 ∨ c = 0 :=
      again.elim Or.inr fun before => Or.inl (Nat.succ_le_succ (Nat.pos_of_ne_zero before))
    refine ⟨Tab.set 0 s.clk.badWindows k (if Tab.get 0 s.clk.badWindows k + 1 = 0 then 0 else 1), ?_⟩
    have unfolded : exec (.clkMonWindow k c e) s = execClkMonWindow k c e s := rfl
    simp only [unfolded, execClkMonWindow, ha, bad, if_true, Bool.not_true, Bool.false_eq_true, if_false]
    exact if_pos twice
  · have unfolded : exec (.clkMonWindow k c e) s = execClkMonWindow k c e s := rfl
    simp only [unfolded, execClkMonWindow, ha, good, Bool.not_true, Bool.false_eq_true, if_false]
    exact if_neg (by rintro (twice | zero); exacts [absurd twice (by decide), hc zero])
  · exact if_pos (by simp [hd, hx, ht, hw, bad])
  · exact if_neg (by simp [good])

end Sys2Proof.Machine
end

section
/-! SUPPORT. Power, clocks and the start check: O47, O49, O50, O51. -/

namespace Sys2Proof.Machine

/-! ## POR_N and the rails (R243, R244, R694) -/

/-- Settles O47. -/
theorem powerOnReset : Obligations.PowerOnReset := by
  intro lowNs gpio f a b lvl s
  refine ⟨fun long => ?_, fun short => if_pos short, fun off low rails => if_pos (by simp [off, low, rails]), rfl,
    fun low => ⟨if_pos low, ?_⟩⟩
  · have unfolded : exec (.porNFall lowNs) s = execPorNFall lowNs s := rfl
    have notShort : ¬ lowNs < 1000 := by omega
    simp only [unfolded, execPorNFall, notShort, long, if_true, if_false]
  · exact if_pos low

/-! ## Switched domains (R252, R256, R258, R283) -/

theorem domainOf_pwrSlot (d : Fin 44) : domainOf (pwrSlot d) = d.val := by
  revert d
  decide

theorem pwrTakes_pwrSlot {s : State} (ha : s.awake = true) (hd : s.dev ≠ .startCheck) (d : Fin 44) :
    s.pwrTakes (pwrSlot d) = true := by
  have switched : d.val ≠ 0xFF := by omega
  simp [State.pwrTakes, domainOf_pwrSlot, ha, hd, switched]

/-- A write of ON: the switch itself, or the refusal of RWL. -/
theorem pwrSet_change {s : State} {d : Fin 44} {on : Bool} (hw : s.wanted d ≠ on) (who : Requester) :
    s.pwrSet who (pwrSlot d) on = if s.mayRwl who (pwrSlot d) then (if on then s.pwrOn d else s.drainReq d false)
      else s.lockedWrite (pwrSlot d) 0x40 := by
  unfold State.pwrSet
  dsimp only
  rw [domainOf_pwrSlot, if_neg hw]
  cases s.mayRwl who (pwrSlot d) <;> rfl

section
variable {s : State} (ha : s.awake = true) (hd : s.dev ≠ .startCheck) (who : Requester) (d : Fin 44)
include ha hd

theorem exec_domainPowerOn : exec (.domainPowerOn who d) s = .next (s.pwrSet who (pwrSlot d) true) := if_pos (pwrTakes_pwrSlot ha hd d)
theorem exec_domainPowerOff : exec (.domainPowerOff who d) s = .next (s.pwrSet who (pwrSlot d) false) := if_pos (pwrTakes_pwrSlot ha hd d)
theorem exec_domainReset : exec (.domainReset who d) s = .next (s.pwrReset (pwrSlot d)) := if_pos (pwrTakes_pwrSlot ha hd d)

end

theorem exec_domainResetHoldEnd {s : State} {d : Fin 44} {t : Nat} (ht : (s.dom d).holdEnd = some t) (ha : s.awake = true)
    (hk : t ≤ s.clk.now) :
    exec (.domainResetHoldEnd d) s = .next ((s.setDom d { s.dom d with holdEnd := none }).switchOn [d.val]).pilotRun := by
  have unfolded : exec (.domainResetHoldEnd d) s = execDomainResetHoldEnd d s := rfl
  simp [unfolded, execDomainResetHoldEnd, ht, ha, hk, when]

/-- Settles O49. -/
theorem domainsSwitchDrainAndReset : Obligations.DomainsSwitchDrainAndReset := by
  intro d who l s
  refine ⟨fun ha hq hk => if_pos (by simp [ha, hq, hk]), fun ha hp hd => if_pos (by simp [ha, hp, hd]),
    fun ha hd => ⟨fun ho => if_pos (by simp [ha, hd, ho]), fun ho hk => if_pos (by simp [ha, hd, ho, hk])⟩,
    fun t ht ha hk => exec_domainResetHoldEnd ht ha hk, fun ha hd => ⟨fun may off => ?_, fun may on => ?_, fun locked off => ?_, ?_⟩⟩
  · rw [exec_domainPowerOn ha hd, pwrSet_change (by simp [off]), may]; rfl
  · rw [exec_domainPowerOff ha hd, pwrSet_change (by simp [on]), may]; rfl
  · rw [exec_domainPowerOn ha hd, pwrSet_change (by simp [off]), locked]; rfl
  · exact exec_domainReset ha hd who d

/-! ## The start check, the PLLs and the hold-up check -/

theorem refAccepted_eq (n : Nat) : refAccepted n = decide (49 ≤ n ∧ n ≤ 51) := by
  rw [Bool.eq_iff_iff, refAccepted, Bool.and_eq_true, decide_eq_true_eq, decide_eq_true_eq, decide_eq_true_eq]
  omega

theorem exec_pllLockTimeout {s : State} {p : Fin 4} {t : Nat} (ht : Tab.find s.hm.pllStart p = some t) (hk : t + 20000 ≤ s.clk.now) :
    exec (.pllLockTimeout p) s = .next (if s.hm.pllTried.contains p.val then (s.pllFail p).pllSettled
      else { s with hm := { s.hm with pllTried := p.val :: s.hm.pllTried, pllStart := Tab.put s.hm.pllStart p s.clk.now } }) := by
  have unfolded : exec (.pllLockTimeout p) s = execPllLockTimeout p s := rfl
  simp only [unfolded, execPllLockTimeout, ht, Nat.not_lt.mpr hk, if_false]
  split <;> rfl

theorem exec_scInjectionWindow {s : State} {c : Check} {f : ScFail} (hc : s.hm.check = some c) (hd : s.dev = .startCheck)
    (hr : s.scRuns c f = true) : exec (.scInjectionWindow f) s =
      .next (if s.phaseWaits c (scPhase f.item) then s.setFld 0 F.HM_SC_STAT_PHASE 0 11 else s.scWindow f) := by
  have unfolded : exec (.scInjectionWindow f) s = execScInjectionWindow f s := rfl
  have due : ¬ (s.dev ≠ .startCheck ∨ s.scRuns c f = false) := by simp [hd, hr]
  simp only [unfolded, execScInjectionWindow, hc, due, if_false]
  split <;> rfl

/-- Settles O50. -/
theorem startCheckAndHoldUp : Obligations.StartCheckAndHoldUp := by
  intro p n f who slot v u bytes code s
  refine ⟨fun hd hc hw => ?_, fun t ht hd hk => ?_, fun t ht => ⟨fun hk => ?_, fun hk tried => ?_, fun hk fresh => ?_⟩,
    fun c hc hd => ⟨fun hr hw => ?_, fun hr hw => ?_, fun up trained => ?_⟩, fun ha hs => if_pos (by rw [ha, hs]; rfl),
    fun lo len own hs ha hg hdef hb whole => ?_, fun g hg ha hgr whole => ?_⟩
  · refine if_pos ?_
    cases wake : s.hm.wakeCheck
    · simp [hd, hc]
    · obtain ⟨hx, hp, up⟩ := hw wake
      simp [hd, hc, hx, hp, up]
  · have unfolded : exec (.referenceCheck n) s = execReferenceCheck n s := rfl
    simp [unfolded, execReferenceCheck, ht, hd, hk, refAccepted_eq, when]
  · have unfolded : exec (.pllLock p) s = execPllLock p s := rfl
    simp [unfolded, execPllLock, ht, hk, when]
  · rw [exec_pllLockTimeout ht hk, if_pos tried]
  · refine ⟨_, exec_pllLockTimeout ht hk, ?_⟩
    rw [if_neg (Bool.eq_false_iff.mp fresh)]
    exact ⟨rfl, Tab.find_put_same _ _ _, rfl⟩
  · rw [exec_scInjectionWindow hc hd hr, if_neg (by simp [hw])]
  · rw [exec_scInjectionWindow hc hd hr, if_pos hw]
  · have unfolded : exec .startCheckDone s = execStartCheckDone s := rfl
    simp [unfolded, execStartCheckDone, hc, hd, up, trained]
  · have unfolded : exec (.segmentRequest u bytes code) s = execSegmentRequest u bytes code s := rfl
    have notDeferred : (s.hm.deferred.any fun g => g.user == u) = false := by simpa using hdef
    simp [unfolded, execSegmentRequest, hs, ha, hg, notDeferred, hb, whole, when]
  · have unfolded : exec (.holdupRetry code) s = execHoldupRetry code s := rfl
    simp [unfolded, execHoldupRetry, hg, ha, hgr, whole, when]

/-! ## Tide time (R266 to R274, R710) -/

theorem exec_sync {s : State} {q : Fin 4} (ha : s.awake = true) (hq : s.qstate q = 7) (kind : BitVec 2) (t : BitVec 40) (m : BitVec 6) :
    (kind ≠ 3 → s.clk.running = true →
      exec (.sync q kind t m true) s = .next ((s.syncHeard q m.toNat).syncBlock q kind.toNat t.toNat)) ∧
    exec (.sync q kind t m false) s = .next (s.ctlErr q) := by
  have unfolded (ok : Bool) : exec (.sync q kind t m ok) s = execSync q kind t m ok s := rfl
  have taken : (!s.awake || s.qstate q != 7) = false := by simp [ha, hq]
  refine ⟨fun hk hr => ?_, ?_⟩
  · have known : (kind == 3) = false := beq_false_of_ne hk
    simp only [unfolded, execSync, taken, known, hr, Bool.false_eq_true, Bool.not_true, Bool.or_self, if_false]
  · simp only [unfolded, execSync, taken, Bool.false_eq_true, Bool.not_false, Bool.true_or, if_true, if_false]

theorem exec_masterClaim {s : State} {m : BitVec 6} (ha : s.awake = true) (hr : s.clk.running = true) (hi : s.inside64 m.toNat = true)
    (hm : m.toNat ≠ s.chip) (lost : s.clk.lostAt.isSome = true) (noClaim : s.clk.claimK = none) (notMaster : s.tideMaster = false) :
    exec (.masterClaim m) s = .next (s.acceptClaim m.toNat (s.claimDist s.clk.lost m.toNat)) := by
  have unfolded : exec (.masterClaim m) s = execMasterClaim m s := rfl
  have known : (s.clk.lostAt.isSome || s.clk.claimK.isSome) = true := by rw [lost]; rfl
  simp only [unfolded, execMasterClaim, known, if_true]
  exact if_pos (by simp [ha, hr, hi, hm, noClaim, notMaster])

/-- Settles O51. -/
theorem tideAndTicks : Obligations.TideAndTicks := by
  intro q kind t m who v raw s
  refine ⟨fun ha hr notMaster hq hk => if_pos (by simp [ha, hr, notMaster, hq, hk]), fun ha hq => exec_sync ha hq kind t m,
    fun l hl ha hr notMaster hlost hk other => ?_, fun l hl ha hr notMaster hk => ?_,
    fun ha hr hi hm lost noClaim notMaster => exec_masterClaim ha hr hi hm lost noClaim notMaster,
    fun ha hr master hen firstPulse => if_pos (by simp [ha, hr, master, hen, firstPulse]), fun ha => if_pos ha,
    fun ha => ⟨if_pos ha, fun hx off => ⟨fun hk => if_pos (by simp [ha, hx, off, hk]), fun hk => if_pos (by simp [ha, hx, off, hk])⟩⟩⟩
  · have unfolded : exec .tideParentTimeout s = execTideParentTimeout s := rfl
    refine ⟨{ s with clk := { s.clk with lostAt := some s.clk.now, lost := s.fld 2 F.TIDE_STAT_MASTER 0, claimK := none } }, ?_, rfl, rfl, rfl⟩
    simp [unfolded, execTideParentTimeout, hl, ha, hr, notMaster, hlost, hk, other, when]
  · have unfolded : exec .masterElectionTimeout s = execMasterElectionTimeout s := rfl
    refine ⟨_, by simp only [unfolded, execMasterElectionTimeout, hl, ha, hr, notMaster, hk, when]; rfl,
      State.nbit_faults_recordAs _ 6 (by decide) (by decide), ?_, ?_⟩
    · exact (congrArg Clock.lostAt (State.record_recorded _ 2 1).clk).trans rfl
    · exact (congrArg Clock.claimK (State.record_recorded _ 2 1).clk).trans rfl

end Sys2Proof.Machine
end

section
/-! SUPPORT. The person at the device: O52. -/

namespace Sys2Proof.Machine

/-! ## A fault recorded with an entry behind it -/

theorem State.logEntry_keepsFaults (s : State) (slot group code detail : Nat) : s.KeepsFaults (s.logEntry slot group code detail) :=
  (State.append_keepsFaults s slot group code detail).trans (State.settle_keepsFaults _ 6)

/-- A fault recorded and then an entry of the person's events: the bit is set, and the rest is as recording leaves it. -/
theorem State.record_entry (s : State) {slot g : Nat} (hs : nbit (sourceMask slot) g = true) (code detail : Nat) :
    let t := (s.record slot g).logEntry 0 0xFF code detail
    s.Recorded t ∧ nbit (t.faults slot) g = true :=
  ⟨(State.record_recorded s slot g).trans (State.logEntry_recorded _ _ _ _ _),
    State.logEntry_keepsFaults _ _ _ _ _ slot g (State.nbit_faults_recordAs s 6 hs (lt_32_of_source hs))⟩

/-- A register that neither recording writes nor holds fault bits of the Logbook stays. -/
theorem State.recordStep_keepsReg {slot : Nat} {r : Reg} {i : Nat} (h : ∀ c ∈ recordRegs, regKey slot r i ≠ regKey c.1 c.2 0)
    (hf : regKey slot r i ≠ regKey 3 .BLK_FAULT 0) : RecordStep fun s t => t.reg slot r i = s.reg slot r i where
  refl _ := rfl
  trans a b := b.trans a
  push s _ _ _ _ := by unfold State.push; split <;> rfl
  logDrop s _ := State.reg_setReg_other s 3 slot .BLK_FAULT r 0 i _ hf
  notify s old slots := by rw [State.notify_notified s old slots]; rfl
  dev _ _ := rfl
  reg s c v hc := State.reg_setReg_other s c.1 slot c.2 r 0 i v (h c hc)
  markOut _ _ := rfl
  hm _ _ := rfl

theorem State.input_of_recorded {s t : State} (h : s.Recorded t) (i : Nat) : t.input i = s.input i :=
  congrArg (fun p : Person => Tab.get ({} : Input) p.inputs i) h.person

theorem State.input_setInput_same (s : State) (i : Nat) (x : Input) : (s.setInput i x).input i = x := Tab.get_set_same _ _ _ _

/-! ## Debug access ends with the presence window (R603, R604, R609) -/

/-- `t` has the same person as `s`, and debug access is closed when it was closed in `s`. -/
def State.KeepsDebugShut (s t : State) : Prop :=
  t.person = s.person ∧ (s.fld 0x10 F.HOST_DBG_EN 0 = 0 → t.fld 0x10 F.HOST_DBG_EN 0 = 0)

theorem State.KeepsDebugShut.trans {s t u : State} (h : s.KeepsDebugShut t) (k : t.KeepsDebugShut u) : s.KeepsDebugShut u :=
  ⟨k.1.trans h.1, fun shut => k.2 (h.2 shut)⟩

theorem State.keepsDebugShut_of_regs {s t : State} (hp : t.person = s.person) (hr : t.regs = s.regs) : s.KeepsDebugShut t :=
  ⟨hp, fun shut => (State.fld_congr hr _ _ _).trans shut⟩

theorem State.KeepsDebugShut.refl (s : State) : s.KeepsDebugShut s := State.keepsDebugShut_of_regs rfl rfl

theorem State.keepsDebugShut_foldl {α : Type} (f : State → α → State) (hf : ∀ t x, State.KeepsDebugShut t (f t x)) (l : List α)
    (s : State) : s.KeepsDebugShut (l.foldl f s) :=
  List.foldlRecOn (motive := fun t => s.KeepsDebugShut t) l f (State.KeepsDebugShut.refl s) fun t ht x _ => ht.trans (hf t x)

/-- A register outside the host block's HOST_DBG is written. -/
theorem State.setReg_keepsDebugShut (s : State) (slot : Nat) (r : Reg) (i : Nat) (v : U64)
    (h : regKey 0x10 .HOST_DBG 0 ≠ regKey slot r i) : s.KeepsDebugShut (s.setReg slot r i v) :=
  ⟨rfl, fun shut => (State.fld_setReg_other s slot 0x10 r F.HOST_DBG_EN i 0 v h).trans shut⟩

/-- A header register of any slot is written. -/
theorem State.setHeader_keepsDebugShut (s : State) (slot : Nat) (r : Reg) (v : U64) (h : r.info.off + 0 * r.info.stride < 0xA8) :
    s.KeepsDebugShut (s.setReg slot r 0 v) := by
  refine State.setReg_keepsDebugShut s slot r 0 v ?_
  show 0x10 * 0x10000 + 0xA8 + 0 * 8 ≠ slot * 0x10000 + r.info.off + 0 * r.info.stride
  omega

theorem Tab.find_drop {α : Type} (t : Tab α) (p : Nat → Bool) (k : Nat) :
    Tab.find (Tab.drop t p) k = if p k then none else Tab.find t k := by
  induction t with
  | nil => simp [Tab.drop, Tab.find]
  | cons c t ih =>
    obtain ⟨j, v⟩ := c
    by_cases e : j = k
    · subst e
      cases dropped : p j
      · simp [Tab.drop, Tab.find, dropped]
      · simpa [Tab.drop, Tab.find, dropped] using ih
    · cases dropped : p j <;> simpa [Tab.drop, Tab.find, dropped, e] using ih

theorem State.keepsDebugShut_of_dropped {s t : State} (hp : t.person = s.person) (keep : Nat → Bool)
    (hr : t.regs = Tab.drop s.regs keep) : s.KeepsDebugShut t := by
  refine ⟨hp, fun shut => ?_⟩
  have held : t.reg 0x10 .HOST_DBG 0 = s.reg 0x10 .HOST_DBG 0 ∨ t.reg 0x10 .HOST_DBG 0 = resetVal 0x10 .HOST_DBG := by
    unfold State.reg Tab.get
    rw [hr, Tab.find_drop]
    split
    exacts [Or.inr rfl, Or.inl rfl]
  obtain same | fresh := held
  · exact (congrArg F.HOST_DBG_EN.get same).trans shut
  · exact (congrArg F.HOST_DBG_EN.get fresh).trans (by decide)

/-! ## A warm reset keeps debug access closed -/

theorem State.setFlag_keepsDebugShut (s : State) (slot : Nat) (f : Fld) (x : Nat) (h : f.reg.info.off + 0 * f.reg.info.stride < 0xA8) :
    s.KeepsDebugShut (s.setFld slot f 0 x) := State.setHeader_keepsDebugShut s slot f.reg _ h

theorem State.recordStep_keepsHostDbg : RecordStep fun s t => t.reg 0x10 .HOST_DBG 0 = s.reg 0x10 .HOST_DBG 0 :=
  State.recordStep_keepsReg (by decide) (by decide)

theorem State.setDev_keepsDebugShut (s : State) (d : DevState) (cause : Nat) : s.KeepsDebugShut (s.setDev d cause) :=
  ⟨(State.setDev_recorded s d cause).person, fun shut =>
    (congrArg F.HOST_DBG_EN.get (State.recordStep_keepsHostDbg.setDev s d cause)).trans shut⟩

theorem State.clearRegs_keepsDebugShut (s : State) (lo : Nat) (slots keep : Nat → Bool) : s.KeepsDebugShut (s.clearRegs lo slots keep) := by
  unfold State.clearRegs
  extract_lets caps s1
  have dropped : s.KeepsDebugShut s1 := State.keepsDebugShut_of_dropped rfl
    (fun k => slots (k / 0x10000) && decide (lo ≤ k % 0x10000) && !keep k) rfl
  refine dropped.trans (State.keepsDebugShut_foldl _ (fun t c => ?_) caps s1)
  exact (State.setFlag_keepsDebugShut t c.1 F.MC_CFG_CAP _ (by decide)).trans
    (State.setFlag_keepsDebugShut _ c.1 F.MC_CFG_USABLE_TOP _ (by decide))

theorem State.strapReact_keepsDebugShut (s : State) (slots : List Nat) : s.KeepsDebugShut (s.strapReact slots) := by
  unfold State.strapReact
  split
  · exact State.keepsDebugShut_foldl _ (fun t sl => State.setHeader_keepsDebugShut t sl .BLK_REACT _ (by decide)) _ _
  · exact State.KeepsDebugShut.refl s

theorem State.clearReg_keepsDebugShut (s : State) (slot : Nat) (r : Reg) (h : r.info.off + 0 * r.info.stride < 0xA8) :
    s.KeepsDebugShut (s.clearReg slot r 0) := by
  refine ⟨rfl, fun shut => ?_⟩
  have apart : regKey 0x10 .HOST_DBG 0 ≠ regKey slot r 0 := by
    show 0x10 * 0x10000 + 0xA8 + 0 * 8 ≠ slot * 0x10000 + r.info.off + 0 * r.info.stride
    omega
  have same : (s.clearReg slot r 0).reg 0x10 .HOST_DBG 0 = s.reg 0x10 .HOST_DBG 0 := Tab.get_del_other _ s.regs _ _ apart
  exact (congrArg F.HOST_DBG_EN.get same).trans shut

theorem State.reactReset_keepsDebugShut (s : State) : s.KeepsDebugShut s.reactReset := by
  unfold State.reactReset
  split
  · exact State.KeepsDebugShut.refl s
  · refine State.KeepsDebugShut.trans (State.keepsDebugShut_foldl _ (fun t sl => ?_) _ _) (State.strapReact_keepsDebugShut _ _)
    exact (State.clearReg_keepsDebugShut t sl .BLK_REACT (by decide)).trans (State.clearReg_keepsDebugShut _ sl .BLK_GRACE (by decide))

theorem State.flashPut_keepsDebugShut (s : State) (cs off : Nat) (bytes : List Byte) : s.KeepsDebugShut (s.flashPut cs off bytes) := by
  induction bytes generalizing s off with
  | nil => exact State.KeepsDebugShut.refl s
  | cons b bytes ih => exact (State.keepsDebugShut_of_regs rfl rfl).trans (ih _ _)

theorem State.flashCut_keepsDebugShut (s : State) (cs off n : Nat) : s.KeepsDebugShut (s.flashCut cs off n) :=
  State.KeepsDebugShut.trans (t := { s with fresh := s.fresh + 1 }) (State.keepsDebugShut_of_regs rfl rfl)
    (State.flashPut_keepsDebugShut _ _ _ _)

theorem State.wipe_keepsDebugShut (s : State) (lo hi : Nat) : s.KeepsDebugShut (s.wipe lo hi) := State.keepsDebugShut_of_regs rfl rfl

theorem State.unitsClear_keepsDebugShut (s : State) :
    s.KeepsDebugShut ((((s.wharfClear.dredgerClear).lighterClear).intakeClear).fieldClear) := by
  have wharf : s.KeepsDebugShut s.wharfClear :=
    (State.wipe_keepsDebugShut s pageTables (pageTables + 0x200000)).trans (State.keepsDebugShut_of_regs rfl rfl)
  have drg (t : State) : t.KeepsDebugShut t.dredgerClear :=
    (State.wipe_keepsDebugShut t couplingStore (couplingStore + 0x400000)).trans (State.keepsDebugShut_of_regs rfl rfl)
  have rest (t : State) : t.KeepsDebugShut ((t.lighterClear.intakeClear).fieldClear) := State.keepsDebugShut_of_regs rfl rfl
  exact wharf.trans ((drg _).trans (rest _))

theorem State.warmBlocks_keepsDebugShut (s : State) : s.KeepsDebugShut s.warmBlocks := by
  have cut (t : State) (h : Hm) (cs off n : Nat) : t.KeepsDebugShut { t.flashCut cs off n with hm := h } :=
    (State.flashCut_keepsDebugShut t cs off n).trans (State.keepsDebugShut_of_regs rfl rfl)
  unfold State.warmBlocks
  extract_lets s1 hm1 s2
  have cleared : s.KeepsDebugShut s1 := State.unitsClear_keepsDebugShut s
  have flashed : s1.KeepsDebugShut s2 := by
    simp only [s2]
    split
    · split
      exacts [State.KeepsDebugShut.refl s1, cut s1 _ _ _ _]
    · exact State.KeepsDebugShut.refl s1
  exact (cleared.trans flashed).trans (State.keepsDebugShut_of_regs rfl rfl)

theorem State.setDoms_keepsDebugShut (s : State) (f : State → Nat → Dom) (ds : List Nat) :
    s.KeepsDebugShut (ds.foldl (fun t d => t.setDom d (f t d)) s) :=
  State.keepsDebugShut_foldl (fun t d => t.setDom d (f t d)) (fun _ _ => State.keepsDebugShut_of_regs rfl rfl) ds s

theorem State.switchOn_keepsDebugShut (s : State) (ds : List Nat) : s.KeepsDebugShut (s.switchOn ds) := by
  have queued (h : Hm) : s.KeepsDebugShut { s with hm := h } := State.keepsDebugShut_of_regs rfl rfl
  unfold State.switchOn
  dsimp only
  split
  · exact (queued _).trans ((State.setDoms_keepsDebugShut _ (fun t d => { t.dom d with power := .ramping, rampAt := s.clk.now }) _).trans
      (State.keepsDebugShut_of_regs rfl rfl))
  · exact queued _

theorem State.carrySafe_keepsDebugShut (s : State) : s.KeepsDebugShut s.carrySafe := by
  unfold State.carrySafe
  dsimp only
  split
  exacts [State.keepsDebugShut_of_regs rfl rfl, State.KeepsDebugShut.refl s]

theorem State.warmReset_keepsDebugShut (s : State) (cause : Nat) : s.KeepsDebugShut (s.warmReset cause) := by
  unfold State.warmReset
  split
  · extract_lets s0 s1 s2 s3 s4 s5 hm6 s6
    have h0 : s.KeepsDebugShut s0 := (State.carrySafe_keepsDebugShut s).trans (State.reactReset_keepsDebugShut _)
    have h1 : s0.KeepsDebugShut s1 := State.warmBlocks_keepsDebugShut s0
    have h2 : s1.KeepsDebugShut s2 := State.clearRegs_keepsDebugShut s1 0 _ warmKeep
    have h3 : s2.KeepsDebugShut s3 := State.keepsDebugShut_of_regs rfl rfl
    have h4 : s3.KeepsDebugShut s4 := State.strapReact_keepsDebugShut s3 _
    have h5 : s4.KeepsDebugShut s5 := State.setDoms_keepsDebugShut s4 _ _
    have h6 : s5.KeepsDebugShut s6 := State.keepsDebugShut_of_regs rfl rfl
    have pending : s6.KeepsDebugShut (s6.setFld 0 F.HM_SAFE_STAT_PENDING 0 0) :=
      State.setReg_keepsDebugShut s6 0 F.HM_SAFE_STAT_PENDING.reg 0 _ (by decide)
    exact ((h0.trans h1).trans (h2.trans h3)).trans ((h4.trans (h5.trans h6)).trans (pending.trans
      ((State.setDev_keepsDebugShut _ .startCheck cause).trans (State.switchOn_keepsDebugShut _ _))))
  · exact State.KeepsDebugShut.refl s

/-- The window is closed: no end of it remains, and debug access outside factory mode is off. -/
theorem State.closeWindow_closed (s : State) (cause : Nat) : (s.closeWindow cause).person.winEnd = none ∧
    (s.pins.factory = false → (s.closeWindow cause).fld 0x10 F.HOST_DBG_EN 0 = 0) := by
  have noEnd : ((({ s with person := { s.person with winEnd := none } } : State).logEntry 0 0xFF 0x0059 cause)).person.winEnd = none :=
    congrArg Person.winEnd (State.logEntry_recorded _ _ _ _ _).person
  have shut (t : State) : (t.setFld 0x10 F.HOST_DBG_EN 0 0).fld 0x10 F.HOST_DBG_EN 0 = 0 :=
    State.fld_setFld_same t 0x10 F.HOST_DBG_EN 0 0 (by decide) (by decide)
  unfold State.closeWindow
  dsimp only
  cases factory : s.pins.factory
  · split
    · obtain ⟨person, kept⟩ := State.warmReset_keepsDebugShut ((({ s with person := { s.person with winEnd := none } } : State).logEntry
        0 0xFF 0x0059 cause).setFld 0x10 F.HOST_DBG_EN 0 0) 12
      exact ⟨(congrArg Person.winEnd person).trans noEnd, fun _ => kept (shut _)⟩
    · exact ⟨noEnd, fun _ => shut _⟩
  · refine ⟨?_, fun h => Bool.noConfusion h⟩
    split
    · exact (congrArg Person.winEnd (State.warmReset_keepsDebugShut _ 12).1).trans noEnd
    · exact noEnd

/-! ## The commands of the chapter, of a device that is not Off -/

section
variable {s : State} (live : s.alive = true)
include live

theorem exec_chatter {i : Fin 5} {t : Nat} (run : (s.input i).run = some t) (quiet : (s.input i).chatter = false)
    (moves : (s.input i).still < 66) (long : t + 32768 ≤ s.clk.ticks) : exec (.chatter i) s =
      .next (((s.setInput i { s.input i with chatter := true }).record 0 13).logEntry 0 0xFF 0x0061 i) := by
  have unfolded : exec (.chatter i) s = execChatter i s := rfl
  simp [unfolded, execChatter, run, live, quiet, moves, long, when]

theorem exec_wakeStuck {w : Fin 4} (active : (s.input w).filt = true) (free : (s.input w).stuck = false) (limited : s.stuckLimit w ≠ 0)
    (long : (s.input w).since + s.stuckLimit w < s.clk.ticks) : exec (.wakeStuck w) s =
      .next (((s.setInput w { s.input w with stuck := true }).record 0 12).logEntry 0 0xFF 0x0060 w) := by
  have unfolded : exec (.wakeStuck w) s = execWakeStuck w s := rfl
  simp [unfolded, execWakeStuck, live, active, free, limited, long, when]

theorem exec_presenceWindowExpiry {t : Nat} (ends : s.person.winEnd = some t) (past : t ≤ s.clk.ticks) :
    exec .presenceWindowExpiry s =
      .next (({ s with person := { s.person with expired := some s.clk.ticks } } : State).closeWindow 1) := by
  have unfolded : exec .presenceWindowExpiry s = execPresenceWindowExpiry s := rfl
  simp [unfolded, execPresenceWindowExpiry, ends, live, past, when]

theorem exec_estopLow {ch : Fin 2} {lowNs : Nat} (high : (if ch = 0 then s.person.aLow else s.person.bLow) = false) (long : 50 ≤ lowNs) :
    exec (.estopLow ch lowNs) s = .next (s.estopFall ch) := by
  have unfolded : exec (.estopLow ch lowNs) s = execEstopLow ch lowNs s := rfl
  have notZero : (lowNs == 0) = false := beq_false_of_ne (by omega)
  simp [unfolded, execEstopLow, live, high, notZero, long]

theorem exec_estopStable {t : Nat} (stable : s.person.stableAt = some t) (long : t + 1639 ≤ s.clk.ticks) (noLine : s.estopLine = false) :
    let u := ({ s with person := { s.person with stableAt := none, stableLog := false } } : State).setFld 0 F.ESTOP_STAT_STABLE 0 1
    exec .estopStable s = .next (if s.person.stableLog then u.logEntry 0 0xFF 0x0051 s.person.stableTide.toNat else u) := by
  have unfolded : exec .estopStable s = execEstopStable s := rfl
  simp [unfolded, execEstopStable, stable, live, long, noLine]

end

theorem State.recordStep_keepsEstopStat : RecordStep fun s t => t.reg 0 .ESTOP_STAT 0 = s.reg 0 .ESTOP_STAT 0 :=
  State.recordStep_keepsReg (by decide) (by decide)

/-- Settles O52. -/
theorem personAtTheDevice : Obligations.PersonAtTheDevice := by
  intro i w ch p lvl lowNs raw s live
  refine ⟨fun long quiet => if_pos (by simp [live, long, quiet]), fun t run quiet moves long => ?_,
    fun t run still => if_pos (by simp [live, run, still]), fun active free limited long => ?_, fun active taken valid long => ?_,
    fun ignored high => if_pos (by simp [live, ignored, high]), fun t ends past => ?_,
    fun half fresh => if_pos (by simp [live, half, fresh]), fun high long => exec_estopLow live high long,
    fun low => if_pos (by rw [live, low]; rfl), fun long clear => ?_, fun t stable long noLine => ?_, if_pos live,
    fun touched long => if_pos (by simp [live, touched, long])⟩
  · obtain ⟨recorded, bit⟩ := State.record_entry (s.setInput i { s.input i with chatter := true }) (slot := 0) (g := 13) (by decide) 0x0061 i
    refine ⟨_, exec_chatter live run quiet moves long, ?_, bit⟩
    rw [State.input_of_recorded recorded, State.input_setInput_same]
  · obtain ⟨recorded, bit⟩ := State.record_entry (s.setInput w { s.input w with stuck := true }) (slot := 0) (g := 12) (by decide) 0x0060 w
    refine ⟨_, exec_wakeStuck live active free limited long, ?_, bit⟩
    rw [State.input_of_recorded recorded, State.input_setInput_same]
  · obtain ⟨recorded, bit⟩ := State.record_entry { s.setInput 4 { s.input 4 with stuck := true } with
      person := { (s.setInput 4 { s.input 4 with stuck := true }).person with pressVoid := true } } (slot := 0) (g := 12) (by decide) 0x0060 4
    refine ⟨_, if_pos (by simp [live, active, taken, valid, long]), ?_, ?_, bit⟩
    · rw [State.input_of_recorded recorded]
      exact congrArg Input.stuck (State.input_setInput_same s 4 _)
    · exact (congrArg Person.pressVoid recorded.person).trans rfl
  · exact ⟨_, exec_presenceWindowExpiry live ends past, State.closeWindow_closed _ 1⟩
  · obtain ⟨recorded, bit⟩ := State.record_entry (s.setFld 0 F.ESTOP_STAT_DISC 0 1) (slot := 0) (g := 11) (by decide) 0x0052 (b2n s.person.aLow)
    exact ⟨_, if_pos (by simp [live, long, clear]), bit, recorded.mem⟩
  · refine ⟨_, exec_estopStable live stable long noLine, ?_, ?_⟩
    · have stored (t : State) : (t.setFld 0 F.ESTOP_STAT_STABLE 0 1).fld 0 F.ESTOP_STAT_STABLE 0 = 1 :=
        State.fld_setFld_same t 0 F.ESTOP_STAT_STABLE 0 1 (by decide) (by decide)
      split
      · exact (congrArg F.ESTOP_STAT_STABLE.get (State.recordStep_keepsEstopStat.logEntry _ _ _ _ _)).trans (stored _)
      · exact stored _
    · split
      · exact congrArg Person.stableAt (State.logEntry_recorded _ _ _ _ _).person
      · rfl

end Sys2Proof.Machine
end

section
/-! SUPPORT. The Pilot's commands: O53. -/

namespace Sys2Proof.Machine

/-- The message at the front of the Pilot's queue is taken when it is one of the Pilot's and is wanted. -/
theorem State.pilotTake_front {s t : State} {m : Manifest} (front : s.blockTake 34 = some (m, t)) (hm : pilotMsg m = true)
    {p : Manifest → Bool} (wanted : p m = true) (f : State → State) : s.pilotTake p f = f t := by
  simp [State.pilotTake, front, hm, wanted]

section
variable {s t : State} {m : Manifest} (front : s.blockTake 34 = some (m, t)) (hm : pilotMsg m = true)
include front hm

theorem exec_chartBatch (takes : s.takesBatches = true) {ty x y : BitVec 8} {addr : Addr} {len : Nat} (tag : mTag m = ty.toNat)
    (known : mTag m ≤ 8) (pointer : mPointer m = addr.toNat) (size : mLength m = len) (column : mNum m 6 1 = x.toNat)
    (row : mNum m 7 1 = y.toNat) : exec (.chartBatch ty addr len x y) s = .next (t.applyBatch ty.toNat addr len) := by
  have performed : exec (.chartBatch ty addr len x y) s = _ := if_pos takes
  rw [performed, State.pilotTake_front front hm (by simp [← tag, known, pointer, size, column, row])]

theorem exec_chartStart (takes : s.takesBatches = true) (tag : mTag m = 0xFF) (reacted : t.reactDone = true) :
    exec .chartStart s = .next (t.chartRuns false).spansOpen := by
  have performed : exec .chartStart s = _ := if_pos takes
  rw [performed, State.pilotTake_front front hm (by simp [tag])]
  simp only [reacted, if_true]

theorem exec_batchAnswer (pilot : s.domainPilot = true) (awake : s.awake = true) {c : Fin 64} {st : Status}
    (tag : mTag m = 0x100 + statusCode st) (column : mNum m 6 1 = (s.fld 9 F.MESH_ORIGIN_OX 0 + c.val % 8) % 256)
    (row : mNum m 7 1 = (s.fld 9 F.MESH_ORIGIN_OY 0 + c.val / 8) % 128) :
    exec (.batchAnswer c st) s = .next (t.batchAnswer c st) := by
  have performed : exec (.batchAnswer c st) s = _ := if_pos (by rw [pilot, awake]; rfl)
  rw [performed, State.pilotTake_front front hm (by simp [tag, column, row])]

end

section
variable {s : State} {l : Load} (loading : s.pilot.load = some l)
include loading

theorem exec_reportTimeout (missing : l.fitted = false) (pilot : s.domainPilot = true) (checked : s.dev ≠ .startCheck)
    (late : l.start + 20000000 ≤ s.clk.now) : exec .reportTimeout s = .next (s.discover true) := by
  have unfolded : exec .reportTimeout s = execReportTimeout s := rfl
  simp [unfolded, execReportTimeout, loading, missing, pilot, checked, late, when]

theorem exec_batchTimeout {c : Fin 64} {t : Nat} (waits : Tab.find l.waits c.val = some t) (late : t ≤ s.clk.now) :
    exec (.batchTimeout c) s = .next (s.pilotFail 16) := by
  have unfolded : exec (.batchTimeout c) s = execBatchTimeout c s := rfl
  simp [unfolded, execBatchTimeout, loading, waits, late, when]

theorem exec_berthAvailableTimeout {n : Fin 32} {t : Nat} (powered : Tab.find l.powered n.val = some t)
    (late : t + 1000000 ≤ s.clk.now) (down : s.serves n = false) : exec (.berthAvailableTimeout n) s = .next (s.pilotFail 17) := by
  have unfolded : exec (.berthAvailableTimeout n) s = execBerthAvailableTimeout n s := rfl
  simp [unfolded, execBerthAvailableTimeout, loading, powered, late, down, when]

end

/-- Settles O53. -/
theorem chartCommands : Obligations.ChartCommands := by
  intro ty x y addr len c st n part s
  exact ⟨fun due => if_pos (Bool.or_eq_true_iff.mpr due), fun due => if_pos due,
    fun l loading missing pilot checked late => exec_reportTimeout loading missing pilot checked late,
    fun takes m t front hm =>
      ⟨fun tag known pointer size column row => exec_chartBatch front hm takes tag known pointer size column row,
        fun tag reacted => exec_chartStart front hm takes tag reacted⟩,
    fun pilot awake m t front hm tag column row => exec_batchAnswer front hm pilot awake tag column row,
    fun l t loading waits late => exec_batchTimeout loading waits late,
    fun l t loading powered late down => exec_berthAvailableTimeout loading powered late down,
    fun awake => ⟨if_pos awake, if_pos awake, if_pos awake, if_pos awake⟩⟩

end Sys2Proof.Machine
end

section
/-! SUPPORT. Packets of the camera receivers, the streams' registers and the frame-sync outputs: O54, O55. -/

namespace Sys2Proof.Machine

/-! ## Packet headers (R309, R311) -/

/-- What an uncorrectable header does: it is counted and recorded, and the channel's frames that fill fail. -/
def State.badHeader (s : State) (r vc : Nat) : State :=
  ((s.count 0x0D F.RX_STAT_ECC_UNCORR r 1).record 0x0D 0).failAll (s.onChannel r vc) 1

theorem State.packet_uncorrectable (s : State) (r vc : Nat) (bound : List Nat) (k : State → State) :
    s.packet r vc .uncorrectable bound k = s.badHeader r vc := if_pos rfl

theorem State.packet_bound (s : State) (r vc : Nat) {bound : List Nat} (h : bound ≠ []) (k : State → State) :
    s.packet r vc .ok bound k = k s := (if_neg (by decide)).trans (if_neg h)

theorem State.packet_unbound (s : State) (r vc : Nat) (k : State → State) :
    s.packet r vc .ok [] k = s.count 0x0D F.RX_STAT_UNBOUND r 1 := (if_neg (by decide)).trans (if_pos rfl)

/-- The streams of a channel whose lines have the data type. -/
def State.lineStreams (s : State) (r vc dt : Nat) : List Nat :=
  (s.onChannel r vc).filter fun j => s.fld 0x0D F.STREAM_CFG_DT j == dt

section
variable {r : Fin 8} {s : State} (on : s.receives r = true) (vc : BitVec 4) (no : BitVec 16)
include on

theorem exec_frameStart (ecc : HdrEcc) : exec (.frameStart r vc no ecc) s = .next (s.packet r vc.toNat ecc (s.onChannel r vc.toNat)
    fun t => (s.onChannel r vc.toNat).foldl (fun u i => u.startFrame i u.tide no) t) := if_pos on

theorem exec_frameEnd (ecc : HdrEcc) : exec (.frameEnd r vc no ecc) s = .next (s.packet r vc.toNat ecc (s.onChannel r vc.toNat)
    fun t => (s.onChannel r vc.toNat).foldl (fun u i => u.frameEndOf i no) t) := if_pos on

variable (dt : BitVec 6) (data : List Byte)

theorem exec_linePacket_uncorrectable (ok : Bool) :
    exec (.linePacket r vc dt data .uncorrectable ok) s = .next (s.badHeader r vc.toNat) := by
  have performed : exec (.linePacket r vc dt data .uncorrectable ok) s = _ := if_pos on
  have kept : (ok || HdrEcc.uncorrectable == .uncorrectable) = true := by cases ok <;> rfl
  rw [performed, State.packet_uncorrectable, if_pos kept]

theorem exec_linePacket_good {k : Nat} (bound : s.lineStreams r vc.toNat dt.toNat = [k]) {f : Nat × Frame}
    (fills : s.filling k = some f) : exec (.linePacket r vc dt data .ok true) s = .next (s.csiLine k f.1 f.2 data) := by
  have unfolded : exec (.linePacket r vc dt data .ok true) s = execLinePacket r vc dt data .ok true s := rfl
  have performed : execLinePacket r vc dt data .ok true s = .next (s.packet r vc.toNat .ok (s.lineStreams r vc.toNat dt.toNat)
      fun t => (s.lineStreams r vc.toNat dt.toNat).foldl (fun u i => match u.filling i with
        | some (k, f) => u.csiLine i k f data
        | none => u) t) := if_pos on
  rw [unfolded, performed, bound, State.packet_bound s _ _ (List.cons_ne_nil k [])]
  simp only [List.foldl_cons, List.foldl_nil, fills]

theorem exec_linePacket_badUnbound (unbound : s.lineStreams r vc.toNat dt.toNat = []) : exec (.linePacket r vc dt data .ok false) s =
    .next (((s.count 0x0D F.RX_STAT_CRC_ERR r 1).record 0x0D 0).count 0x0D F.RX_STAT_UNBOUND r 1) := by
  have performed : exec (.linePacket r vc dt data .ok false) s = _ := if_pos on
  have counted : ¬ (false || HdrEcc.ok == HdrEcc.uncorrectable) = true := by decide
  have none : ((s.onChannel r vc.toNat).filter fun j => s.fld 0x0D F.STREAM_CFG_DT j == dt.toNat) = [] := unbound
  rw [performed, if_neg counted, none, State.packet_unbound]

end

/-- Settles O54. -/
theorem sensorPackets : Obligations.SensorPackets := by
  intro r vc no dt data ok i st s
  refine ⟨fun on => ⟨?_, fun bound => ⟨?_, ?_⟩, fun k only f fills => exec_linePacket_good on vc dt data only fills,
    fun unbound => exec_linePacket_badUnbound on vc dt data unbound, ?_⟩, fun k f late serves => ?_, fun w rest front free due => ?_⟩
  · rintro bad rfl
    exact ⟨(exec_frameStart on vc no _).trans (congrArg Host.Outcome.next (State.packet_uncorrectable _ _ _ _ _)),
      (exec_frameEnd on vc no _).trans (congrArg Host.Outcome.next (State.packet_uncorrectable _ _ _ _ _)),
      exec_linePacket_uncorrectable on vc dt data ok⟩
  · rw [exec_frameStart on vc no, State.packet_bound s _ _ bound]
  · rw [exec_frameEnd on vc no, State.packet_bound s _ _ bound]
  · have recorded : s.Recorded (s.record 0x0D 5) := State.record_recorded s 0x0D 5
    exact ⟨_, if_pos on, State.nbit_faults_recordAs s 6 (by decide) (by decide), recorded.mem, recorded.streams⟩
  · have unfolded : exec (.frameTimeout i) s = execFrameTimeout i s := rfl
    simp only [unfolded, execFrameTimeout, late]
    exact if_pos serves
  · have unfolded : exec (.ringWriteComplete i st) s = execRingWriteComplete i st s := rfl
    have may : (w.wait.isNone && (w.st == none || w.st == some st)) = true := by simpa [free] using due
    simp only [unfolded, execRingWriteComplete, front]
    exact if_pos may

/-! ## The streams' registers -/

theorem exec_streamClaim_serving {s : State} (ha : s.awake = true) (hs : s.serves 41 = true) (who : Requester) (i : Fin 16) :
    exec (.streamClaim who i) s = .next { (s.claim who i).2 with
      resps := (s.claim who i).2.resps ++ [⟨who, 0, 0, .ok, leBytes 8 (s.claim who i).1.toNat⟩] } :=
  (if_neg (by simp [ha])).trans (if_pos hs)

theorem exec_streamRel_ok {s : State} (ha : s.awake = true) (hs : s.serves 41 = true) {who : Requester} {i : Fin 16} {slot : BitVec 4}
    (released : (s.releaseFrame who i slot.toNat).1 = .ok) :
    exec (.streamRel who i slot) s = .next (s.releaseFrame who i slot.toNat).2 := by
  have performed : exec (.streamRel who i slot) s = _ := if_neg (by simp [ha])
  have serving : s.serves intakeDomain = true := hs
  rw [performed, if_pos serving, released]
  exact congrArg Host.Outcome.next (if_pos rfl)

/-- Settles O55. -/
theorem streamRegistersAndPulses : Obligations.StreamRegistersAndPulses := by
  intro who i slot k s
  refine ⟨fun ha => ⟨fun hs => ⟨_, exec_streamClaim_serving ha hs who i, rfl⟩, fun down => ?_,
    fun hs released => exec_streamRel_ok ha hs released⟩, fun hs => ⟨if_pos hs, if_pos hs, if_pos hs⟩,
    fun hs enabled ok due => ⟨_, if_pos ?_, Tab.get_set_same _ _ _ _, Tab.find_put_same _ _ _, rfl⟩, fun e ends past => ?_⟩
  · have notServing : s.serves intakeDomain = false := down
    exact (if_neg (by simp [ha])).trans (if_neg (by simp [notServing]))
  · have serving : s.serves intakeDomain = true := hs
    simp [serving, enabled, ok, due]
  · have unfolded : exec (.fsyncPulseEnd k) s = execFsyncPulseEnd k s := rfl
    refine ⟨{ s with fsyncEnd := Tab.del s.fsyncEnd k }, ?_, Tab.find_del_same _ _, rfl⟩
    simp [unfolded, execFsyncPulseEnd, ends, past, when]

end Sys2Proof.Machine
end

section
/-! SUPPORT. The field interfaces: O60. -/

namespace Sys2Proof.Machine

theorem State.mayEnd_of_io {s : State} (io : s.io = true) (k : Nat) : s.mayEnd k = true := by
  unfold State.mayEnd
  rw [io, Bool.true_or]

/-! ## CAN (R640 to R645) -/

theorem exec_canReceive_good {s : State} {c : Fin 4} (on : s.canOn c = true) {f : CanFrame} (classic : f.fdf = false) (t0 : U64) :
    exec (.canReceive c f true t0) s = .next ((s.canTake c f t0).canRxOk c) :=
  (if_neg (by simp [on])).trans (if_pos (by simp [classic]))

theorem exec_canReceive_bad {s : State} {c : Fin 4} (on : s.canOn c = true) (f : CanFrame) (t0 : U64) :
    exec (.canReceive c f false t0) s = .next ((s.canSpoiled c f).canRxErr c) :=
  (if_neg (by simp [on])).trans (if_neg (by simp))

theorem exec_canTransmit {s : State} {c : Fin 4} {x : Nat} (offers : s.canOffer c = some x) (may : s.mayEnd c = true)
    (sends : s.canSends c = true) (res : CanTxResult) :
    exec (.canTransmit c res) s = .next ((s.tailDone c).canSent c x res) := by
  have unfolded : exec (.canTransmit c res) s = execCanTransmit c res s := rfl
  simp only [unfolded, execCanTransmit, offers]
  exact if_pos (by rw [may, sends]; rfl)

/-! ## A lost Ethernet link (R648) -/

theorem State.recordStep_keepsEthStat (m : Fin 2) : RecordStep fun s t => t.reg 0x11 .ETH_STAT m = s.reg 0x11 .ETH_STAT m := by
  have apart : ∀ m : Fin 2, (∀ c ∈ recordRegs, regKey 0x11 .ETH_STAT m ≠ regKey c.1 c.2 0) ∧
      regKey 0x11 .ETH_STAT m ≠ regKey 3 .BLK_FAULT 0 := by decide
  exact State.recordStep_keepsReg (apart m).1 (apart m).2

theorem State.ethLinkDown_stat (s : State) (m : Fin 2) :
    ((s.setFld 0x11 F.ETH_STAT_LINK_UP m 0).record 0x11 3).fld 0x11 F.ETH_STAT_LINK_UP m = 0 := by
  have apart : ∀ m : Fin 2, regKey 0x11 .ETH_STAT m ≠ regKey 0x11 .BLK_FAULT 0 := by decide
  have kept := (State.recordStep_keepsEthStat m).recordAs (s.setFld 0x11 F.ETH_STAT_LINK_UP m 0) 0x11 3 6
    fun _ _ => State.reg_setReg_other _ 0x11 0x11 .BLK_FAULT .ETH_STAT 0 m _ (apart m)
  exact (congrArg F.ETH_STAT_LINK_UP.get kept).trans (State.fld_setFld_same s 0x11 F.ETH_STAT_LINK_UP m 0 (by decide) (by decide))

/-! ## xSPI operations (R651, R652) -/

section
variable {s : State}

theorem exec_xspiOpDone_command {o : XOp} {rest : List XOp} (front : s.field.xspi = o :: rest) (ready : s.xspiReady o = true)
    (stuck : Bool) : exec (.xspiOpDone stuck) s = .next (s.xspiDone o stuck) := by
  have unfolded : exec (.xspiOpDone stuck) s = execXspiOpDone stuck s := rfl
  unfold execXspiOpDone at unfolded
  cases granted : s.hm.granted with
  | none =>
    simp only [granted, front] at unfolded
    exact unfolded.trans (if_pos ready)
  | some g =>
    have ours : g.user = .xspiCmd := by
      unfold State.xspiReady at ready
      simp only [granted, Bool.and_eq_true, beq_iff_eq] at ready
      exact ready.2
    have notSegment : ¬ (g.user = .pilot ∨ g.user = .wharfinger) := by simp [ours]
    simp only [granted, front, if_neg notSegment] at unfolded
    exact unfolded.trans (if_pos ready)

theorem exec_xspiOpDone_segment {g : Segment} (granted : s.hm.granted = some g) (owner : g.user = .pilot ∨ g.user = .wharfinger)
    (stuck : Bool) : exec (.xspiOpDone stuck) s = .next (s.segDone g stuck) := by
  have unfolded : exec (.xspiOpDone stuck) s = execXspiOpDone stuck s := rfl
  unfold execXspiOpDone at unfolded
  simp only [granted] at unfolded
  exact unfolded.trans (if_pos owner)

end

/-- Settles O60. -/
theorem fieldInterfaceCommands : Obligations.FieldInterfaceCommands := by
  intro c k m f t0 v who fr rd a b p1 p2 s io
  refine ⟨fun on => ⟨fun classic => exec_canReceive_good on classic t0, exec_canReceive_bad on f t0⟩,
    fun x res offers may sends => exec_canTransmit offers may sends res,
    fun enabled recovers off => if_pos (by simp [io, enabled, recovers, off]), if_pos io, fun enabled => ⟨if_pos ?_, ?_⟩, if_pos io,
    fun sending runs => if_pos (by simp [runs, sending]), if_pos io, fun op => if_pos (by simp [io, op]),
    fun op => if_pos (by simp [io, op]), fun op => if_pos (by simp [io, op]), fun op => if_pos (by simp [io, op]),
    fun o rest front ready => exec_xspiOpDone_command front ready p1, fun g granted owner => exec_xspiOpDone_segment granted owner p1,
    fun armed due => if_pos (by simp [io, armed, due]), fun runs busy length => if_pos (by simp [runs, busy, length]), if_pos io,
    if_pos io⟩
  · rw [State.mayEnd_of_io io, enabled]
    rfl
  · have recorded := State.record_recorded (s.setFld 0x11 F.ETH_STAT_LINK_UP m 0) 0x11 3
    exact ⟨_, if_pos (by simp [io, enabled]), State.nbit_faults_recordAs _ 6 (by decide) (by decide), State.ethLinkDown_stat s m,
      recorded.mem⟩

end Sys2Proof.Machine
end

section
/-! SUPPORT. The host paths: O59. -/

namespace Sys2Proof.Machine

/-! ## What notifying and recording keep of the host interface -/

theorem State.host_sendVector (s : State) (slot : Nat) : (s.sendVector slot).host = s.host := by
  unfold State.sendVector
  split <;> rfl

theorem State.spi_notify (s old : State) (slots : List Nat) : (s.notify old slots).host.spi = s.host.spi := by
  have fold (t : State) : (slots.foldl (fun t sl => if s.irqPend sl && !old.irqPend sl then t.sendVector sl else t) t).host = t.host := by
    refine List.foldlRecOn (motive := fun (u : State) => u.host = t.host) slots _ rfl fun u hu sl _ => ?_
    split
    exacts [(State.host_sendVector u sl).trans hu, hu]
  have kept := congrArg HostIf.spi (fold s)
  unfold State.notify
  dsimp only
  split <;> exact kept

theorem State.recordStep_keepsSpi : RecordStep fun s t => t.host.spi = s.host.spi where
  refl _ := rfl
  trans h k := k.trans h
  push s _ _ _ _ := by unfold State.push; split <;> rfl
  logDrop _ _ := rfl
  notify s old slots := State.spi_notify s old slots
  dev _ _ := rfl
  reg _ _ _ _ := rfl
  markOut _ _ := rfl
  hm _ _ := rfl

theorem State.recordStep_keepsHostStat : RecordStep fun s t => t.reg 0x10 .HOST_STAT 0 = s.reg 0x10 .HOST_STAT 0 :=
  State.recordStep_keepsReg (by decide) (by decide)

/-- A fault of the host block leaves the fields of HOST_STAT. -/
theorem State.hostStat_record (s : State) (g : Nat) (f : Fld) (hf : f.reg = .HOST_STAT) :
    (s.record 0x10 g).fld 0x10 f 0 = s.fld 0x10 f 0 := by
  have kept := State.recordStep_keepsHostStat.recordAs s 0x10 g 6
    fun _ _ => State.reg_setReg_other _ 0x10 0x10 .BLK_FAULT .HOST_STAT 0 0 _ (by decide)
  unfold State.fld
  rw [hf]
  exact congrArg f.get kept

theorem State.sendPending_notified (s : State) (p : Nat → Bool) : s.Notified (s.sendPending p) := by
  have vectors (slots : List Nat) (t : State) (ht : s.Notified t) : s.Notified (slots.foldl (fun u sl => u.sendVector sl) t) :=
    List.foldlRecOn (motive := fun u => s.Notified u) slots _ ht fun u hu sl _ => hu.trans (State.sendVector_notified u sl)
  unfold State.sendPending
  refine List.foldlRecOn (motive := fun u => s.Notified u) _ _ rfl fun t ht v _ => ?_
  split
  exacts [vectors _ t ht, ht]

/-! ## The PCIe endpoint (R623 to R631) -/

/-- HOST_STAT takes a link state, a generation and a width. -/
def State.setLink (s : State) (up gen width : Nat) : State :=
  ((s.setFld 0x10 F.HOST_STAT_LINK_UP 0 up).setFld 0x10 F.HOST_STAT_GEN 0 gen).setFld 0x10 F.HOST_STAT_WIDTH 0 width

theorem State.setLink_up (s : State) (up gen width : Nat) : (s.setLink up gen width).fld 0x10 F.HOST_STAT_LINK_UP 0 = up % 2 := by
  unfold State.setLink
  rw [State.fld_setFld_apart _ 0x10 F.HOST_STAT_WIDTH F.HOST_STAT_LINK_UP 0 width rfl (by decide) (by decide) (by decide),
    State.fld_setFld_apart _ 0x10 F.HOST_STAT_GEN F.HOST_STAT_LINK_UP 0 gen rfl (by decide) (by decide) (by decide),
    State.fld_setFld_same _ 0x10 F.HOST_STAT_LINK_UP 0 up (by decide) (by decide)]
  rfl

theorem State.setLink_gen (s : State) (up gen width : Nat) : (s.setLink up gen width).fld 0x10 F.HOST_STAT_GEN 0 = gen % 8 := by
  unfold State.setLink
  rw [State.fld_setFld_apart _ 0x10 F.HOST_STAT_WIDTH F.HOST_STAT_GEN 0 width rfl (by decide) (by decide) (by decide),
    State.fld_setFld_same _ 0x10 F.HOST_STAT_GEN 0 gen (by decide) (by decide)]
  rfl

theorem State.setLink_width (s : State) (up gen width : Nat) : (s.setLink up gen width).fld 0x10 F.HOST_STAT_WIDTH 0 = width % 8 :=
  State.fld_setFld_same _ 0x10 F.HOST_STAT_WIDTH 0 width (by decide) (by decide)

/-- The link's fields are all that changes. -/
theorem State.setLink_frame (s : State) (up gen width : Nat) : ∃ r, s.setLink up gen width = { s with regs := r } := by
  have stored (t : State) (f : Fld) (x : Nat) : ∃ r, t.setFld 0x10 f 0 x = { t with regs := r } := ⟨_, rfl⟩
  obtain ⟨_, h1⟩ := stored s F.HOST_STAT_LINK_UP up
  obtain ⟨_, h2⟩ := stored (s.setFld 0x10 F.HOST_STAT_LINK_UP 0 up) F.HOST_STAT_GEN gen
  obtain ⟨r, h3⟩ := stored ((s.setFld 0x10 F.HOST_STAT_LINK_UP 0 up).setFld 0x10 F.HOST_STAT_GEN 0 gen) F.HOST_STAT_WIDTH width
  exact ⟨r, by rw [State.setLink, h3, h2, h1]⟩

theorem State.hostOn_of_pcieUp {s : State} (up : s.pcieUp = true) : s.hostOn = true := (Bool.and_eq_true_iff.mp up).1

theorem State.link_of_pcieUp {s : State} (up : s.pcieUp = true) :
    (s.awake && (s.dom ioDomain).power == .on && s.fld 0x10 F.HOST_STAT_LINK_UP 0 == 1) = true := by
  unfold State.pcieUp State.hostOn State.ioRuns at up
  simp only [Bool.and_eq_true] at up ⊢
  obtain ⟨⟨⟨⟨awake, on⟩, _⟩, _⟩, link⟩ := up
  exact ⟨⟨awake, on⟩, link⟩

theorem exec_endpointReset {s : State} (up : s.pcieUp = true) {i : Instr} (hi : i ∈ [Instr.perstNLow, .flr, .hotReset]) :
    exec i s = .next s.endpointReset := by
  simp only [List.mem_cons, List.not_mem_nil, or_false] at hi
  obtain rfl | rfl | rfl := hi
  exacts [if_pos (State.hostOn_of_pcieUp up), if_pos up, if_pos up]

theorem exec_pcieConfigRequest {s : State} (up : s.pcieUp = true) :
    (∀ en, s.dev = .startCheck → exec (.pcieConfigRequest (some en)) s = .next (s.complete .crs [])) ∧
    (s.dev ≠ .startCheck → exec (.pcieConfigRequest (some false)) s =
      .next (({ s with host := { s.host with msixOn := false } } : State).complete .sc [])) := by
  have answers : ¬ (!(s.awake && (s.dom ioDomain).power == .on && s.fld 0x10 F.HOST_STAT_LINK_UP 0 == 1)) = true := by
    rw [State.link_of_pcieUp up]
    decide
  exact ⟨fun en check => (if_neg answers).trans (if_pos check), fun ready => (if_neg answers).trans (if_neg ready)⟩

/-! ## SPI frames (R632 to R636) -/

/-- A frame whose lengths and parameters hold is performed and answered. -/
theorem spiCommand_performed {s : State} (on : s.spiOn = true) (ready : s.hostReady = true) {c len : Nat} {a : Addr} {w : List Byte}
    (sized : w.length = frameWrites c len) (good : s.frameBad c a len w = false) {st : Status} {e : List Byte} {u : State}
    (done : (s.spiFrame 0).frameDo .spi c a len w = (some (st, e), u)) : spiCommand c a len w s = .next (u.spiAnswer st 0 e) := by
  simp [spiCommand, on, ready, sized, good, done]

theorem exec_spiFrame {s : State} (on : s.spiOn = true) (ready : s.hostReady = true) {addr : Addr} {len : Byte} {tgt : U32}
    {tmo : BitVec 16} {d w : List Byte} {c : Nat} {i : Instr}
    (hi : (c, w, i) ∈ [(1, [], Instr.regRd addr len), (2, d, .regWr addr len d),
      (3, leBytes 4 tgt.toNat ++ leBytes 2 tmo.toNat, .buoyRd addr len tgt tmo), (4, [], .memRd addr len), (5, d, .memWr addr len d)])
    (sized : w.length = frameWrites c len.toNat) (good : s.frameBad c addr len.toNat w = false) {st : Status} {e : List Byte} {u : State}
    (done : (s.spiFrame 0).frameDo .spi c addr len.toNat w = (some (st, e), u)) : exec i s = .next (u.spiAnswer st 0 e) := by
  have performed : exec i s = spiCommand c addr len.toNat w s := by
    simp only [List.mem_cons, Prod.mk.injEq, List.not_mem_nil, or_false] at hi
    obtain ⟨rfl, rfl, rfl⟩ | ⟨rfl, rfl, rfl⟩ | ⟨rfl, rfl, rfl⟩ | ⟨rfl, rfl, rfl⟩ | ⟨rfl, rfl, rfl⟩ := hi
    all_goals rfl
  exact performed.trans (spiCommand_performed on ready sized good done)

theorem exec_spiBadFrame {s : State} (on : s.spiOn = true) {err : Nat} (low : 1 ≤ err) (high : err ≤ 4) :
    exec (.spiBadFrame err) s = .next ((s.spiFrame err).spiAnswer .poison err []) := if_pos (by simp [on, low, high])

/-- A frame abandoned before its response has been clocked out. -/
def State.spiAbandon (s : State) : State :=
  ((s.withHost fun h => { h with spi := none, buoy := h.buoy.filter fun x => x.path != .spi }).setFld 0x10 F.HOST_STAT_SPI_ERR 0 6).count
    0x10 F.HOST_CNT_SPI_ERR 0 1

theorem exec_spiCsNRise {s : State} (on : s.spiOn = true) (pending : s.host.spi.isSome = true) :
    exec .spiCsNRise s = .next (s.spiAbandon.record 0x10 5) := if_pos (by simp [on, pending])

theorem State.spiAbandon_err (s : State) : s.spiAbandon.fld 0x10 F.HOST_STAT_SPI_ERR 0 = 6 := by
  unfold State.spiAbandon
  exact (State.fld_setFld_other _ 0x10 0x10 F.HOST_CNT_SPI_ERR F.HOST_STAT_SPI_ERR 0 0 _ (by decide)).trans
    (State.fld_setFld_same _ 0x10 F.HOST_STAT_SPI_ERR 0 6 (by decide) (by decide))

/-- The oldest waiting BUOY_RD is answered when its word holds. -/
theorem exec_buoyRdPoll {s : State} (on : s.hostOn = true) {b : BuoyWait} {rest : List BuoyWait} (front : s.host.buoy = b :: rest)
    (due : b.next ≤ s.clk.now) (read : (s.hostAsk b.path b.addr (.read 8)).st = .ok)
    (holds : buoyHolds (s.hostAsk b.path b.addr (.read 8)).data b.target = true) :
    exec .buoyRdPoll s = .next ((s.hostAsk b.path b.addr (.read 8)).s.buoyAnswer b .ok (s.hostAsk b.path b.addr (.read 8)).data) := by
  have unfolded : exec .buoyRdPoll s = execBuoyRdPoll s := rfl
  have found : (s.host.buoy.find? fun x => decide (x.next ≤ s.clk.now)) = some b := by
    rw [front]
    exact List.find?_cons_of_pos (by simpa using due)
  unfold execBuoyRdPoll at unfolded
  simp only [found, read, holds, ne_eq, not_true_eq_false, if_true, if_false] at unfolded
  exact unfolded.trans (if_pos on)

/-! ## The I3C target (R637 to R639) -/

theorem length_leBytes (n x : Nat) : (leBytes n x).length = n := by
  induction n generalizing x with
  | zero => rfl
  | succ n ih => exact congrArg (· + 1) (ih _)

/-- The target takes a dynamic address and answers. -/
def State.takeDynamic (s : State) (da : Nat) (d : List Byte) : State := (s.setFld 0x10 F.HOST_STAT_I3C_DA 0 da).i3cSend d

theorem State.i3cAddr_takeDynamic (s : State) {da : Nat} (h : da < 128) (d : List Byte) : (s.takeDynamic da d).i3cAddr = da := by
  have regs : (s.takeDynamic da d).regs = (s.setFld 0x10 F.HOST_STAT_I3C_DA 0 da).regs := rfl
  rw [State.i3cAddr, State.fld_congr regs, State.fld_setFld_same s 0x10 F.HOST_STAT_I3C_DA 0 da (by decide) (by decide)]
  exact Nat.mod_eq_of_lt h

section
variable {s : State} (on : s.i3cOn = true)
include on

theorem exec_i3cPrivateWrite (addressed : s.i3cAddr ≠ 0) (noAnswer : s.host.i3c = none) (noBuoy : s.host.buoy = []) {d : List Byte}
    (long : 10 ≤ d.length) (short : d.length ≤ 268) : exec (.i3cPrivateWrite d) s = .next (s.i3cFrame d) := by
  have sized : ¬ (d.length < 10 ∨ 268 < d.length) := by omega
  exact (if_neg (by simp [on, addressed])).trans ((if_neg (by simp [noAnswer, noBuoy])).trans (if_neg sized))

theorem exec_i3cPrivateRead (addressed : s.i3cAddr ≠ 0) {e : List Byte} (answer : s.host.i3c = some e) :
    exec .i3cPrivateRead s = .next (({ s with host := { s.host with i3c := none } } : State).i3cSend e) := by
  have unfolded : exec .i3cPrivateRead s = execI3cPrivateRead s := rfl
  simp [unfolded, execI3cPrivateRead, on, addressed, answer]

theorem exec_entdaa {da : BitVec 7} (free : s.i3cAddr = 0) (valid : da ≠ 0) :
    exec (.entdaa da) s = .next (s.takeDynamic da.toNat (s.i3cPid ++ [0x06, 0x00])) :=
  if_pos (by rw [on, free, bne_iff_ne.mpr valid]; rfl)

theorem exec_setdasa {sa da : BitVec 7} (free : s.i3cAddr = 0) (valid : da ≠ 0) (own : s.fld 0x10 F.HOST_CFG_I3C_SADDR 0 = sa.toNat)
    (static : sa ≠ 0) : exec (.setdasa sa da) s = .next (s.takeDynamic da.toNat []) := by
  have notZero : (sa.toNat != 0) = true := bne_iff_ne.mpr fun h => static (BitVec.eq_of_toNat_eq h)
  exact if_pos (by rw [on, free, own, notZero, bne_iff_ne.mpr valid]; simp)

theorem exec_setnewda {da : BitVec 7} (addressed : s.i3cAddr ≠ 0) (valid : da ≠ 0) :
    exec (.setnewda da) s = .next (s.takeDynamic da.toNat []) :=
  if_pos (by rw [on, bne_iff_ne.mpr addressed, bne_iff_ne.mpr valid]; rfl)

theorem exec_rstdaa : exec .rstdaa s = .next (s.takeDynamic 0 []) := if_pos on

/-- A directed CCC that reads, of a target that has its address. -/
theorem ccRead_addressed (addressed : s.i3cAddr ≠ 0) (d : List Byte) : ccRead d s = .next (s.i3cSend d) :=
  if_pos (by rw [on, bne_iff_ne.mpr addressed]; rfl)

theorem exec_getstatus (addressed : s.i3cAddr ≠ 0) :
    exec .getstatus s = .next (s.freeVal.2.i3cSend (leBytes 2 s.freeVal.1.toNat)) :=
  if_pos (by rw [on, bne_iff_ne.mpr addressed]; rfl)

end

/-! ## The TAP (R656 to R658) -/

theorem State.outActive_of_notRun {s : State} (h : s.dev ≠ .run) (k : Nat) : s.outActive k = false := by
  simp [State.outActive, h]

theorem idcode_low : (Config.dieRev.val * 2 ^ 28 + 0xA03296F) % 2 ^ 28 = 0xA03296F := by omega

theorem exec_idcode {s : State} (on : s.hostOn = true) : exec .idcode s = .next (s.tap 1 (Config.dieRev.val * 2 ^ 28 + 0xA03296F)) :=
  if_pos on

/-- What the TAP captures under IDCODE keeps the low 28 bits of the code (R656). -/
theorem idcode_captured {s : State} (on : s.hostOn = true) : ∃ t, exec .idcode s = .next t ∧ t.host.tapIr = 1 ∧
    t.host.tapOut % 2 ^ 28 = 0xA03296F ∧ t.mem = s.mem := by
  have captured (out : Nat) (low : out % 2 ^ 28 = 0xA03296F) :
      (s.tap 1 out).host.tapIr = 1 ∧ (s.tap 1 out).host.tapOut % 2 ^ 28 = 0xA03296F ∧ (s.tap 1 out).mem = s.mem := ⟨rfl, low, rfl⟩
  exact ⟨_, exec_idcode on, captured _ idcode_low⟩

theorem tap_instructions {s : State} (on : s.hostOn = true) (n : Nat) :
    (∃ t, exec .bypass s = .next t ∧ t.host.tapIr = 0 ∧ t.mem = s.mem) ∧
    ∃ t, exec (.samplePreload n) s = .next t ∧ t.host.tapIr = 2 ∧ t.host.cells = n ∧ t.mem = s.mem :=
  ⟨⟨_, if_pos on, rfl, rfl⟩, _, if_pos on, rfl, rfl, rfl⟩

theorem State.tapDrive_refused {s : State} (h : s.dev = .run) (ir cells : Nat) :
    (s.tapDrive ir cells).host.tapIr = 0 ∧ (s.tapDrive ir cells).fld 0x10 F.HOST_DBG_REFUSED 0 = 1 := by
  have refused : s.tapDrive ir cells = (s.tap 0 0).setFld 0x10 F.HOST_DBG_REFUSED 0 1 := if_pos h
  rw [refused]
  exact ⟨rfl, State.fld_setFld_same _ 0x10 F.HOST_DBG_REFUSED 0 1 (by decide) (by decide)⟩

theorem State.tapDrive_drives {s : State} (h : s.dev ≠ .run) (ir cells : Nat) : (s.tapDrive ir cells).host.tapIr = ir ∧
    (s.tapDrive ir cells).host.cells = cells ∧ ∀ k, (s.tapDrive ir cells).outActive k = false := by
  have driven : s.tapDrive ir cells = (s.tap ir s.host.tapOut).withHost fun h => { h with cells := cells } := if_neg h
  have stays : (s.tapDrive ir cells).dev ≠ .run := by rwa [driven]
  exact ⟨congrArg (fun t : State => t.host.tapIr) driven, congrArg (fun t : State => t.host.cells) driven,
    fun k => State.outActive_of_notRun stays k⟩

theorem exec_tapDrive {s : State} (on : s.hostOn = true) (n : Nat) :
    exec (.extest n) s = .next (s.tapDrive 3 n) ∧ exec .clamp s = .next (s.tapDrive 4 s.host.cells) := ⟨if_pos on, if_pos on⟩

theorem exec_debug {s : State} (on : s.hostOn = true) (enabled : s.fld 0x10 F.HOST_DBG_EN 0 = 1) (opened : s.windowEnds = false)
    (addr : Addr) (op : MemOp) : exec (.debug addr op) s =
      .next ((s.hostAsk .jtag addr op).s.tap 5 (leNat (s.hostAsk .jtag addr op).data)) :=
  if_pos (by rw [on, enabled, opened]; rfl)

/-! ## O59, path by path -/

section
variable (bar : Fin 3) (off n err : Nat) (d : List Byte) (op : MemOp) (s : State)

theorem pcie_requests (up : s.pcieUp = true) :
    (inBar bar off d.length = true → exec (.pcieMemWrite bar off d) s = .next (State.barWrite bar (spanFuel d.length) s off d)) ∧
    (inBar bar off n = true → n ≤ 4096 →
      exec (.pcieMemRead bar off n) s = .next (State.readComplete (State.barRead bar (spanFuel n) s off n))) ∧
    (bar.val = 2 → inBar bar off 8 = true → off % 8 = 0 → atomicKind op = true →
      exec (.pcieAtomicOp bar off op) s = .next (State.readComplete (s.barAsk 2 off op))) := by
  refine ⟨fun inside => if_pos (by rw [up, inside]; rfl), fun inside short => if_pos (by simp [up, inside, short]),
    fun second inside aligned atomic => ?_⟩
  have performed : exec (.pcieAtomicOp bar off op) s = _ := if_pos (by rw [up, inside]; rfl)
  exact performed.trans (congrArg Host.Outcome.next (if_pos (by simp [second, aligned, atomic])))

theorem State.endpointReset_facts : s.endpointReset.fld 0x10 F.HOST_STAT_LINK_UP 0 = 0 ∧ s.endpointReset.host.msixOn = false ∧
    s.endpointReset.host.table = [] ∧ s.endpointReset = { s with regs := s.endpointReset.regs, host := s.endpointReset.host } := by
  have cleared : s.endpointReset = (s.setLink 0 0 0).withHost fun h => { h with msixOn := false, table := [] } := rfl
  have down := State.setLink_up s 0 0 0
  obtain ⟨r, frame⟩ := State.setLink_frame s 0 0 0
  rw [cleared, frame]
  rw [frame] at down
  exact ⟨down, rfl, rfl, rfl⟩

theorem pcie_linkDown (up : s.pcieUp = true) : ∃ t, exec .pcieLinkDown s = .next t ∧ t.fld 0x10 F.HOST_STAT_LINK_UP 0 = 0 ∧
    nbit (t.faults 0x10) 4 = true ∧ t.mem = s.mem := by
  have performed : exec .pcieLinkDown s = .next ((s.setLink 0 0 0).record 0x10 4) := if_pos up
  have link := (State.hostStat_record (s.setLink 0 0 0) 4 F.HOST_STAT_LINK_UP rfl).trans (State.setLink_up s 0 0 0)
  exact ⟨_, performed, link, State.nbit_faults_recordAs _ 6 (by decide) (by decide),
    (State.record_recorded (s.setLink 0 0 0) 0x10 4).mem⟩

theorem pcie_linkUp (gen width : BitVec 3) (awake : s.awake = true) (on : (s.dom 42).power = .on) (stays : (s.dom 42).draining = false)
    (down : s.fld 0x10 F.HOST_STAT_LINK_UP 0 = 0) : ∃ t, exec (.pcieLinkUp gen width) s = .next t ∧
      t.fld 0x10 F.HOST_STAT_LINK_UP 0 = 1 ∧ t.fld 0x10 F.HOST_STAT_GEN 0 = gen.toNat ∧
      t.fld 0x10 F.HOST_STAT_WIDTH 0 = width.toNat ∧ t.mem = s.mem := by
  have sent := State.sendPending_notified (s.setLink 1 gen.toNat width.toNat) fun _ => true
  have regs : ((s.setLink 1 gen.toNat width.toNat).sendPending fun _ => true).regs = (s.setLink 1 gen.toNat width.toNat).regs := by
    rw [sent]
  have mem : ((s.setLink 1 gen.toNat width.toNat).sendPending fun _ => true).mem = s.mem := by
    obtain ⟨r, frame⟩ := State.setLink_frame s 1 gen.toNat width.toNat
    rw [sent, frame]
  refine ⟨_, if_pos ?_, ?_, ?_, ?_, mem⟩
  · have power : (s.dom ioDomain).power = .on := on
    have notDraining : (s.dom ioDomain).draining = false := stays
    rw [awake, power, notDraining, down]
    rfl
  · exact (State.fld_congr regs _ _ _).trans (State.setLink_up s 1 _ _)
  · exact (State.fld_congr regs _ _ _).trans ((State.setLink_gen s 1 _ _).trans (Nat.mod_eq_of_lt gen.isLt))
  · exact (State.fld_congr regs _ _ _).trans ((State.setLink_width s 1 _ _).trans (Nat.mod_eq_of_lt width.isLt))

theorem spi_abandoned (on : s.spiOn = true) (pending : s.host.spi.isSome = true) : ∃ t, exec .spiCsNRise s = .next t ∧
    t.host.spi = none ∧ t.fld 0x10 F.HOST_STAT_SPI_ERR 0 = 6 ∧ nbit (t.faults 0x10) 5 = true ∧ t.mem = s.mem := by
  have recorded := State.record_recorded s.spiAbandon 0x10 5
  have noAnswer : (s.spiAbandon.record 0x10 5).host.spi = s.spiAbandon.host.spi :=
    State.recordStep_keepsSpi.recordAs s.spiAbandon 0x10 5 6 fun _ _ => rfl
  refine ⟨_, exec_spiCsNRise on pending, noAnswer.trans ?_,
    (State.hostStat_record _ 5 F.HOST_STAT_SPI_ERR rfl).trans s.spiAbandon_err,
    State.nbit_faults_recordAs _ 6 (by decide) (by decide), recorded.mem.trans ?_⟩
  · simp only [State.spiAbandon, State.withHost, State.count_host, State.setFld_host]
  · simp only [State.spiAbandon, State.withHost, State.count_mem, State.setFld_mem]

end

/-- Settles O59. -/
theorem hostPathCommands : Obligations.HostPathCommands := by
  intro bar off n err d op en gen width addr len tgt tmo da sa code s
  refine ⟨fun up => ?_, fun awake on stays down => pcie_linkUp s gen width awake on stays down, fun on ready => ?_,
    fun b rest on front due read holds => exec_buoyRdPoll on front due read holds, fun on => ?_, fun on => ?_⟩
  · obtain ⟨writes, reads, atomics⟩ := pcie_requests bar off n d op s up
    exact ⟨writes, reads, atomics, fun i hi => ⟨_, exec_endpointReset up hi, s.endpointReset_facts⟩, (exec_pcieConfigRequest up).1 en,
      (exec_pcieConfigRequest up).2, pcie_linkDown s up⟩
  · exact ⟨fun c w i hi sized good st e u done => exec_spiFrame on ready hi sized good done,
      fun good st e u done => spiCommand_performed on ready rfl good done, fun low high => exec_spiBadFrame on low high,
      fun pending => spi_abandoned s on pending⟩
  · have small (x : BitVec 7) : x.toNat < 128 := x.isLt
    refine ⟨fun addressed noAnswer noBuoy long short => exec_i3cPrivateWrite on addressed noAnswer noBuoy long short,
      fun addressed e answer => ⟨_, exec_i3cPrivateRead on addressed answer, rfl, rfl, rfl, rfl⟩,
      fun free valid => ⟨⟨_, exec_entdaa on free valid, State.i3cAddr_takeDynamic s (small da) _, rfl⟩,
        fun own static => ⟨_, exec_setdasa on free valid own static, State.i3cAddr_takeDynamic s (small da) _, rfl⟩⟩,
      fun addressed valid => ⟨_, exec_setnewda on addressed valid, State.i3cAddr_takeDynamic s (small da) _, rfl⟩,
      ⟨_, exec_rstdaa on, State.i3cAddr_takeDynamic s (by decide) _, rfl⟩, ⟨_, if_pos on, rfl, rfl⟩, ⟨_, if_pos on, rfl, rfl⟩,
      fun addressed => ?_, fun other => if_pos (by rw [on, other]; rfl)⟩
    exact ⟨ccRead_addressed on addressed _, ccRead_addressed on addressed _, ccRead_addressed on addressed _,
      ccRead_addressed on addressed _, ccRead_addressed on addressed _, _, exec_getstatus on addressed, length_leBytes _ _, rfl⟩
  · obtain ⟨extest, clamp⟩ := exec_tapDrive on n
    obtain ⟨bypass, sample⟩ := tap_instructions on n
    refine ⟨bypass, idcode_captured on, sample, fun notRun => ?_, fun run i hi => ?_,
      fun enabled opened => ⟨_, exec_debug on enabled opened addr op, rfl, rfl⟩⟩
    · obtain ⟨ir, cells, outs⟩ := State.tapDrive_drives notRun 3 n
      obtain ⟨irClamp, _, outsClamp⟩ := State.tapDrive_drives notRun 4 s.host.cells
      exact ⟨⟨_, extest, ir, cells, outs⟩, _, clamp, irClamp, outsClamp⟩
    · simp only [List.mem_cons, List.not_mem_nil, or_false] at hi
      obtain rfl | rfl := hi
      exacts [⟨_, extest, State.tapDrive_refused run 3 n⟩, ⟨_, clamp, State.tapDrive_refused run 4 s.host.cells⟩]

end Sys2Proof.Machine
end
